-- ==== Sys2Proof/Word.lean ====
section
/-! DEFINITION. The word types of the FK-9630: what the manual treats as bits of a fixed width. -/

namespace Sys2Proof

/-- One byte of memory. -/
abbrev Byte := BitVec 8
/-- A 32-bit register element (R100). -/
abbrev W32 := BitVec 32
/-- A 64-bit scalar register, address or program counter (R101, R118). -/
abbrev W64 := BitVec 64
/-- A 96-bit instruction slot (R118, R124). -/
abbrev W96 := BitVec 96
/-- A lane mask: bit i is lane i (R18). -/
abbrev Mask := BitVec 1024

end Sys2Proof
end

