-- ==== Sys2Proof/Syntax.lean ====
section
/-! DEFINITION. The abstract syntax: one constructor of `Instr` for each row of the operation table. The 161 rows with an
opcode carry their instruction word in the layout of its class (R124, R132, R133), every field decoded; the 82 rows without
an opcode are events of the device and carry what the outside world, or the unit that moves, supplies. -/

namespace Sys2Proof

/-- Guard codes, in the order of R125. -/
inductive Guard | al | eq | ne | lt | ge | gt | le | ltn | gen | gtn | len | vs | vc
  deriving DecidableEq, Repr

/-- Element types, in the order of R99. -/
inductive Ty | b32 | i32 | n32 | f32 | i16 | n16 | f16 | bf16 | i8 | n8 | e4m3 | e5m2 | bp8 | i64 | n64 | b64
  deriving DecidableEq, Repr

/-- Special registers, indices 64 to 80 of class 01 (R128). -/
inductive SpReg
  | lane | wave | team | width | role | hzn | tag | scope | core | pair | cluster | asid | cc | mstall | bflag | clock | fault
  deriving DecidableEq, Repr

/-- Rounding modes (R107). -/
inductive Rm | rn | rz | rd | ru
  deriving DecidableEq, Repr

/-- Memory scopes (R73). -/
inductive Scp | w | t | c | d | f | s
  deriving DecidableEq, Repr

/-- Order codes (R74). -/
inductive Order | relaxed | acquire | release | acqRel
  deriving DecidableEq, Repr

/-- Cache policies (R74). -/
inductive Policy | page | stream | keep | uncached
  deriving DecidableEq, Repr

/-- Atomic operations (R133). -/
inductive Aop | add | fadd | min | max | fmin | fmax | and | or | xor | exch
  deriving DecidableEq, Repr

/-- An operand field (R126). In access-slice code `s n` is the address register a n (R262). -/
inductive Operand
  | v (n : BitVec 8)          -- vector register
  | s (n : BitVec 6)          -- scalar register
  | sp (r : SpReg)            -- special register
  | x (d : BitVec 2)          -- bypass latch x1 to x3
  | q (n : BitVec 2)          -- operand queue
  | h (n : BitVec 4)          -- handle register
  | k (n : BitVec 7)          -- mask register k0 to k95 as data
  | dead                      -- %dead as data
  | imm (i : BitVec 8)        -- signed immediate
  | lit                       -- the trailing literal
  deriving DecidableEq, Repr

/-- The fields that every instruction word has (R124). `nwb` is bit 60, which the memory layouts read as SX (R133); `lit`
is the trailing literal's value when bit 59 (L) is set (R131). -/
structure Hdr where
  grd : Guard
  msk : BitVec 7
  typ : Ty
  dsc : BitVec 3
  dsw : BitVec 7
  nwb : Bool
  lit : Option W64
  deriving DecidableEq, Repr

/-- The general layout (R133). -/
structure GenW where
  hdr : Hdr
  dst : Operand
  a : Operand
  b : Operand
  c : Operand
  opx : BitVec 5
  ty2 : Ty
  sat : Bool
  abs : BitVec 3
  neg : BitVec 3
  nan : Bool
  rm : Rm
  deriving DecidableEq, Repr

/-- The memory layout (R133). -/
structure MemW where
  hdr : Hdr
  dst : Operand
  a : Operand
  b : Operand
  c : Operand
  scope : Scp
  order : Order
  policy : Policy
  disp : BitVec 12
  deriving DecidableEq, Repr

/-- The atomic layout (R133). -/
structure AtomW where
  hdr : Hdr
  dst : Operand
  a : Operand
  b : Operand
  c : Operand
  scope : Scp
  order : Order
  policy : Policy
  aop : Aop
  disp : BitVec 8
  deriving DecidableEq, Repr

/-- The remote layout (R133). -/
structure RemW where
  hdr : Hdr
  dst : Operand
  a : Operand
  b : Operand
  c : Operand
  scope : Scp
  order : Order
  policy : Policy
  stream : BitVec 6
  disp : BitVec 6
  deriving DecidableEq, Repr

/-- The branch layout: bits 38:0 hold the signed slot count (R133, R134). -/
structure BrW where
  hdr : Hdr
  dst : Operand
  a : Operand
  offset : BitVec 39
  deriving DecidableEq, Repr

/-- Where bytes are stored: local HBM, a team's shelf, a context's annex on a die slot's die, a wave's stack, the CXL tier
window, host memory (R66, R300). Teams, contexts and waves are named by the model's identifiers. -/
inductive Space
  | hbm | shelf (team : Nat) | annex (ctx die : Nat) | stack (wave : Nat) | cxl | host
  deriving DecidableEq, Repr

/-- How a failable access of aperture 2 or 3 ends (R43, R309): performed, with the lanes whose data came back poisoned, or
failed with a cause on some lanes. -/
inductive Reply
  | done (poison : Mask)
  | failed (cause : Nat) (lanes : Mask)
  deriving DecidableEq, Repr

/-- A sequence space with a peer: streamed (R82) or by traffic class (R318). -/
structure SeqSpace where
  peer : Nat
  asid : Nat
  streamed : Bool
  sub : Nat
  deriving DecidableEq, Repr

/-- A record of a read or atomic packet, or one enabled element of a write packet (R317). -/
structure PacketRec where
  addr : W64
  data : W64
  deriving DecidableEq, Repr

/-- A fabric request packet as it arrives (R316): its flits, the header flit first, and its integrity tag. `acquire` says whether a read is of an
acquire load, which R83 has wait and no field of the header tells; `linkFails` that an access of it to the CXL tier or over the host link fails
(R319), and `poison` which lines of a write's range are poisoned (R332, log 58). -/
structure Packet where
  flits : List (List Byte)
  tag : W64
  acquire : Bool
  linkFails : Bool
  poison : List Nat
  deriving DecidableEq, Repr

/-- An ack, nak or response as it arrives (R316): its flits, its integrity tag, and the records whose data is poisoned. -/
structure Answer where
  flits : List (List Byte)
  tag : W64
  poison : List Nat
  deriving DecidableEq, Repr

/-- Network operations (R239, R240). -/
inductive NetOp | put | get | atom | flush
  deriving DecidableEq, Repr

/-- A network packet as it arrives (R326, R327, R330): its fields, whether its tag verifies, and whether it bears a Congestion Experienced mark. -/
structure NetPacket where
  conn : Nat
  op : NetOp
  msg : W32
  off : Nat
  len : Nat
  win : Nat
  key : BitVec 16
  roff : Nat
  total : Nat
  aop : Aop
  atyp : Ty
  opnd : W64
  data : List Byte
  tagOk : Bool
  ce : Bool
  deriving DecidableEq, Repr

/-- A network acknowledgement or nak as it arrives: the connection, message and packet offset answered, its status (0 placed,
1 refused, 4 context miss), the data of an NGET or NATOM response, and whether it bears a Congestion Experienced mark (R326). -/
structure NetAnswer where
  conn : Nat
  msg : W32
  off : Nat
  status : Nat
  data : List Byte
  ce : Bool
  deriving DecidableEq, Repr

/-- The host's translation of an aperture 3 page (R307). -/
structure AtsEntry where
  frame : W64
  r : Bool
  w : Bool
  deriving DecidableEq, Repr

/-- Units of a targeted self-test (R337, R338): the logic of a core, a row of an SRAM array of a core, of an L2 slice or of a die's annex, a row
of an HBM stack, a lane of a core's vector pipes. -/
inductive FailUnit
  | core (c : Nat) | row (core : Nat) | l2Slice (n : Nat) | annexSegment (die : Nat) | hbmRow (stack : Nat) | lane (core : Nat) | lockTable (die : Nat)
  deriving DecidableEq, Repr

/-- Outcomes of a targeted self-test (R337). -/
inductive TestOutcome | pass | spared | noSpare
  deriving DecidableEq, Repr

/-- What holds a line of data in which an error is found (R331): its own array, an L2 slice, or the L1 of a core. -/
inductive Holder | home | l2 (slice : Nat) | l1 (core : Nat)
  deriving DecidableEq, Repr

/-- Where an error is found (R331): a line of data, elements of a vector register of a wave, a line of a core's instruction cache with the bit
that has changed, an entry of the translation caches, of a host page's translation there, of a core's catalogue cache, or of a die's range-lock
table. -/
inductive ArraySite
  | line (space : Space) (addr : Nat) (holder : Holder)
  | vreg (wave reg : Nat) (lanes : Mask)
  | icache (core asid : Nat) (addr : W64) (bit : Nat)
  | translation (core asid base : Nat)
  | hostTranslation (core asid : Nat) (page : W64)
  | catalogue (core ctx heap : Nat)
  | lockEntry (die index : Nat)
  deriving DecidableEq, Repr

/-- An error found in an array (R331, R332, R335): where, in which row of the array, and the raw syndrome. -/
structure ArrayError where
  site : ArraySite
  row : Nat
  synd : W64
  deriving DecidableEq, Repr

/-- A firmware image offered to the boot ROM or the management processor (R345): which firmware it is, whether each of its two signatures
verifies, and its security version. -/
structure FirmwareImage where
  name : Nat
  rsaOk : Bool
  slhOk : Bool
  version : Nat
  management : Bool
  deriving DecidableEq, Repr

/-- A resynchronisation of a sequence space (R84): of this device as its source, or, with the number that it goes on with, as its destination. -/
structure Resync where
  space : SeqSpace
  dest : Option W32
  deriving DecidableEq, Repr

/-- A chunk of an engine operation to move (R242), with the cause of a CXL expander's refusal of one of its accesses (R309). -/
structure ChunkMove where
  op : Nat
  refused : Option Nat
  deriving DecidableEq, Repr

/-- A launch packet to read (R276), and whether the host refuses a translation that it needs (R307). -/
structure PacketRead where
  queue : Nat
  hostRefuses : Bool
  deriving DecidableEq, Repr

/-- A flit to send again (R316): its plane and its number there. -/
structure FlitNak where
  plane : Nat
  flit : Nat
  deriving DecidableEq, Repr

/-- What a self-test found (R337): the array of the unit that was tested, the row in it, and the outcome. -/
structure TestReport where
  array : Nat
  row : Nat
  outcome : TestOutcome
  deriving DecidableEq, Repr

/-- Who writes a device register (R349). -/
inductive Writer | host | mp | other
  deriving DecidableEq, Repr

/-- The operations and events of the device, one constructor for each row of the table. -/
inductive Instr
  /-- NOP (R145). -/
  | nop (w : GenW)
  /-- BRA (R146). -/
  | bra (w : BrW)
  /-- BKZ (R147). -/
  | bkz (w : BrW)
  /-- BKNZ (R147). -/
  | bknz (w : BrW)
  /-- BHZ (R148). -/
  | bhz (w : BrW)
  /-- CALL (R149). -/
  | call (w : BrW)
  /-- RET (R150). -/
  | ret (w : GenW)
  /-- JMPI (R150). -/
  | jmpi (w : GenW)
  /-- LOOP (R151). -/
  | loop (w : BrW)
  /-- ENDP (R152). -/
  | endp (w : GenW)
  /-- TRAP (R153). -/
  | trap (w : GenW)
  /-- RFT (R154). -/
  | rft (w : GenW)
  /-- YIELD (R155). -/
  | yield (w : GenW)
  /-- YIELD_EXPIRY (R155). -/
  | yieldExpiry (wave : Nat)
  /-- SRD (R156). -/
  | srd (w : GenW)
  /-- SWR (R157). -/
  | swr (w : GenW)
  /-- HALTCTX (R158). -/
  | haltctx (w : GenW)
  /-- DRAIN (R159). -/
  | drain (w : GenW)
  /-- TLBINV (R160). -/
  | tlbinv (w : GenW)
  /-- REPLAY (R161). -/
  | replay (w : GenW)
  /-- NOPRE (R162). -/
  | nopre (w : GenW)
  /-- PRE (R162). -/
  | pre (w : GenW)
  /-- MARK (R163). -/
  | mark (w : GenW)
  /-- SMOV (R166). -/
  | smov (w : GenW)
  /-- SLI (R166). -/
  | sli (w : GenW)
  /-- SADD (R164). -/
  | sadd (w : GenW)
  /-- SSUB (R164). -/
  | ssub (w : GenW)
  /-- SMUL (R164). -/
  | smul (w : GenW)
  /-- SMULH (R164). -/
  | smulh (w : GenW)
  /-- SMAD (R164). -/
  | smad (w : GenW)
  /-- SDIV (R164). -/
  | sdiv (w : GenW)
  /-- SREM (R164). -/
  | srem (w : GenW)
  /-- SAND (R164). -/
  | sand (w : GenW)
  /-- SOR (R164). -/
  | sor (w : GenW)
  /-- SXOR (R164). -/
  | sxor (w : GenW)
  /-- SSHL (R164). -/
  | sshl (w : GenW)
  /-- SSHR (R164). -/
  | sshr (w : GenW)
  /-- SMIN (R164). -/
  | smin (w : GenW)
  /-- SMAX (R164). -/
  | smax (w : GenW)
  /-- SCMP (R165). -/
  | scmp (w : GenW)
  /-- STST (R165). -/
  | stst (w : GenW)
  /-- SSEL (R167). -/
  | ssel (w : GenW)
  /-- SCLZ (R168). -/
  | sclz (w : GenW)
  /-- SPOPC (R168). -/
  | spopc (w : GenW)
  /-- SBFE (R169). -/
  | sbfe (w : GenW)
  /-- SBFI (R169). -/
  | sbfi (w : GenW)
  /-- KAND (R170). -/
  | kand (w : GenW)
  /-- KOR (R170). -/
  | kor (w : GenW)
  /-- KXOR (R170). -/
  | kxor (w : GenW)
  /-- KANDN (R170). -/
  | kandn (w : GenW)
  /-- KMOV (R170). -/
  | kmov (w : GenW)
  /-- KSET (R171). -/
  | kset (w : GenW)
  /-- KGET (R172). -/
  | kget (w : GenW)
  /-- KPOPC (R173). -/
  | kpopc (w : GenW)
  /-- KFIRST (R173). -/
  | kfirst (w : GenW)
  /-- VMOV (R178). -/
  | vmov (w : GenW)
  /-- VADD (R178). -/
  | vadd (w : GenW)
  /-- VSUB (R178). -/
  | vsub (w : GenW)
  /-- VMUL (R178). -/
  | vmul (w : GenW)
  /-- VMULH (R178). -/
  | vmulh (w : GenW)
  /-- VMAD (R178). -/
  | vmad (w : GenW)
  /-- VAND (R178). -/
  | vand (w : GenW)
  /-- VOR (R178). -/
  | vor (w : GenW)
  /-- VXOR (R178). -/
  | vxor (w : GenW)
  /-- VSHL (R178). -/
  | vshl (w : GenW)
  /-- VSHR (R178). -/
  | vshr (w : GenW)
  /-- VMIN (R178). -/
  | vmin (w : GenW)
  /-- VMAX (R178). -/
  | vmax (w : GenW)
  /-- VABS (R179). -/
  | vabs (w : GenW)
  /-- VCMP (R183). -/
  | vcmp (w : GenW)
  /-- VSEL (R184). -/
  | vsel (w : GenW)
  /-- VCLZ (R180). -/
  | vclz (w : GenW)
  /-- VPOPC (R180). -/
  | vpopc (w : GenW)
  /-- VBFE (R181). -/
  | vbfe (w : GenW)
  /-- VBFI (R181). -/
  | vbfi (w : GenW)
  /-- VDP4 (R182). -/
  | vdp4 (w : GenW)
  /-- VFADD (R185). -/
  | vfadd (w : GenW)
  /-- VFSUB (R185). -/
  | vfsub (w : GenW)
  /-- VFMUL (R185). -/
  | vfmul (w : GenW)
  /-- VFMA (R185). -/
  | vfma (w : GenW)
  /-- VFMIN (R186). -/
  | vfmin (w : GenW)
  /-- VFMAX (R186). -/
  | vfmax (w : GenW)
  /-- VFCMP (R188). -/
  | vfcmp (w : GenW)
  /-- VFCLASS (R189). -/
  | vfclass (w : GenW)
  /-- VRCP (R187). -/
  | vrcp (w : GenW)
  /-- VRSQ (R187). -/
  | vrsq (w : GenW)
  /-- VSQRT (R187). -/
  | vsqrt (w : GenW)
  /-- VDIV (R185). -/
  | vdiv (w : GenW)
  /-- VEXP2 (R187). -/
  | vexp2 (w : GenW)
  /-- VLOG2 (R187). -/
  | vlog2 (w : GenW)
  /-- VCVT (R191). -/
  | vcvt (w : GenW)
  /-- VFRND (R190). -/
  | vfrnd (w : GenW)
  /-- VPACK (R192). -/
  | vpack (w : GenW)
  /-- VUNPK (R193). -/
  | vunpk (w : GenW)
  /-- VSHUF (R195). -/
  | vshuf (w : GenW)
  /-- VXSH (R196). -/
  | vxsh (w : GenW)
  /-- VBCAST (R197). -/
  | vbcast (w : GenW)
  /-- VRED (R198). -/
  | vred (w : GenW)
  /-- VSCAN (R198). -/
  | vscan (w : GenW)
  /-- VCOMP (R199). -/
  | vcomp (w : GenW)
  /-- VEXPD (R200). -/
  | vexpd (w : GenW)
  /-- VAPND (R201). -/
  | vapnd (w : GenW)
  /-- VVOTE (R202). -/
  | vvote (w : GenW)
  /-- VRAND (R204). -/
  | vrand (w : GenW)
  /-- VRSEED (R205). -/
  | vrseed (w : GenW)
  /-- VSCA (R206). -/
  | vsca (w : GenW)
  /-- BSET (R208). -/
  | bset (w : GenW)
  /-- BMAP (R209). -/
  | bmap (w : GenW)
  /-- MMA (R214). -/
  | mma (w : GenW)
  /-- MMA_RETIRE (R216). -/
  | mmaRetire (op : Nat)
  /-- MSCA (R217). -/
  | msca (w : GenW)
  /-- MTRN (R218). -/
  | mtrn (w : GenW)
  /-- MLDF (R220). -/
  | mldf (w : MemW)
  /-- MSTF (R220). -/
  | mstf (w : MemW)
  /-- LD (R223). -/
  | ld (w : MemW)
  /-- ST (R224). -/
  | st (w : MemW)
  /-- LDB (R225). -/
  | ldb (w : MemW)
  /-- STB (R225). -/
  | stb (w : MemW)
  /-- ATOM (R226). -/
  | atom (w : AtomW)
  /-- ATOMR (R226). -/
  | atomr (w : AtomW)
  /-- CAS (R227). -/
  | cas (w : MemW)
  /-- FENCE (R228). -/
  | fence (w : MemW)
  /-- PRF (R229). -/
  | prf (w : MemW)
  /-- LDH (R230). -/
  | ldh (w : MemW)
  /-- STH (R231). -/
  | sth (w : MemW)
  /-- HMOV (R232). -/
  | hmov (w : GenW)
  /-- PIN (R233). -/
  | pin (w : GenW)
  /-- UNPIN (R233). -/
  | unpin (w : GenW)
  /-- PLD (R235). -/
  | pld (w : RemW)
  /-- PST (R236). -/
  | pst (w : RemW)
  /-- PSTS (R236). -/
  | psts (w : RemW)
  /-- PATOM (R237). -/
  | patom (w : AtomW)
  /-- PATOMR (R237). -/
  | patomr (w : AtomW)
  /-- NPUT (R239). -/
  | nput (w : GenW)
  /-- NGET (R239). -/
  | nget (w : GenW)
  /-- NATOM (R239). -/
  | natom (w : GenW)
  /-- NFLUSH (R240). -/
  | nflush (w : GenW)
  /-- WREV (R241). -/
  | wrev (w : GenW)
  /-- COPY (R245). -/
  | copy (w : GenW)
  /-- COPYM (R246). -/
  | copym (w : GenW)
  /-- CHAIN (R247). -/
  | chain (w : GenW)
  /-- CLOSE (R248). -/
  | close (w : GenW)
  /-- WAITB (R249). -/
  | waitb (w : GenW)
  /-- CADD (R250). -/
  | cadd (w : GenW)
  /-- TRYW (R251). -/
  | tryw (w : GenW)
  /-- TRYW_PERIODIC_READ (R251). -/
  | trywPeriodicRead (wave : Nat)
  /-- TRYW_LIMIT_EXPIRY (R251). -/
  | trywLimitExpiry (wave : Nat)
  /-- SPAWN (R252). -/
  | spawn (w : GenW)
  /-- TASK_ACCEPT (R31). -/
  | taskAccept (task : Nat)
  /-- CSCOPE (R253). -/
  | cscope (w : GenW)
  /-- CANCEL (R254). -/
  | cancel (w : GenW)
  /-- KPOLL (R255). -/
  | kpoll (w : GenW)
  /-- BARS (R257). -/
  | bars (w : GenW)
  /-- BARA (R257). -/
  | bara (w : GenW)
  /-- BARW (R257). -/
  | barw (w : GenW)
  /-- GIVE (R258). -/
  | give (w : GenW)
  /-- GIVE_RELEASE (R27). -/
  | giveRelease (wave : Nat)
  /-- CLAIM (R258). -/
  | claim (w : GenW)
  /-- HWAIT (R259). -/
  | hwait (w : GenW)
  /-- WAITT (R260). -/
  | waitt (w : GenW)
  /-- ELECT (R261). -/
  | elect (w : GenW)
  /-- ALOOP (R265). -/
  | aloop (w : GenW)
  /-- AEND (R265). -/
  | aend (w : GenW)
  /-- ALD (R266). -/
  | ald (w : GenW)
  /-- APF (R266). -/
  | apf (w : GenW)
  /-- AADV (R267). -/
  | aadv (w : GenW)
  /-- AHALT (R268). -/
  | ahalt (w : GenW)
  /-- WAVE_KILL (R35). -/
  | waveKill (wave : Nat)
  /-- WAVE_RETIRE (R30). -/
  | waveRetire (wave : Nat)
  /-- WAVE_STATE_MACHINE_CHECK (R40). -/
  | waveStateMachineCheck (wave : Nat)
  /-- SCOPE_QUIESCE_ACK (R39). -/
  | scopeQuiesceAck (ctx slot : Nat)
  /-- SLIP_RESOLVE (R46). -/
  | slipResolve (wave : Nat) (tag : W32) (reply : Reply)
  /-- TRAP_DELIVERY (R53). -/
  | trapDelivery (wave : Nat)
  /-- FAULT_RECORD_WRITE (R305). -/
  | faultRecordWrite (wave : Nat)
  /-- NOPRE_OVERRUN (R65). -/
  | nopreOverrun (wave : Nat)
  /-- PREEMPTION (R60). -/
  | preemption (ctx : Nat)
  /-- TEAM_RESTORE (R62). -/
  | teamRestore (team core : Nat)
  /-- BINDERY_BATCH_START (R94). -/
  | binderyBatchStart (die : Nat)
  /-- BINDERY_DRAIN_DONE (R94). -/
  | binderyDrainDone (die : Nat)
  /-- BINDERY_BATCH_DONE (R94). -/
  | binderyBatchDone (die : Nat)
  /-- BDY_DOORBELL (R94). -/
  | bdyDoorbell (die : Nat) (value : W64)
  /-- PSTS_RESYNC (R84). -/
  | pstsResync (r : Resync)
  /-- ENGINE_OP_START (R87). -/
  | engineOpStart (op : Nat)
  /-- ENGINE_CHUNK (R242). -/
  | engineChunk (c : ChunkMove)
  /-- ENGINE_OP_COMPLETE (R243). -/
  | engineOpComplete (op : Nat)
  /-- ENGINE_OP_ABORT (R35). -/
  | engineOpAbort (op : Nat)
  /-- LQ_DOORBELL (R274). -/
  | lqDoorbell (queue : Nat) (value : W32)
  /-- LAUNCH_PACKET_READ (R276). -/
  | launchPacketRead (p : PacketRead)
  /-- LAUNCH_PENDING (R277). -/
  | launchPending (queue : Nat)
  /-- TEAM_PLACEMENT (R279). -/
  | teamPlacement
  /-- GRID_END (R278). -/
  | gridEnd (grid : Nat)
  /-- CONTEXT_END_INTERRUPT (R271). -/
  | contextEndInterrupt (ctx : Nat)
  /-- CTX_END (R272). -/
  | ctxEnd (value : W64)
  /-- GOVERNOR_WINDOW (R287). -/
  | governorWindow
  /-- CORE_HOT_MARK (R281). -/
  | coreHotMark (core temp : Nat)
  /-- CORE_DROOP (R281). -/
  | coreDroop (core : Nat)
  /-- PRI_PAGE_REQUEST (R308). -/
  | priPageRequest (asid : Nat) (page : W64)
  /-- PRI_RESPONSE (R308). -/
  | priResponse (group : Nat) (code : BitVec 4)
  /-- ATS_INVALIDATE_REQUEST (R307). -/
  | atsInvalidateRequest (pasid : Nat) (va : W64) (len : Nat)
  /-- FAB_CTL_EN (R312). -/
  | fabCtlEn
  /-- FABRIC_JOIN (R312). -/
  | fabricJoin (id : BitVec 9) (inc : BitVec 16)
  /-- FABRIC_PEER_UPDATE (R313). -/
  | fabricPeerUpdate (peer : BitVec 9) (st : BitVec 2) (inc : BitVec 16)
  /-- PLANE_DOWN (R315). -/
  | planeDown (plane : Nat)
  /-- FLIT_LINK_RETRY (R316). -/
  | flitLinkRetry (f : FlitNak)
  /-- FABRIC_WRITE_PACKET (R320). -/
  | fabricWritePacket (pkt : Packet)
  /-- FABRIC_READ_PACKET (R319). -/
  | fabricReadPacket (pkt : Packet)
  /-- FABRIC_ATOMIC_PACKET (R319). -/
  | fabricAtomicPacket (pkt : Packet)
  /-- FABRIC_ACK (R320). -/
  | fabricAck (ans : Answer)
  /-- FABRIC_NAK (R320). -/
  | fabricNak (ans : Answer)
  /-- FABRIC_RESPONSE (R321). -/
  | fabricResponse (ans : Answer)
  /-- FABRIC_RTO_EXPIRY (R320). -/
  | fabricRtoExpiry (pkt : Nat)
  /-- FABRIC_TMO_EXPIRY (R321). -/
  | fabricTmoExpiry (pkt : Nat)
  /-- NET_PACKET_ARRIVAL (R330). -/
  | netPacketArrival (pkt : NetPacket)
  /-- NET_CONTEXT_FETCH_DONE (R329). -/
  | netContextFetchDone (conn : Nat)
  /-- NET_ACK (R330). -/
  | netAck (ans : NetAnswer)
  /-- NET_NAK (R330). -/
  | netNak (ans : NetAnswer)
  /-- NET_PARK_RESEND (R329). -/
  | netParkResend (pkt : Nat)
  /-- NET_RETRANSMIT_TIMEOUT (R330). -/
  | netRetransmitTimeout (pkt : Nat)
  /-- ARRAY_UNCORRECTABLE_ERROR (R332). -/
  | arrayUncorrectableError (err : ArrayError)
  /-- ARRAY_CORRECTED_ERROR (R331). -/
  | arrayCorrectedError (err : ArrayError)
  /-- SELF_TEST_COMPLETE (R337). -/
  | selfTestComplete (unit : FailUnit) (found : TestReport)
  /-- RANGE_LOCK_ENTRY_ERROR (R333). -/
  | rangeLockEntryError (die index : Nat) (ownerReadable : Bool)
  /-- INFIELD_TEST_DUE (R339). -/
  | infieldTestDue (cluster : Nat)
  /-- INFIELD_TEST_END (R339). -/
  | infieldTestEnd (cluster : Nat) (failing : List (FailUnit × Nat × TestOutcome))
  /-- WATCHDOG_FIRE (R340). -/
  | watchdogFire (team bar : Nat)
  /-- XBAR_COMMIT_PREPARE (R343). -/
  | xbarCommitPrepare (value : W64)
  /-- XBAR_SWAP (R343). -/
  | xbarSwap
  /-- MP_WATCHDOG_RESET (R343). -/
  | mpWatchdogReset
  /-- LATENCY_WINDOW_END (R344). -/
  | latencyWindowEnd
  /-- SECURITY_ALARM (R346). -/
  | securityAlarm (which : BitVec 2)
  /-- FIRMWARE_IMAGE_VERIFY (R345). -/
  | firmwareImageVerify (image : FirmwareImage)
  /-- PWR_MODE (R347). -/
  | pwrMode (value : W64)
  /-- ERR_STATUS_CLEAR (R335). -/
  | errStatusClear (bank : Nat)
  /-- POWER_ON (R348). -/
  | powerOn (image : FirmwareImage) (rows : List W64)
  /-- REGISTER_WRITE (R349). -/
  | registerWrite (agent : Writer) (offset : Nat) (value : W64)
  /-- HOST_BAR_ACCESS (R310). -/
  | hostBarAccess (addr len : Nat) (store : Option (List Byte))
  /-- FABRIC_PLANE_UP (R315). -/
  | fabricPlaneUp (plane : Nat)
  /-- FABRIC_PACKET_SEND (R324). -/
  | fabricPacketSend (plane : Nat)
  /-- MMA_LEAVES_ARRAY (R216). -/
  | mmaLeavesArray (op : Nat)
  /-- ATS_TRANSLATION_RESPONSE (R307). -/
  | atsTranslationResponse (pasid : Nat) (page : W64) (answer : Option AtsEntry)
  /-- PRI_CAPABILITY_WRITE (R308). -/
  | priCapabilityWrite (allowance : Nat) (reenable : Option Nat)
  /-- PWR_MODE_CHANGE_COMPLETE (R347). -/
  | pwrModeChangeComplete
  /-- MAIN_POWER_LOSS (R338). -/
  | mainPowerLoss
  deriving DecidableEq, Repr

end Sys2Proof
end

