-- ==== Sys2Proof/Machine/Bits.lean ====
section
/-! DEFINITION. Bit fields, lane sets, byte order and the codes of the fields of an instruction word (R3, R18, R73, R74, R99,
R107, R125, R126, R133). -/

namespace Sys2Proof.Machine

/-- Bits `lo + n - 1 : lo` of a number. -/
def bits (x lo n : Nat) : Nat := x / 2 ^ lo % 2 ^ n

/-- Bit `i` of a number. -/
def bitAt (x i : Nat) : Bool := x / 2 ^ i % 2 == 1

/-- A Boolean as 0 or 1. -/
def b2n (b : Bool) : Nat := if b then 1 else 0

/-- The signed value of the low `n` bits of `x`. -/
def signed (x n : Nat) : Int :=
  let y := x % 2 ^ n
  if y < 2 ^ (n - 1) then (y : Int) else (y : Int) - (2 ^ n : Nat)

/-- wrap(x, n) of R102. -/
def wrapI (x : Int) (n : Nat) : Nat := (x % ((2 ^ n : Nat) : Int)).toNat

/-- sat_i(x, n) of R102. -/
def satI (x : Int) (n : Nat) : Int :=
  let m : Int := ((2 ^ (n - 1) : Nat) : Int)
  if x < -m then -m else if m - 1 < x then m - 1 else x

/-- sat_n(x, n) of R102. -/
def satN (x : Int) (n : Nat) : Int :=
  let m : Int := ((2 ^ n : Nat) : Int)
  if x < 0 then 0 else if m - 1 < x then m - 1 else x

/-- popc of the low `n` bits of `x`. -/
def popcount : Nat → Nat → Nat
  | 0, _ => 0
  | n + 1, x => x % 2 + popcount n (x / 2)

/-- Leading zeros of the low `n` bits of `x`. -/
def leadingZeros : Nat → Nat → Nat
  | 0, _ => 0
  | n + 1, x => if bitAt x n then 0 else 1 + leadingZeros n x

/-- The bits of lanes below `w` set (R18, R19). -/
def maskBelow (w : Nat) : Mask := BitVec.ofNat 1024 (2 ^ w - 1)

/-- The mask of one lane. -/
def oneLane (i : Nat) : Mask := BitVec.ofNat 1024 (2 ^ i)

/-- The mask of the lanes of a list. -/
def maskOf (l : List Nat) : Mask := l.foldl (fun m i => m ||| oneLane i) 0

/-- The lanes below `w` of a mask, in ascending order. -/
def lanes (m : Mask) (w : Nat) : List Nat := (List.range w).filter (fun i => m.getLsbD i)

/-- Lanes set in a mask. -/
def maskCount (m : Mask) : Nat := popcount 1024 m.toNat

/-- The little-endian value of a list of bytes (R3). -/
def bytesToNat : List Byte → Nat
  | [] => 0
  | b :: r => b.toNat + 256 * bytesToNat r

/-- The `n` bytes of a number, lowest first (R3). -/
def natToBytes : Nat → Nat → List Byte
  | 0, _ => []
  | n + 1, x => BitVec.ofNat 8 x :: natToBytes n (x / 256)

/-- A little-endian field of a record. -/
def fld (l : List Byte) (o n : Nat) : Nat := bytesToNat ((l.drop o).take n)

/-- Replaces element `i` of a list. -/
def setAt {α : Type} : List α → Nat → α → List α
  | [], _, _ => []
  | _ :: r, 0, x => x :: r
  | y :: r, n + 1, x => y :: setAt r n x

/-- The position of the first element of a list that meets a test. -/
def indexOf? {α : Type} (p : α → Bool) : List α → Option Nat
  | [] => none
  | x :: r => if p x then some 0 else (indexOf? p r).map (· + 1)

/-- An association list read with a default. -/
def assoc {β : Type} (l : List (Nat × β)) (k : Nat) (d : β) : β :=
  match l with
  | [] => d
  | (a, b) :: r => if a == k then b else assoc r k d

/-- An association list in rising order with one entry set; an entry equal to `none` is removed. -/
def assocPut {β : Type} : List (Nat × β) → Nat → Option β → List (Nat × β)
  | [], k, some b => [(k, b)]
  | [], _, none => []
  | (a, b) :: r, k, x =>
    if a < k then (a, b) :: assocPut r k x
    else match x with
      | some y => if a = k then (k, y) :: r else (k, y) :: (a, b) :: r
      | none => if a = k then r else (a, b) :: r

/-- Guard codes (R125). -/
def guardOf : Nat → Option Guard
  | 0 => some .al | 1 => some .eq | 2 => some .ne | 3 => some .lt | 4 => some .ge | 5 => some .gt | 6 => some .le
  | 7 => some .ltn | 8 => some .gen | 9 => some .gtn | 10 => some .len | 11 => some .vs | 12 => some .vc | _ => none

/-- The code of a guard (R125). -/
def guardCode : Guard → Nat
  | .al => 0 | .eq => 1 | .ne => 2 | .lt => 3 | .ge => 4 | .gt => 5 | .le => 6 | .ltn => 7 | .gen => 8 | .gtn => 9
  | .len => 10 | .vs => 11 | .vc => 12

/-- Type codes (R99). -/
def tyOf : Nat → Option Ty
  | 0 => some .b32 | 1 => some .i32 | 2 => some .n32 | 3 => some .f32 | 4 => some .i16 | 5 => some .n16 | 6 => some .f16
  | 7 => some .bf16 | 8 => some .i8 | 9 => some .n8 | 10 => some .e4m3 | 11 => some .e5m2 | 12 => some .bp8
  | 13 => some .i64 | 14 => some .n64 | 15 => some .b64 | _ => none

/-- The code of a type (R99). -/
def tyCode : Ty → Nat
  | .b32 => 0 | .i32 => 1 | .n32 => 2 | .f32 => 3 | .i16 => 4 | .n16 => 5 | .f16 => 6 | .bf16 => 7 | .i8 => 8 | .n8 => 9
  | .e4m3 => 10 | .e5m2 => 11 | .bp8 => 12 | .i64 => 13 | .n64 => 14 | .b64 => 15

/-- The width of a type in bits (R99). -/
def tyWidth : Ty → Nat
  | .b32 | .i32 | .n32 | .f32 => 32
  | .i16 | .n16 | .f16 | .bf16 => 16
  | .i8 | .n8 | .e4m3 | .e5m2 | .bp8 => 8
  | .i64 | .n64 | .b64 => 64

/-- The size of a type in bytes. -/
def tySize (t : Ty) : Nat := tyWidth t / 8

/-- Signed integer types. -/
def tyIsI : Ty → Bool
  | .i8 | .i16 | .i32 | .i64 => true
  | _ => false

/-- Natural types. -/
def tyIsN : Ty → Bool
  | .n8 | .n16 | .n32 | .n64 => true
  | _ => false

/-- Untyped bits. -/
def tyIsB : Ty → Bool
  | .b32 | .b64 => true
  | _ => false

/-- Types that vector float arithmetic accepts (R99). -/
def tyIsF : Ty → Bool
  | .f32 | .f16 | .bf16 => true
  | _ => false

/-- Floating-point formats of R103. -/
def tyIsFloat : Ty → Bool
  | .f32 | .f16 | .bf16 | .e4m3 | .e5m2 => true
  | _ => false

/-- Signed, natural and untyped integer types. -/
def tyIsInt (t : Ty) : Bool := tyIsI t || tyIsN t || tyIsB t

/-- Special register indices (R128). -/
def spOf : Nat → Option SpReg
  | 64 => some .lane | 65 => some .wave | 66 => some .team | 67 => some .width | 68 => some .role | 69 => some .hzn
  | 70 => some .tag | 71 => some .scope | 72 => some .core | 73 => some .pair | 74 => some .cluster | 75 => some .asid
  | 76 => some .cc | 77 => some .mstall | 78 => some .bflag | 79 => some .clock | 80 => some .fault | _ => none

/-- The index of a special register (R128). -/
def spCode : SpReg → Nat
  | .lane => 64 | .wave => 65 | .team => 66 | .width => 67 | .role => 68 | .hzn => 69 | .tag => 70 | .scope => 71
  | .core => 72 | .pair => 73 | .cluster => 74 | .asid => 75 | .cc => 76 | .mstall => 77 | .bflag => 78 | .clock => 79
  | .fault => 80

/-- Rounding mode codes (R107). -/
def rmOf : Nat → Rm
  | 1 => .rz | 2 => .rd | 3 => .ru | _ => .rn

/-- The code of a rounding mode (R107). -/
def rmCode : Rm → Nat
  | .rn => 0 | .rz => 1 | .rd => 2 | .ru => 3

/-- Scope codes (R73). -/
def scpOf : Nat → Option Scp
  | 0 => some .w | 1 => some .t | 2 => some .c | 3 => some .d | 4 => some .f | 5 => some .s | _ => none

/-- The code of a scope (R73). -/
def scpCode : Scp → Nat
  | .w => 0 | .t => 1 | .c => 2 | .d => 3 | .f => 4 | .s => 5

/-- Order codes (R74). -/
def orderOf : Nat → Order
  | 1 => .acquire | 2 => .release | 3 => .acqRel | _ => .relaxed

/-- The code of an order (R74). -/
def orderCode : Order → Nat
  | .relaxed => 0 | .acquire => 1 | .release => 2 | .acqRel => 3

/-- Policy codes (R74). -/
def policyOf : Nat → Policy
  | 1 => .stream | 2 => .keep | 3 => .uncached | _ => .page

/-- The code of a policy (R74). -/
def policyCode : Policy → Nat
  | .page => 0 | .stream => 1 | .keep => 2 | .uncached => 3

/-- Atomic operation codes (R133). -/
def aopOf : Nat → Option Aop
  | 0 => some .add | 1 => some .fadd | 2 => some .min | 3 => some .max | 4 => some .fmin | 5 => some .fmax | 6 => some .and
  | 7 => some .or | 8 => some .xor | 9 => some .exch | _ => none

/-- The code of an atomic operation (R133). -/
def aopCode : Aop → Nat
  | .add => 0 | .fadd => 1 | .min => 2 | .max => 3 | .fmin => 4 | .fmax => 5 | .and => 6 | .or => 7 | .xor => 8 | .exch => 9

/-- An operand field (R126); `hasLit` is bit 59, which makes class 11 index 0x80 the literal (R131). -/
def operandOf (x : BitVec 10) (hasLit : Bool) : Option Operand :=
  let i := x.toNat % 256
  match x.toNat / 256 with
  | 0 => some (.v (BitVec.ofNat 8 i))
  | 1 => if i < 64 then some (.s (BitVec.ofNat 6 i)) else (spOf i).map .sp
  | 2 =>
    if 1 ≤ i ∧ i ≤ 3 then some (.x (BitVec.ofNat 2 i))
    else if 8 ≤ i ∧ i ≤ 11 then some (.q (BitVec.ofNat 2 i))
    else if 16 ≤ i ∧ i ≤ 31 then some (.h (BitVec.ofNat 4 i))
    else if 32 ≤ i ∧ i ≤ 127 then some (.k (BitVec.ofNat 7 (i - 32)))
    else if i = 128 then some .dead
    else none
  | _ => if i = 128 ∧ hasLit then some .lit else some (.imm (BitVec.ofNat 8 i))

/-- The ten bits of an operand (R126). -/
def operandCode : Operand → BitVec 10
  | .v n => BitVec.ofNat 10 n.toNat
  | .s n => BitVec.ofNat 10 (256 + n.toNat)
  | .sp r => BitVec.ofNat 10 (256 + spCode r)
  | .x d => BitVec.ofNat 10 (512 + d.toNat)
  | .q n => BitVec.ofNat 10 (512 + 8 + n.toNat)
  | .h n => BitVec.ofNat 10 (512 + 16 + n.toNat)
  | .k n => BitVec.ofNat 10 (512 + 32 + n.toNat)
  | .dead => BitVec.ofNat 10 (512 + 128)
  | .imm i => BitVec.ofNat 10 (768 + i.toNat)
  | .lit => BitVec.ofNat 10 (768 + 128)

end Sys2Proof.Machine
end

