-- ==== Sys2Proof/Machine/Entry.lean ====
section
/-! DEFINITION. What each entry of the instruction reference permits in the fields of its word (R99, R124, R126 to R133, R138,
R142 to R144, R174 to R176 and the entries): the encoding checks of R135 step 2 that need no state. -/

namespace Sys2Proof.Machine

/-- An unused operand field holds 0x000 (R124). -/
def unused (o : Operand) : Bool := o == .v 0

/-- Class v. -/
def isV : Operand → Bool
  | .v _ => true
  | _ => false

/-- Class s. -/
def isS : Operand → Bool
  | .s _ => true
  | _ => false

/-- Class sp: a special register other than %lane (R142, R143). -/
def isSp : Operand → Bool
  | .sp .lane => false
  | .sp _ => true
  | _ => false

/-- Class x (R129). -/
def isX : Operand → Bool
  | .x d => d != 0
  | _ => false

/-- Class q (R127). -/
def isQ : Operand → Bool
  | .q _ => true
  | _ => false

/-- Class h. -/
def isH : Operand → Bool
  | .h _ => true
  | _ => false

/-- Class k: k0 to k95 as data. -/
def isK : Operand → Bool
  | .k n => decide (n.toNat < 96)
  | _ => false

/-- A mask register that an instruction may write: not k0 (R19). -/
def isKd (o : Operand) : Bool := isK o && o != .k 0

/-- Class k or %dead as data. -/
def isKSrc (o : Operand) : Bool := isK o || o == .dead

/-- Class imm. -/
def isImm : Operand → Bool
  | .imm _ => true
  | _ => false

/-- Class lit. -/
def isLit (o : Operand) : Bool := o == .lit

/-- s or sp. -/
def isSSp (o : Operand) : Bool := isS o || isSp o

/-- s, sp or lit. -/
def isSSpLit (o : Operand) : Bool := isSSp o || isLit o

/-- s, imm or lit. -/
def isSImmLit (o : Operand) : Bool := isS o || isImm o || isLit o

/-- s, sp, imm or lit: the sources of the scalar group. -/
def isSSrc (o : Operand) : Bool := isSSp o || isImm o || isLit o

/-- A vector class: vector register, latch or queue (R221). -/
def isVec (o : Operand) : Bool := isV o || isX o || isQ o

/-- Any vector source: v, x, q, s, spv, imm, lit (R174). -/
def isSrc (o : Operand) : Bool := isVec o || isSSrc o || o == .sp .lane

/-- v or s. -/
def isVS (o : Operand) : Bool := isV o || isS o

/-- s, sp or the immediate 0. -/
def isSSpZ (o : Operand) : Bool := isSSp o || o == .imm 0

/-- The base of a memory operand: s, sp or h (R221). -/
def isBase (o : Operand) : Bool := isSSp o || isH o

/-- A memory index or the data of a store: v, x, q, s, sp, imm or lit (R221, R224). -/
def isIdx (o : Operand) : Bool := isVec o || isSSrc o

/-- Class a of access-slice code: class 01 with index 0 to 15 (R262). -/
def isA : Operand → Bool
  | .s n => decide (n.toNat < 16)
  | _ => false

/-- a, imm or lit (R265 to R267). -/
def isAImmLit (o : Operand) : Bool := isA o || isImm o || isLit o

/-- The number of literal operands in a list. -/
def litCount (l : List Operand) : Nat := l.countP isLit

/-- The literal rules of R131: with L set exactly one field names the literal and none holds the immediate -128, which would be
that same code; with L clear none names the literal. -/
def litOk (h : Hdr) (l : List Operand) : Bool :=
  match h.lit with
  | none => litCount l == 0
  | some _ => litCount l == 1 && l.all (fun o => o != .imm 0x80)

/-- No queue is named in two fields (R127). -/
def queuesOk (l : List Operand) : Bool := [0, 1, 2, 3].all (fun n => l.countP (fun o => o == .q n) ≤ 1)

/-- A 64-bit vector operand names an even register and is no queue (R100, R127, R175). -/
def even64 (t : Ty) (o : Operand) : Bool :=
  tyWidth t != 64 ||
  match o with
  | .v n => n.toNat % 2 == 0
  | .q _ => false
  | _ => true

/-- What an entry of the general layout permits. `fl` names the sources that take NEG and ABS, bit 0 for A. `lanes` says that
the entry has a lane set, `claims` that it may claim a dependence slot though it has none (R130, R142), `nwb` that it writes a register
and may be a latch producer. -/
structure GenSpec where
  dst : Operand → Bool := unused
  a : Operand → Bool := unused
  b : Operand → Bool := unused
  c : Operand → Bool := unused
  ty : Ty → Bool := fun t => t == .b32
  ty2 : Ty → Bool := fun t => t == .b32
  opx : Nat → Bool := fun x => x == 0
  lanes : Bool := false
  claims : Bool := false
  nwb : Bool := true
  sat : Ty → Bool := fun _ => false
  fl : BitVec 3 := 0
  nan : Ty → Bool := fun _ => false
  rm : GenW → Bool := fun _ => false
  more : GenW → Bool := fun _ => true

/-- The fields of a header that every entry limits alike: MSK names k0 to k95, and only an entry with a lane set uses it. -/
def hdrOk (h : Hdr) (hasLanes : Bool) : Bool := decide (h.msk.toNat < 96) && (hasLanes || h.msk == 0)

/-- The encoding checks of a general-layout word under its entry (R138). An instruction with no lane set claims no dependence slot, unless it
is a lazy reader or of the vector or matrix chapters (R130, R142, R174). DEDUCED (log 76). -/
def okGen (e : GenSpec) (w : GenW) : Bool :=
  let ops := [w.dst, w.a, w.b, w.c]
  hdrOk w.hdr e.lanes && e.dst w.dst && e.a w.a && e.b w.b && e.c w.c && e.ty w.hdr.typ && e.ty2 w.ty2
    && e.opx w.opx.toNat && (e.nwb || !w.hdr.nwb) && (!w.sat || e.sat w.hdr.typ)
    && (w.abs &&& ~~~ e.fl == 0) && (w.neg &&& ~~~ e.fl == 0) && (!w.nan || e.nan w.hdr.typ)
    && (w.rm == .rn || e.rm w) && (e.lanes || e.claims || w.hdr.dsc == 0) && litOk w.hdr ops && queuesOk ops && e.more w

/-- What an entry of the memory layout permits. -/
structure MemSpec where
  dst : Operand → Bool := unused
  b : Operand → Bool := isIdx
  c : Operand → Bool := unused
  ty : Ty → Bool := fun _ => true
  orders : List Order := [.relaxed]
  scopeOk : Scp → Bool := fun _ => true
  sx : Bool := true
  lanes : Bool := true
  more : MemW → Bool := fun _ => true

/-- The encoding checks of a memory-layout word under its entry. -/
def okMem (e : MemSpec) (w : MemW) : Bool :=
  let ops := [w.dst, w.a, w.b, w.c]
  hdrOk w.hdr e.lanes && e.dst w.dst && isBase w.a && e.b w.b && e.c w.c && e.ty w.hdr.typ && e.orders.contains w.order
    && e.scopeOk w.scope && (e.sx || !w.hdr.nwb) && litOk w.hdr ops && queuesOk ops && e.more w

/-- Whether a memory instruction takes its vector form (R221), from the operands that decide it. -/
def anyVec (l : List Operand) : Bool := l.any isVec

/-- The scalar form has no lane set, and no operand of it names a vector class (R221). DEDUCED for data operands (log 13). -/
def formOk (vec : Bool) (h : Hdr) (idx : List Operand) : Bool := vec || (h.msk == 0 && !anyVec idx)

/-- The types of the atomic operations (R226). -/
def atomTy (o : Aop) (t : Ty) : Bool :=
  match o with
  | .add | .min | .max => t == .i32 || t == .n32 || t == .i64 || t == .n64
  | .fadd | .fmin | .fmax => t == .f32
  | .and | .or | .xor => t == .b32 || t == .b64 || t == .i32 || t == .n32 || t == .i64 || t == .n64
  | .exch => t == .b32 || t == .b64 || t == .i32 || t == .n32 || t == .f32 || t == .i64 || t == .n64

/-- The encoding checks of ATOM and ATOMR (R226). -/
def okAtom (dst : Operand → Bool) (vec : AtomW → Bool) (w : AtomW) : Bool :=
  let ops := [w.dst, w.a, w.b, w.c]
  hdrOk w.hdr true && dst w.dst && isBase w.a && isIdx w.b && isIdx w.c && atomTy w.aop w.hdr.typ
    && formOk (vec w) w.hdr [w.b, w.c] && even64 w.hdr.typ w.dst && even64 w.hdr.typ w.c && litOk w.hdr ops && queuesOk ops

/-- Operands that may hold a peer id (R234). -/
def isPeer (o : Operand) : Bool := isSSrc o || isV o

/-- The data of PST, PSTS and PATOM: v, x, s, sp or lit (R234). -/
def isPeerData (o : Operand) : Bool := isV o || isX o || isSSp o || isLit o

/-- Peer instructions take only the scopes .f and .s (R234). -/
def peerScope (p : Scp) : Bool := p == .f || p == .s

/-- Whether a peer instruction takes its vector form: the destination or data, the peer or the index is a vector (R221, R234). -/
def peerVec (dst a c : Operand) (ret : Bool) : Bool := if ret then isV dst else anyVec [dst, a, c]

/-- The encoding checks of a remote-layout word (R235, R236). `ret` says that DST is written. -/
def okRem (ret : Bool) (orders : List Order) (stream : Bool) (w : RemW) : Bool :=
  let ops := [w.dst, w.a, w.b, w.c]
  hdrOk w.hdr true && (if ret then isVS w.dst else isPeerData w.dst) && isPeer w.a && isSSp w.b && isIdx w.c
    && orders.contains w.order && peerScope w.scope && (stream || w.stream == 0)
    && formOk (peerVec w.dst w.a w.c ret) w.hdr [w.a, w.c] && even64 w.hdr.typ w.dst && litOk w.hdr ops && queuesOk ops

/-- The encoding checks of PATOM and PATOMR (R237). -/
def okPatom (ret : Bool) (w : AtomW) : Bool :=
  let ops := [w.dst, w.a, w.b, w.c]
  hdrOk w.hdr true && (if ret then isVS w.dst else isPeerData w.dst) && isPeer w.a && isSSp w.b && isIdx w.c
    && atomTy w.aop w.hdr.typ && peerScope w.scope
    && formOk (peerVec w.dst w.a w.c ret) w.hdr [w.a, w.c] && even64 w.hdr.typ w.dst && litOk w.hdr ops && queuesOk ops

/-- The encoding checks of a branch-layout word: BKZ and BKNZ use MSK to name the register they test (R124, R147). -/
def okBr (dst a : Operand → Bool) (msk nwb : Bool) (w : BrW) : Bool :=
  hdrOk w.hdr msk && w.hdr.dsc == 0 && w.hdr.typ == .b32 && dst w.dst && a w.a && (nwb || !w.hdr.nwb) && litOk w.hdr [w.dst, w.a]

/-- No operand at all; NOP accepts only GRD and DSW (R145). -/
def specNop : GenSpec := { nwb := false }
/-- No operand. -/
def specNone : GenSpec := { nwb := false }
/-- RET and JMPI (R150). -/
def specJump : GenSpec := { a := isS, nwb := false }
/-- TRAP (R153). -/
def specTrap : GenSpec := { a := isSSrc, nwb := false }
/-- The selector of SRD (R156). -/
def srdSel (w : GenW) : Nat := match w.a with | .imm i => i.toNat | _ => 255
/-- SRD (R156): selectors 0 to 10, B used by 8 to 10 only. -/
def specSrd : GenSpec :=
  { dst := isS, a := isImm, b := fun o => unused o || isS o || isImm o,
    more := fun w => decide (srdSel w ≤ 10) && (unused w.b == decide (srdSel w < 8)) }
/-- SWR (R157). -/
def specSwr : GenSpec :=
  { dst := fun o => o == .sp .cc || o == .sp .mstall || o == .sp .bflag || o == .sp .fault, a := isSSrc }
/-- One scalar destination, no source. -/
def specDst : GenSpec := { dst := isS }
/-- DRAIN (R159). -/
def specDrain : GenSpec := { dst := isS, opx := fun x => decide (x ≤ 1) }
/-- TLBINV (R160). -/
def specTlbinv : GenSpec :=
  { a := isS, b := isSImmLit, c := fun o => unused o || isS o || isImm o, opx := fun x => decide (x ≤ 3), nwb := false,
    more := fun w => unused w.c == (w.opx != 2) }
/-- REPLAY (R161). -/
def specReplay : GenSpec := { dst := isS, a := isS }
/-- The id of a MARK, when it is one that R163 allows. A literal below 128, which elpas never writes and for which R163 names no fault, is an id:
the model's choice (log 108). -/
def markId (w : GenW) : Option Nat :=
  match w.a, w.hdr.lit with
  | .imm i, _ => if i.toNat < 128 then some i.toNat else none
  | .lit, some v => if v.toNat ≤ 4095 then some v.toNat else none
  | _, _ => none
/-- MARK (R163). -/
def specMark : GenSpec := { a := fun o => isImm o || isLit o, nwb := false, more := fun w => (markId w).isSome }
/-- Scalar operations with one source. -/
def specS1 (sat : Ty → Bool) : GenSpec := { dst := isS, a := isSSrc, ty := tyIsInt, sat := sat }
/-- Scalar operations with two sources (R164, R167, R169). -/
def specS2 (ty sat : Ty → Bool) : GenSpec := { dst := isS, a := isSSrc, b := isSSrc, ty := ty, sat := sat }
/-- Scalar operations with three sources (R164, R169). -/
def specS3 (sat : Ty → Bool) : GenSpec := { dst := isS, a := isSSrc, b := isSSrc, c := isSSrc, ty := tyIsInt, sat := sat }
/-- Types with signedness. -/
def tyIN (t : Ty) : Bool := tyIsI t || tyIsN t
/-- No type takes .sat. -/
def noSat (_ : Ty) : Bool := false
/-- SMOV (R166). -/
def specSmov : GenSpec := { dst := fun o => isS o || o == .sp .cc, a := isSSrc, ty := tyIsInt }
/-- SLI (R166). -/
def specSli : GenSpec := { dst := isS, a := isLit }
/-- SCMP and STST (R165). -/
def specCmp : GenSpec := { a := isSSrc, b := isSSrc, ty := tyIsInt, nwb := false }
/-- SSEL (R167). -/
def specSsel : GenSpec := { dst := isS, a := isSSrc, b := isSSrc, ty := tyIsInt, opx := fun x => decide (x ≤ 12) }
/-- KAND, KOR, KXOR and KANDN (R170). -/
def specK2 : GenSpec := { dst := isKd, a := isKSrc, b := isKSrc }
/-- KMOV (R170). -/
def specKmov : GenSpec := { dst := isKd, a := isKSrc }
/-- KSET (R171). -/
def specKset : GenSpec := { dst := isKd, a := isSSrc, b := isSSrc, opx := fun x => decide (x ≤ 1) }
/-- KGET (R172). -/
def specKget : GenSpec := { dst := isS, a := isKSrc, b := isSImmLit }
/-- KPOPC and KFIRST (R173). -/
def specKscan : GenSpec := { dst := isS, a := isKSrc }
/-- The even-register rule over the operands of a vector instruction whose operands all have its type. -/
def evenAll (w : GenW) : Bool :=
  even64 w.hdr.typ w.dst && even64 w.hdr.typ w.a && even64 w.hdr.typ w.b && even64 w.hdr.typ w.c
/-- Vector instructions with one source of the type. -/
def specV1 (ty sat : Ty → Bool) : GenSpec := { dst := isV, a := isSrc, ty := ty, sat := sat, lanes := true, more := evenAll }
/-- Vector instructions with two sources of the type. -/
def specV2 (ty sat : Ty → Bool) : GenSpec :=
  { dst := isV, a := isSrc, b := isSrc, ty := ty, sat := sat, lanes := true, more := evenAll }
/-- Vector instructions with three sources of the type. -/
def specV3 (ty sat : Ty → Bool) : GenSpec :=
  { dst := isV, a := isSrc, b := isSrc, c := isSrc, ty := ty, sat := sat, lanes := true, more := evenAll }
/-- VMOV takes every type but e4m3, e5m2 and bp8 (R178). -/
def tyVmov (t : Ty) : Bool := t != .e4m3 && t != .e5m2 && t != .bp8
/-- Integer types of widths 8 to 32. -/
def tyInt32 (t : Ty) : Bool := tyIsInt t && tyWidth t != 64
/-- Signed and natural types of widths 8 to 32. -/
def tyIN32 (t : Ty) : Bool := tyIN t && tyWidth t != 64
/-- Integer types of widths 32 and 64. -/
def tyWide (t : Ty) : Bool := tyIsInt t && decide (32 ≤ tyWidth t)
/-- b32 and b64. -/
def tyB (t : Ty) : Bool := tyIsB t
/-- i8 and n8. -/
def ty8 (t : Ty) : Bool := t == .i8 || t == .n8
/-- VDP4 (R182). -/
def specVdp4 : GenSpec := { specV3 ty8 ty8 with ty2 := ty8 }
/-- PRED of VCMP and VFCMP is 0 to 5 (R183). -/
def predOk (x : Nat) : Bool := decide (x % 8 ≤ 5)
/-- VCMP (R183). -/
def specVcmp : GenSpec :=
  { dst := isKd, a := isSrc, b := isSrc, ty := tyIsInt, lanes := true, opx := predOk,
    more := fun w => even64 w.hdr.typ w.a && even64 w.hdr.typ w.b
      && (!bitAt w.opx.toNat 3 || decide (tyWidth w.hdr.typ ≤ 16)) }
/-- VSEL (R184). -/
def specVsel : GenSpec := { dst := isV, a := isSrc, b := isSrc, c := isK, ty := tyB, lanes := true, more := evenAll }
/-- RM permitted whatever the word. -/
def rmAny (_ : GenW) : Bool := true
/-- Vector float arithmetic with one source (R187, R190). -/
def specF1 : GenSpec := { dst := isV, a := isSrc, ty := tyIsF, lanes := true, fl := 0b001, rm := rmAny }
/-- Vector float arithmetic with two sources (R185). -/
def specF2 : GenSpec := { dst := isV, a := isSrc, b := isSrc, ty := tyIsF, lanes := true, fl := 0b011, rm := rmAny }
/-- VFMA (R185). -/
def specF3 : GenSpec :=
  { dst := isV, a := isSrc, b := isSrc, c := isSrc, ty := tyIsF, lanes := true, fl := 0b111, rm := rmAny }
/-- VFMIN and VFMAX: RM must be 0 (R186). -/
def specFmm : GenSpec := { specF2 with rm := fun _ => false }
/-- VFCMP (R188). -/
def specVfcmp : GenSpec :=
  { dst := isKd, a := isSrc, b := isSrc, ty := tyIsF, lanes := true, fl := 0b011, opx := predOk,
    more := fun w => !bitAt w.opx.toNat 3 || tyWidth w.hdr.typ == 16 }
/-- VFCLASS (R189). -/
def specVfclass : GenSpec := { dst := isV, a := isSrc, ty := tyIsF, lanes := true }
/-- Targets that take .nan (R112). -/
def nanTy (t : Ty) : Bool := t == .f16 || t == .bf16 || t == .e4m3 || t == .e5m2
/-- A rounding modifier is refused on a narrow float or bp8 target (R112). -/
def rmCvt (w : GenW) : Bool := !(nanTy w.hdr.typ || w.hdr.typ == .bp8)
/-- Sub-elements of a type in a 32-bit lane. -/
def subs (t : Ty) : Nat := if tyWidth t ≤ 32 then 32 / tyWidth t else 1
/-- NEG and ABS of a conversion: its sources take them where they are of a float type (R176). -/
def signFree (w : GenW) : Bool := tyIsFloat w.ty2 || (w.abs == 0 && w.neg == 0)
/-- VCVT (R191). -/
def specVcvt : GenSpec :=
  { fl := 0b001, dst := isV, a := isSrc, ty := fun t => !tyIsB t, ty2 := fun t => !tyIsB t, opx := fun x => decide (x < 16), lanes := true,
    nan := nanTy, rm := rmCvt,
    more := fun w => w.hdr.typ != w.ty2 && decide (w.opx.toNat % 4 < subs w.ty2) && decide (w.opx.toNat / 4 < subs w.hdr.typ)
      && even64 w.hdr.typ w.dst && even64 w.ty2 w.a && signFree w }
/-- VPACK (R192). -/
def specVpack : GenSpec :=
  { fl := 0b011, dst := isV, a := isSrc, b := isSrc, ty := fun t => decide (tyWidth t ≤ 16), ty2 := fun t => t == .f32 || t == .i32 || t == .n32,
    opx := fun x => decide (x ≤ 1), lanes := true, nan := nanTy, rm := rmCvt,
    more := fun w => (w.opx == 0 || tyWidth w.hdr.typ == 8) && signFree w }
/-- VUNPK (R193). -/
def specVunpk : GenSpec :=
  { fl := 0b001, dst := fun o => isV o && even64 .b64 o, a := isSrc, ty := fun t => t == .f32 || t == .i32 || t == .n32,
    ty2 := fun t => decide (tyWidth t ≤ 16), opx := fun x => decide (x ≤ 1), lanes := true, rm := rmAny,
    more := fun w => (w.opx == 0 || tyWidth w.ty2 == 8) && signFree w }
/-- VSHUF (R195). -/
def specVshuf : GenSpec := specV2 tyB noSat
/-- VXSH (R196). -/
def specVxsh : GenSpec := { specV1 tyB noSat with b := isSImmLit, opx := fun x => decide (x ≤ 2) }
/-- VBCAST (R197). -/
def specVbcast : GenSpec := { specV1 tyB noSat with b := isSImmLit }
/-- The types and operations of VRED and VSCAN (R198). -/
def redOk (t : Ty) (op : Nat) : Bool :=
  match t with
  | .i32 | .i64 | .n32 | .n64 => decide (op ≤ 5)
  | .b32 | .b64 => decide (3 ≤ op) && decide (op ≤ 5)
  | .f32 => decide (op ≤ 2)
  | _ => false
/-- VRED and VSCAN (R198). -/
def specRed (dst : Operand → Bool) (excl : Bool) : GenSpec :=
  { dst := dst, a := isSrc, ty := fun t => decide (32 ≤ tyWidth t), lanes := true,
    opx := fun x => decide (x < (if excl then 16 else 8)),
    rm := fun w => w.hdr.typ == .f32 && w.opx.toNat % 8 == 0,
    more := fun w => redOk w.hdr.typ (w.opx.toNat % 8) && evenAll w }
/-- v, x or q. -/
def specVcomp : GenSpec := { dst := isV, a := isVec, b := isK, c := isS, ty := tyB, lanes := true, more := evenAll }
/-- VEXPD (R200). -/
def specVexpd : GenSpec := { dst := isV, a := isVec, b := isK, ty := tyB, lanes := true, more := evenAll }
/-- VAPND (R201). -/
def specVapnd : GenSpec := { dst := isV, a := isS, b := isK, c := isS, ty := fun t => t == .n32, lanes := true }
/-- VVOTE (R202). -/
def specVvote : GenSpec :=
  { dst := isS, a := fun o => isVec o || isK o, ty := tyB, lanes := true, opx := fun x => decide (x ≤ 2),
    more := fun w => evenAll w && (!isK w.a || w.hdr.typ == .b32) }
/-- VRAND (R204). -/
def specVrand : GenSpec := { dst := isV, lanes := true }
/-- VRSEED (R205). -/
def specVrseed : GenSpec := { a := isSSrc, b := isSSrc, claims := true, nwb := false }
/-- VSCA (R206). -/
def specVsca : GenSpec := { specF3 with opx := fun x => decide (x ≤ 5) }
/-- The formats of a bound register (R208). -/
def boundTy (t : Ty) : Bool :=
  t == .i32 || t == .n32 || t == .f32 || t == .i16 || t == .n16 || t == .f16 || t == .bf16 || t == .i8 || t == .n8
/-- BSET (R208). -/
def specBset : GenSpec :=
  { a := isSSrc, b := isSSrc, ty := boundTy, ty2 := fun t => decide (tyCode t ≤ 3), opx := fun x => decide (x < 16),
    claims := true, nwb := false }
/-- BMAP (R209). -/
def specBmap : GenSpec :=
  { a := isV, b := isSImmLit, opx := fun x => decide (x ≤ 16), claims := true, nwb := false }
/-- The shapes and types of MMA (R212). -/
def mmaTypes (shape : Nat) (ta tb : Ty) : Bool :=
  match shape with
  | 0 | 1 => (ta == .f16 || ta == .bf16) && tb == ta
  | 2 => ((ta == .e4m3 || ta == .e5m2) && (tb == .e4m3 || tb == .e5m2)) || (ty8 ta && ty8 tb)
  | 3 => (ta == .e4m3 || ta == .e5m2 || ta == .i8) && tb == .bp8
  | _ => false
/-- MMA (R214). -/
def specMma : GenSpec :=
  { dst := isV, a := isV, b := isV, c := isV, ty := fun _ => true, ty2 := fun _ => true, opx := fun x => decide (x ≤ 3),
    claims := true, nwb := false, more := fun w => mmaTypes w.opx.toNat w.hdr.typ w.ty2 }
/-- MSCA (R217). -/
def specMsca : GenSpec :=
  { dst := isV, a := isV, b := fun o => isV o || isSSrc o, c := fun o => isV o || isSSrc o, ty := fun t => t == .f32,
    opx := fun x => decide (x < 8), claims := true, nwb := false, fl := 0b111,
    more := fun w => !bitAt w.opx.toNat 2 || isV w.b }
/-- MTRN (R218). -/
def specMtrn : GenSpec := { dst := isV, a := isV, lanes := true, nwb := false }
/-- The types that some fragment role and shape has (R212, R219). -/
def fragTy (t : Ty) : Bool :=
  t == .f16 || t == .bf16 || t == .e4m3 || t == .e5m2 || t == .i8 || t == .n8 || t == .bp8 || t == .f32 || t == .i32
/-- MLDF (R220). -/
def specMldf : MemSpec :=
  { dst := isV, b := isSSpLit, ty := fragTy, orders := [.relaxed, .acquire], sx := false, lanes := false }
/-- MSTF (R220). -/
def specMstf : MemSpec :=
  { b := isSSpLit, c := isV, ty := fragTy, orders := [.relaxed, .release], sx := false, lanes := false }
/-- LD (R223). -/
def specLd : MemSpec :=
  { dst := isVS, orders := [.relaxed, .acquire],
    more := fun w => formOk (isV w.dst) w.hdr [w.b] && even64 w.hdr.typ w.dst }
/-- DST of ST and STB: 0x000, or 0x001 for .hr (R133). -/
def isHr (o : Operand) : Bool := o == .v 0 || o == .v 1
/-- ST (R224). -/
def specSt : MemSpec :=
  { dst := isHr, c := isIdx, orders := [.relaxed, .release],
    more := fun w => formOk (anyVec [w.b, w.c]) w.hdr [w.b, w.c] && even64 w.hdr.typ w.c }
/-- LDB (R225). -/
def specLdb : MemSpec := { dst := isV, orders := [.relaxed, .acquire], more := fun w => even64 w.hdr.typ w.dst }
/-- STB (R225). -/
def specStb : MemSpec := { dst := isHr, c := isV, orders := [.relaxed, .release], more := fun w => even64 w.hdr.typ w.c }
/-- CAS (R227). -/
def specCas : MemSpec :=
  { dst := isVS, c := isIdx, ty := fun t => tyWide t, orders := [.relaxed, .acquire, .release, .acqRel],
    more := fun w => formOk (isV w.dst) w.hdr [w.b, w.c] && even64 w.hdr.typ w.dst && even64 w.hdr.typ w.c }
/-- FENCE uses SCOPE only (R228). -/
def okFence (w : MemW) : Bool :=
  hdrOk w.hdr false && w.hdr.dsc == 0 && isS w.dst && unused w.a && unused w.b && unused w.c && w.hdr.typ == .b32 && !w.hdr.nwb
    && w.order == .relaxed && w.policy == .page && w.disp == 0 && w.hdr.lit.isNone
/-- PRF (R229). -/
def specPrf : MemSpec :=
  { scopeOk := fun p => p == .w, more := fun w => formOk (isVec w.b) w.hdr [w.b] }
/-- LDH (R230). -/
def specLdh : MemSpec :=
  { dst := isH, b := isSSrc, ty := fun t => t == .b64, orders := [.relaxed, .acquire], lanes := false }
/-- STH (R231). -/
def specSth : MemSpec :=
  { b := isSSrc, c := isH, ty := fun t => t == .b64, orders := [.relaxed, .release], lanes := false }
/-- HMOV (R232). -/
def specHmov : GenSpec :=
  { dst := fun o => isH o || isS o, a := fun o => isH o || isSSpLit o || o == .imm 0, opx := fun x => decide (x ≤ 2),
    more := fun w => match w.opx.toNat with
      | 0 => isH w.dst && (isH w.a || w.a == .imm 0)
      | 1 => isS w.dst && isH w.a
      | _ => isH w.dst && isSSpLit w.a }
/-- PIN and UNPIN (R233). -/
def specPin : GenSpec := { dst := isS, a := isH }
/-- UNPIN (R233). -/
def specUnpin : GenSpec := { a := isH, nwb := false }
/-- NGET and NATOM (R239). -/
def specNet : GenSpec := { a := isSSp, nwb := false }
/-- NPUT, a lazy reader (R130, R239). -/
def specNput : GenSpec := { specNet with claims := true }
/-- NFLUSH (R240). -/
def specNflush : GenSpec := { a := isSSrc, nwb := false }
/-- WREV (R241) and WAITB (R249). -/
def specWrev : GenSpec := { dst := isS, a := isSSrc }
/-- COPY: DST is read (R245). -/
def specCopy : GenSpec := { dst := isS, a := isSSp, b := isSSpZ, c := isSSpZ, claims := true, nwb := false }
/-- COPYM (R246). -/
def specCopym : GenSpec :=
  { dst := isSImmLit, a := isSSp, b := isSImmLit, c := isSSpZ, opx := fun _ => true, claims := true, nwb := false }
/-- CHAIN (R247). -/
def specChain : GenSpec := { a := isSSp, c := isSSpZ, claims := true, nwb := false }
/-- CADD (R250). -/
def specCadd : GenSpec :=
  { a := isSSp, b := isSSrc, ty := fun t => t == .n64, opx := fun x => decide (x ≤ 5), nwb := false }
/-- TRYW (R251). -/
def specTryw : GenSpec := { a := isSSp, b := isSSrc, c := isSImmLit, ty := fun t => t == .n64, nwb := false }
/-- SPAWN (R252). -/
def specSpawn : GenSpec := { dst := isS, a := isSSp }
/-- CSCOPE (R253). -/
def specCscope : GenSpec := { dst := isS, a := isSSpZ }
/-- CANCEL (R254). -/
def specCancel : GenSpec := { dst := isS, a := isSSpLit }
/-- KPOLL (R255). -/
def specKpoll : GenSpec := { dst := isS, a := fun o => isSSpLit o || o == .imm 0 }
/-- BARS and BARA (R257). -/
def specBar : GenSpec := { a := isSImmLit, b := isSImmLit, nwb := false }
/-- BARW, GIVE, CLAIM and WAITT (R257, R258, R260). -/
def specN : GenSpec := { a := isSImmLit, nwb := false }
/-- HWAIT (R259). -/
def specHwait : GenSpec := { a := isSSrc, nwb := false }
/-- ELECT (R261). -/
def specElect : GenSpec := { dst := isKd, lanes := true }
/-- Access-slice words: GRD, MSK, DSC and DSW are zero (R262). -/
def accessHdr (w : GenW) : Bool := w.hdr.grd == .al && w.hdr.dsc == 0 && w.hdr.dsw == 0
/-- ALOOP (R265). -/
def specAloop : GenSpec := { a := isAImmLit, nwb := false, more := accessHdr }
/-- AEND and AHALT (R265, R268). -/
def specAnone : GenSpec := { nwb := false, more := accessHdr }
/-- ALD and APF (R266). -/
def specAld (dst : Operand → Bool) : GenSpec :=
  { dst := dst, a := isA, b := isAImmLit, ty := fun t => decide (tyWidth t ≤ 32), opx := fun x => decide (x < 4), nwb := false,
    more := accessHdr }
/-- AADV (R267). -/
def specAadv : GenSpec := { dst := isA, b := isAImmLit, opx := fun x => decide (x ≤ 1), nwb := false, more := accessHdr }

/-- Whether the word of an instruction is a legal one under its entry (R138). An event has no word. -/
def legal : Instr → Bool
  | .nop w => okGen specNop w
  | .bra w => okBr unused unused false false w
  | .bkz w => okBr unused unused true false w
  | .bknz w => okBr unused unused true false w
  | .bhz w => okBr unused isSSp false false w
  | .call w => okBr isS unused false true w
  | .ret w => okGen specJump w
  | .jmpi w => okGen specJump w
  | .loop w => okBr isS isSSrc false true w
  | .endp w => okGen specNone w
  | .trap w => okGen specTrap w
  | .rft w => okGen specNone w
  | .yield w => okGen specNone w
  | .yieldExpiry .. => true
  | .srd w => okGen specSrd w
  | .swr w => okGen specSwr w
  | .haltctx w => okGen specDst w
  | .drain w => okGen specDrain w
  | .tlbinv w => okGen specTlbinv w
  | .replay w => okGen specReplay w
  | .nopre w => okGen specNone w
  | .pre w => okGen specNone w
  | .mark w => okGen specMark w
  | .smov w => okGen specSmov w
  | .sli w => okGen specSli w
  | .sadd w => okGen (specS2 tyIsInt tyIN) w
  | .ssub w => okGen (specS2 tyIsInt tyIN) w
  | .smul w => okGen (specS2 tyIsInt tyIN) w
  | .smulh w => okGen (specS2 tyIN noSat) w
  | .smad w => okGen (specS3 tyIN) w
  | .sdiv w => okGen (specS2 tyIN noSat) w
  | .srem w => okGen (specS2 tyIN noSat) w
  | .sand w => okGen (specS2 tyIsInt noSat) w
  | .sor w => okGen (specS2 tyIsInt noSat) w
  | .sxor w => okGen (specS2 tyIsInt noSat) w
  | .sshl w => okGen (specS2 tyIsInt noSat) w
  | .sshr w => okGen (specS2 tyIsInt noSat) w
  | .smin w => okGen (specS2 tyIN noSat) w
  | .smax w => okGen (specS2 tyIN noSat) w
  | .scmp w => okGen specCmp w
  | .stst w => okGen specCmp w
  | .ssel w => okGen specSsel w
  | .sclz w => okGen (specS1 noSat) w
  | .spopc w => okGen (specS1 noSat) w
  | .sbfe w => okGen (specS2 tyIsInt noSat) w
  | .sbfi w => okGen (specS3 noSat) w
  | .kand w => okGen specK2 w
  | .kor w => okGen specK2 w
  | .kxor w => okGen specK2 w
  | .kandn w => okGen specK2 w
  | .kmov w => okGen specKmov w
  | .kset w => okGen specKset w
  | .kget w => okGen specKget w
  | .kpopc w => okGen specKscan w
  | .kfirst w => okGen specKscan w
  | .vmov w => okGen (specV1 tyVmov noSat) w
  | .vadd w => okGen (specV2 tyIsInt tyIN) w
  | .vsub w => okGen (specV2 tyIsInt tyIN) w
  | .vmul w => okGen (specV2 tyInt32 tyIN) w
  | .vmulh w => okGen (specV2 tyIN32 noSat) w
  | .vmad w => okGen (specV3 tyInt32 tyIN) w
  | .vand w => okGen (specV2 tyIsInt noSat) w
  | .vor w => okGen (specV2 tyIsInt noSat) w
  | .vxor w => okGen (specV2 tyIsInt noSat) w
  | .vshl w => okGen (specV2 tyIsInt noSat) w
  | .vshr w => okGen (specV2 tyIsInt noSat) w
  | .vmin w => okGen (specV2 tyIN noSat) w
  | .vmax w => okGen (specV2 tyIN noSat) w
  | .vabs w => okGen (specV1 tyIsI tyIsI) w
  | .vcmp w => okGen specVcmp w
  | .vsel w => okGen specVsel w
  | .vclz w => okGen (specV1 tyIsInt noSat) w
  | .vpopc w => okGen (specV1 tyIsInt noSat) w
  | .vbfe w => okGen (specV2 tyWide noSat) w
  | .vbfi w => okGen (specV3 tyWide noSat) w
  | .vdp4 w => okGen specVdp4 w
  | .vfadd w => okGen specF2 w
  | .vfsub w => okGen specF2 w
  | .vfmul w => okGen specF2 w
  | .vfma w => okGen specF3 w
  | .vfmin w => okGen specFmm w
  | .vfmax w => okGen specFmm w
  | .vfcmp w => okGen specVfcmp w
  | .vfclass w => okGen specVfclass w
  | .vrcp w => okGen specF1 w
  | .vrsq w => okGen specF1 w
  | .vsqrt w => okGen specF1 w
  | .vdiv w => okGen specF2 w
  | .vexp2 w => okGen specF1 w
  | .vlog2 w => okGen specF1 w
  | .vcvt w => okGen specVcvt w
  | .vfrnd w => okGen specF1 w
  | .vpack w => okGen specVpack w
  | .vunpk w => okGen specVunpk w
  | .vshuf w => okGen specVshuf w
  | .vxsh w => okGen specVxsh w
  | .vbcast w => okGen specVbcast w
  | .vred w => okGen (specRed isS false) w
  | .vscan w => okGen (specRed isV true) w
  | .vcomp w => okGen specVcomp w
  | .vexpd w => okGen specVexpd w
  | .vapnd w => okGen specVapnd w
  | .vvote w => okGen specVvote w
  | .vrand w => okGen specVrand w
  | .vrseed w => okGen specVrseed w
  | .vsca w => okGen specVsca w
  | .bset w => okGen specBset w
  | .bmap w => okGen specBmap w
  | .mma w => okGen specMma w
  | .mmaRetire .. => true
  | .msca w => okGen specMsca w
  | .mtrn w => okGen specMtrn w
  | .mldf w => okMem specMldf w
  | .mstf w => okMem specMstf w
  | .ld w => okMem specLd w
  | .st w => okMem specSt w
  | .ldb w => okMem specLdb w
  | .stb w => okMem specStb w
  | .atom w => okAtom unused (fun w => anyVec [w.b, w.c]) w
  | .atomr w => okAtom isVS (fun w => isV w.dst) w
  | .cas w => okMem specCas w
  | .fence w => okFence w
  | .prf w => okMem specPrf w
  | .ldh w => okMem specLdh w
  | .sth w => okMem specSth w
  | .hmov w => okGen specHmov w
  | .pin w => okGen specPin w
  | .unpin w => okGen specUnpin w
  | .pld w => okRem true [.relaxed, .acquire] false w
  | .pst w => okRem false [.relaxed, .release] false w
  | .psts w => okRem false [.relaxed, .release] true w
  | .patom w => okPatom false w
  | .patomr w => okPatom true w
  | .nput w => okGen specNput w
  | .nget w => okGen specNet w
  | .natom w => okGen specNet w
  | .nflush w => okGen specNflush w
  | .wrev w => okGen specWrev w
  | .copy w => okGen specCopy w
  | .copym w => okGen specCopym w
  | .chain w => okGen specChain w
  | .close w => okGen specDst w
  | .waitb w => okGen specWrev w
  | .cadd w => okGen specCadd w
  | .tryw w => okGen specTryw w
  | .trywPeriodicRead .. => true
  | .trywLimitExpiry .. => true
  | .spawn w => okGen specSpawn w
  | .taskAccept .. => true
  | .cscope w => okGen specCscope w
  | .cancel w => okGen specCancel w
  | .kpoll w => okGen specKpoll w
  | .bars w => okGen specBar w
  | .bara w => okGen specBar w
  | .barw w => okGen specN w
  | .give w => okGen specN w
  | .giveRelease .. => true
  | .claim w => okGen specN w
  | .hwait w => okGen specHwait w
  | .waitt w => okGen specN w
  | .elect w => okGen specElect w
  | .aloop w => okGen specAloop w
  | .aend w => okGen specAnone w
  | .ald w => okGen (specAld isQ) w
  | .apf w => okGen (specAld unused) w
  | .aadv w => okGen specAadv w
  | .ahalt w => okGen specAnone w
  | .waveKill .. => true
  | .waveRetire .. => true
  | .waveStateMachineCheck .. => true
  | .scopeQuiesceAck .. => true
  | .slipResolve .. => true
  | .trapDelivery .. => true
  | .faultRecordWrite .. => true
  | .nopreOverrun .. => true
  | .preemption .. => true
  | .teamRestore .. => true
  | .binderyBatchStart .. => true
  | .binderyDrainDone .. => true
  | .binderyBatchDone .. => true
  | .bdyDoorbell .. => true
  | .pstsResync .. => true
  | .engineOpStart .. => true
  | .engineChunk .. => true
  | .engineOpComplete .. => true
  | .engineOpAbort .. => true
  | .lqDoorbell .. => true
  | .launchPacketRead .. => true
  | .launchPending .. => true
  | .teamPlacement => true
  | .gridEnd .. => true
  | .contextEndInterrupt .. => true
  | .ctxEnd .. => true
  | .governorWindow => true
  | .coreHotMark .. => true
  | .coreDroop .. => true
  | .priPageRequest .. => true
  | .priResponse .. => true
  | .atsInvalidateRequest .. => true
  | .fabCtlEn => true
  | .fabricJoin .. => true
  | .fabricPeerUpdate .. => true
  | .planeDown .. => true
  | .flitLinkRetry .. => true
  | .fabricWritePacket .. => true
  | .fabricReadPacket .. => true
  | .fabricAtomicPacket .. => true
  | .fabricAck .. => true
  | .fabricNak .. => true
  | .fabricResponse .. => true
  | .fabricRtoExpiry .. => true
  | .fabricTmoExpiry .. => true
  | .netPacketArrival .. => true
  | .netContextFetchDone .. => true
  | .netAck .. => true
  | .netNak .. => true
  | .netParkResend .. => true
  | .netRetransmitTimeout .. => true
  | .arrayUncorrectableError .. => true
  | .arrayCorrectedError .. => true
  | .selfTestComplete .. => true
  | .rangeLockEntryError .. => true
  | .infieldTestDue .. => true
  | .infieldTestEnd .. => true
  | .watchdogFire .. => true
  | .xbarCommitPrepare .. => true
  | .xbarSwap => true
  | .mpWatchdogReset => true
  | .latencyWindowEnd => true
  | .securityAlarm .. => true
  | .firmwareImageVerify .. => true
  | .pwrMode .. => true
  | .errStatusClear .. => true
  | .powerOn .. => true
  | .registerWrite .. => true
  | .hostBarAccess .. => true
  | .fabricPlaneUp .. => true
  | .fabricPacketSend .. => true
  | .mmaLeavesArray .. => true
  | .atsTranslationResponse .. => true
  | .priCapabilityWrite .. => true
  | .pwrModeChangeComplete => true
  | .mainPowerLoss => true

end Sys2Proof.Machine
end

