-- ==== Sys2Proof/WellFormed.lean ====
section
/-! DEFINITION. Which terms of `Instr` are instructions of the FK-9630: those whose fields their entry permits. -/

namespace Sys2Proof

/-- An instruction is well formed when its word is a legal one (R138); every event is. -/
def Instr.wellFormed (i : Instr) : Bool := Machine.legal i

end Sys2Proof
end

