-- ==== Sys2Proof/Decode.lean ====
section
/-! DEFINITION. The decoder of 96-bit instruction words, total on any bits, and the encoder, both written from R124, R126, R131,
R133 and the opcode map R136. A word that is no legal instruction decodes to nothing, and the step raises 0x01 for it (R138). -/

namespace Sys2Proof

open Machine

/-- The fields of an instruction word (R124). -/
structure Raw where
  opc : BitVec 10
  grd : BitVec 4
  msk : BitVec 7
  typ : BitVec 4
  dsc : BitVec 3
  dsw : BitVec 7
  nwb : BitVec 1
  hasLit : BitVec 1
  dst : BitVec 10
  a : BitVec 10
  b : BitVec 10
  c : BitVec 10
  mod : BitVec 19
  deriving DecidableEq, Repr

/-- The fields of a word (R124). -/
def unpack (w : W96) : Raw :=
  { opc := w.extractLsb' 86 10, grd := w.extractLsb' 82 4, msk := w.extractLsb' 75 7, typ := w.extractLsb' 71 4,
    dsc := w.extractLsb' 68 3, dsw := w.extractLsb' 61 7, nwb := w.extractLsb' 60 1, hasLit := w.extractLsb' 59 1,
    dst := w.extractLsb' 49 10, a := w.extractLsb' 39 10, b := w.extractLsb' 29 10, c := w.extractLsb' 19 10,
    mod := w.extractLsb' 0 19 }

/-- The word of its fields (R124). -/
def pack (r : Raw) : W96 :=
  (r.opc ++ r.grd ++ r.msk ++ r.typ ++ r.dsc ++ r.dsw ++ r.nwb ++ r.hasLit ++ r.dst ++ r.a ++ r.b ++ r.c ++ r.mod).cast (by decide)

/-- The fields common to every layout; reserved guard codes are refused (R125, R138). -/
def hdrOf (r : Raw) (lit : Option W64) : Option Hdr :=
  match guardOf r.grd.toNat, tyOf r.typ.toNat with
  | some g, some t => some { grd := g, msk := r.msk, typ := t, dsc := r.dsc, dsw := r.dsw, nwb := r.nwb == 1, lit := lit }
  | _, _ => none

/-- The general layout (R133). -/
def genOf (k : GenW → Instr) (r : Raw) (lit : Option W64) : Option Instr :=
  match hdrOf r lit, operandOf r.dst lit.isSome, operandOf r.a lit.isSome, operandOf r.b lit.isSome, operandOf r.c lit.isSome,
    tyOf (r.mod.extractLsb' 10 4).toNat with
  | some h, some d, some a, some b, some c, some t2 =>
    some (k { hdr := h, dst := d, a := a, b := b, c := c, opx := r.mod.extractLsb' 14 5, ty2 := t2, sat := r.mod.getLsbD 9,
              abs := r.mod.extractLsb' 6 3, neg := r.mod.extractLsb' 3 3, nan := r.mod.getLsbD 2,
              rm := rmOf (r.mod.extractLsb' 0 2).toNat })
  | _, _, _, _, _, _ => none

/-- The memory layout (R133); reserved scopes are refused (R73). -/
def memOf (k : MemW → Instr) (r : Raw) (lit : Option W64) : Option Instr :=
  match hdrOf r lit, operandOf r.dst lit.isSome, operandOf r.a lit.isSome, operandOf r.b lit.isSome, operandOf r.c lit.isSome,
    scpOf (r.mod.extractLsb' 16 3).toNat with
  | some h, some d, some a, some b, some c, some sr =>
    some (k { hdr := h, dst := d, a := a, b := b, c := c, scope := sr, order := orderOf (r.mod.extractLsb' 14 2).toNat,
              policy := policyOf (r.mod.extractLsb' 12 2).toNat, disp := r.mod.extractLsb' 0 12 })
  | _, _, _, _, _, _ => none

/-- The atomic layout (R133); reserved operations are refused. -/
def atomOf (k : AtomW → Instr) (r : Raw) (lit : Option W64) : Option Instr :=
  match hdrOf r lit, operandOf r.dst lit.isSome, operandOf r.a lit.isSome, operandOf r.b lit.isSome, operandOf r.c lit.isSome,
    scpOf (r.mod.extractLsb' 16 3).toNat, aopOf (r.mod.extractLsb' 8 4).toNat with
  | some h, some d, some a, some b, some c, some sr, some o =>
    some (k { hdr := h, dst := d, a := a, b := b, c := c, scope := sr, order := orderOf (r.mod.extractLsb' 14 2).toNat,
              policy := policyOf (r.mod.extractLsb' 12 2).toNat, aop := o, disp := r.mod.extractLsb' 0 8 })
  | _, _, _, _, _, _, _ => none

/-- The remote layout (R133). -/
def remOf (k : RemW → Instr) (r : Raw) (lit : Option W64) : Option Instr :=
  match hdrOf r lit, operandOf r.dst lit.isSome, operandOf r.a lit.isSome, operandOf r.b lit.isSome, operandOf r.c lit.isSome,
    scpOf (r.mod.extractLsb' 16 3).toNat with
  | some h, some d, some a, some b, some c, some sr =>
    some (k { hdr := h, dst := d, a := a, b := b, c := c, scope := sr, order := orderOf (r.mod.extractLsb' 14 2).toNat,
              policy := policyOf (r.mod.extractLsb' 12 2).toNat, stream := r.mod.extractLsb' 6 6, disp := r.mod.extractLsb' 0 6 })
  | _, _, _, _, _, _ => none

/-- The branch layout: bits 38:0 are OFFSET (R133). -/
def brOf (k : BrW → Instr) (r : Raw) (lit : Option W64) : Option Instr :=
  match hdrOf r lit, operandOf r.dst lit.isSome, operandOf r.a lit.isSome with
  | some h, some d, some a => some (k { hdr := h, dst := d, a := a, offset := (r.b ++ r.c ++ r.mod).cast (by decide) })
  | _, _, _ => none

/-- The opcode map (R136), each opcode with its layout (R132). -/
def ofRaw (r : Raw) (lit : Option W64) : Option Instr :=
  match r.opc.toNat with
  | 0x000 => genOf .nop r lit
  | 0x001 => brOf .bra r lit
  | 0x002 => brOf .bkz r lit
  | 0x003 => brOf .bknz r lit
  | 0x004 => brOf .bhz r lit
  | 0x005 => brOf .call r lit
  | 0x006 => genOf .ret r lit
  | 0x007 => genOf .jmpi r lit
  | 0x008 => brOf .loop r lit
  | 0x009 => genOf .endp r lit
  | 0x00A => genOf .trap r lit
  | 0x00B => genOf .rft r lit
  | 0x00C => genOf .yield r lit
  | 0x00D => genOf .srd r lit
  | 0x00E => genOf .swr r lit
  | 0x00F => genOf .haltctx r lit
  | 0x010 => genOf .drain r lit
  | 0x011 => genOf .tlbinv r lit
  | 0x012 => genOf .replay r lit
  | 0x013 => genOf .nopre r lit
  | 0x014 => genOf .pre r lit
  | 0x015 => genOf .mark r lit
  | 0x040 => genOf .smov r lit
  | 0x041 => genOf .sli r lit
  | 0x042 => genOf .sadd r lit
  | 0x043 => genOf .ssub r lit
  | 0x044 => genOf .smul r lit
  | 0x045 => genOf .smulh r lit
  | 0x046 => genOf .smad r lit
  | 0x047 => genOf .sdiv r lit
  | 0x048 => genOf .srem r lit
  | 0x049 => genOf .sand r lit
  | 0x04A => genOf .sor r lit
  | 0x04B => genOf .sxor r lit
  | 0x04C => genOf .sshl r lit
  | 0x04D => genOf .sshr r lit
  | 0x04E => genOf .smin r lit
  | 0x04F => genOf .smax r lit
  | 0x050 => genOf .scmp r lit
  | 0x051 => genOf .stst r lit
  | 0x052 => genOf .ssel r lit
  | 0x053 => genOf .sclz r lit
  | 0x054 => genOf .spopc r lit
  | 0x055 => genOf .sbfe r lit
  | 0x056 => genOf .sbfi r lit
  | 0x080 => genOf .kand r lit
  | 0x081 => genOf .kor r lit
  | 0x082 => genOf .kxor r lit
  | 0x083 => genOf .kandn r lit
  | 0x084 => genOf .kmov r lit
  | 0x085 => genOf .kset r lit
  | 0x086 => genOf .kget r lit
  | 0x087 => genOf .kpopc r lit
  | 0x088 => genOf .kfirst r lit
  | 0x0A0 => genOf .vmov r lit
  | 0x0A1 => genOf .vadd r lit
  | 0x0A2 => genOf .vsub r lit
  | 0x0A3 => genOf .vmul r lit
  | 0x0A4 => genOf .vmulh r lit
  | 0x0A5 => genOf .vmad r lit
  | 0x0A6 => genOf .vand r lit
  | 0x0A7 => genOf .vor r lit
  | 0x0A8 => genOf .vxor r lit
  | 0x0A9 => genOf .vshl r lit
  | 0x0AA => genOf .vshr r lit
  | 0x0AB => genOf .vmin r lit
  | 0x0AC => genOf .vmax r lit
  | 0x0AD => genOf .vabs r lit
  | 0x0AE => genOf .vcmp r lit
  | 0x0AF => genOf .vsel r lit
  | 0x0B0 => genOf .vclz r lit
  | 0x0B1 => genOf .vpopc r lit
  | 0x0B2 => genOf .vbfe r lit
  | 0x0B3 => genOf .vbfi r lit
  | 0x0B4 => genOf .vdp4 r lit
  | 0x100 => genOf .vfadd r lit
  | 0x101 => genOf .vfsub r lit
  | 0x102 => genOf .vfmul r lit
  | 0x103 => genOf .vfma r lit
  | 0x104 => genOf .vfmin r lit
  | 0x105 => genOf .vfmax r lit
  | 0x106 => genOf .vfcmp r lit
  | 0x107 => genOf .vfclass r lit
  | 0x108 => genOf .vrcp r lit
  | 0x109 => genOf .vrsq r lit
  | 0x10A => genOf .vsqrt r lit
  | 0x10B => genOf .vdiv r lit
  | 0x10C => genOf .vexp2 r lit
  | 0x10D => genOf .vlog2 r lit
  | 0x10E => genOf .vcvt r lit
  | 0x10F => genOf .vfrnd r lit
  | 0x110 => genOf .vpack r lit
  | 0x111 => genOf .vunpk r lit
  | 0x160 => genOf .vshuf r lit
  | 0x161 => genOf .vxsh r lit
  | 0x162 => genOf .vbcast r lit
  | 0x163 => genOf .vred r lit
  | 0x164 => genOf .vscan r lit
  | 0x165 => genOf .vcomp r lit
  | 0x166 => genOf .vexpd r lit
  | 0x167 => genOf .vapnd r lit
  | 0x168 => genOf .vvote r lit
  | 0x169 => genOf .vrand r lit
  | 0x16A => genOf .vrseed r lit
  | 0x16B => genOf .vsca r lit
  | 0x16C => genOf .bset r lit
  | 0x16D => genOf .bmap r lit
  | 0x1A0 => genOf .mma r lit
  | 0x1A1 => genOf .msca r lit
  | 0x1A2 => genOf .mtrn r lit
  | 0x1A3 => memOf .mldf r lit
  | 0x1A4 => memOf .mstf r lit
  | 0x1C0 => memOf .ld r lit
  | 0x1C1 => memOf .st r lit
  | 0x1C2 => memOf .ldb r lit
  | 0x1C3 => memOf .stb r lit
  | 0x1C4 => atomOf .atom r lit
  | 0x1C5 => atomOf .atomr r lit
  | 0x1C6 => memOf .cas r lit
  | 0x1C7 => memOf .fence r lit
  | 0x1C8 => memOf .prf r lit
  | 0x1C9 => memOf .ldh r lit
  | 0x1CA => memOf .sth r lit
  | 0x1CB => genOf .hmov r lit
  | 0x1CC => genOf .pin r lit
  | 0x1CD => genOf .unpin r lit
  | 0x240 => remOf .pld r lit
  | 0x241 => remOf .pst r lit
  | 0x242 => remOf .psts r lit
  | 0x243 => atomOf .patom r lit
  | 0x244 => atomOf .patomr r lit
  | 0x245 => genOf .nput r lit
  | 0x246 => genOf .nget r lit
  | 0x247 => genOf .natom r lit
  | 0x248 => genOf .nflush r lit
  | 0x249 => genOf .wrev r lit
  | 0x280 => genOf .copy r lit
  | 0x281 => genOf .copym r lit
  | 0x282 => genOf .chain r lit
  | 0x283 => genOf .close r lit
  | 0x284 => genOf .waitb r lit
  | 0x285 => genOf .cadd r lit
  | 0x286 => genOf .tryw r lit
  | 0x2C0 => genOf .spawn r lit
  | 0x2C1 => genOf .cscope r lit
  | 0x2C2 => genOf .cancel r lit
  | 0x2C3 => genOf .kpoll r lit
  | 0x2C4 => genOf .bars r lit
  | 0x2C5 => genOf .bara r lit
  | 0x2C6 => genOf .barw r lit
  | 0x2C7 => genOf .give r lit
  | 0x2C8 => genOf .claim r lit
  | 0x2C9 => genOf .hwait r lit
  | 0x2CA => genOf .waitt r lit
  | 0x2CB => genOf .elect r lit
  | 0x300 => genOf .aloop r lit
  | 0x301 => genOf .aend r lit
  | 0x302 => genOf .ald r lit
  | 0x303 => genOf .apf r lit
  | 0x304 => genOf .aadv r lit
  | 0x305 => genOf .ahalt r lit
  | _ => none

/-- The instruction of a word, with the value of the slot after it as its literal when L is set (R131): legal ones only. -/
def decode (w : W96) (next : Option W96) : Option Instr :=
  let r := unpack w
  let ins := if r.hasLit == 1 then
      match next with
      | some n => ofRaw r (some (n.extractLsb' 0 64))
      | none => none
    else ofRaw r none
  match ins with
  | some i => if i.wellFormed then some i else none
  | none => none

/-- The header fields of a word. -/
def rawHdr (opc : Nat) (h : Hdr) (dst a : Operand) : Raw :=
  { opc := BitVec.ofNat 10 opc, grd := BitVec.ofNat 4 (guardCode h.grd), msk := h.msk, typ := BitVec.ofNat 4 (tyCode h.typ),
    dsc := h.dsc, dsw := h.dsw, nwb := BitVec.ofBool h.nwb, hasLit := BitVec.ofBool h.lit.isSome, dst := operandCode dst,
    a := operandCode a, b := 0, c := 0, mod := 0 }

/-- The general layout. -/
def rawGen (opc : Nat) (w : GenW) : Raw :=
  { rawHdr opc w.hdr w.dst w.a with
    b := operandCode w.b, c := operandCode w.c,
    mod := w.opx ++ BitVec.ofNat 4 (tyCode w.ty2) ++ BitVec.ofBool w.sat ++ w.abs ++ w.neg ++ BitVec.ofBool w.nan
      ++ BitVec.ofNat 2 (rmCode w.rm) }

/-- SCOPE, ORDER and POLICY of the memory-class layouts. -/
def rawSop (sc : Scp) (o : Order) (p : Policy) : BitVec 7 :=
  BitVec.ofNat 3 (scpCode sc) ++ BitVec.ofNat 2 (orderCode o) ++ BitVec.ofNat 2 (policyCode p)

/-- The memory layout. -/
def rawMem (opc : Nat) (w : MemW) : Raw :=
  { rawHdr opc w.hdr w.dst w.a with
    b := operandCode w.b, c := operandCode w.c, mod := rawSop w.scope w.order w.policy ++ w.disp }

/-- The atomic layout. -/
def rawAtom (opc : Nat) (w : AtomW) : Raw :=
  { rawHdr opc w.hdr w.dst w.a with
    b := operandCode w.b, c := operandCode w.c,
    mod := rawSop w.scope w.order w.policy ++ BitVec.ofNat 4 (aopCode w.aop) ++ w.disp }

/-- The remote layout. -/
def rawRem (opc : Nat) (w : RemW) : Raw :=
  { rawHdr opc w.hdr w.dst w.a with
    b := operandCode w.b, c := operandCode w.c, mod := rawSop w.scope w.order w.policy ++ w.stream ++ w.disp }

/-- The branch layout. -/
def rawBr (opc : Nat) (w : BrW) : Raw :=
  { rawHdr opc w.hdr w.dst w.a with
    b := w.offset.extractLsb' 29 10, c := w.offset.extractLsb' 19 10, mod := w.offset.extractLsb' 0 19 }

/-- The fields of an instruction's word; an event has none. -/
def rawOf : Instr → Option Raw
  | .nop w => some (rawGen 0x000 w)
  | .bra w => some (rawBr 0x001 w)
  | .bkz w => some (rawBr 0x002 w)
  | .bknz w => some (rawBr 0x003 w)
  | .bhz w => some (rawBr 0x004 w)
  | .call w => some (rawBr 0x005 w)
  | .ret w => some (rawGen 0x006 w)
  | .jmpi w => some (rawGen 0x007 w)
  | .loop w => some (rawBr 0x008 w)
  | .endp w => some (rawGen 0x009 w)
  | .trap w => some (rawGen 0x00A w)
  | .rft w => some (rawGen 0x00B w)
  | .yield w => some (rawGen 0x00C w)
  | .srd w => some (rawGen 0x00D w)
  | .swr w => some (rawGen 0x00E w)
  | .haltctx w => some (rawGen 0x00F w)
  | .drain w => some (rawGen 0x010 w)
  | .tlbinv w => some (rawGen 0x011 w)
  | .replay w => some (rawGen 0x012 w)
  | .nopre w => some (rawGen 0x013 w)
  | .pre w => some (rawGen 0x014 w)
  | .mark w => some (rawGen 0x015 w)
  | .smov w => some (rawGen 0x040 w)
  | .sli w => some (rawGen 0x041 w)
  | .sadd w => some (rawGen 0x042 w)
  | .ssub w => some (rawGen 0x043 w)
  | .smul w => some (rawGen 0x044 w)
  | .smulh w => some (rawGen 0x045 w)
  | .smad w => some (rawGen 0x046 w)
  | .sdiv w => some (rawGen 0x047 w)
  | .srem w => some (rawGen 0x048 w)
  | .sand w => some (rawGen 0x049 w)
  | .sor w => some (rawGen 0x04A w)
  | .sxor w => some (rawGen 0x04B w)
  | .sshl w => some (rawGen 0x04C w)
  | .sshr w => some (rawGen 0x04D w)
  | .smin w => some (rawGen 0x04E w)
  | .smax w => some (rawGen 0x04F w)
  | .scmp w => some (rawGen 0x050 w)
  | .stst w => some (rawGen 0x051 w)
  | .ssel w => some (rawGen 0x052 w)
  | .sclz w => some (rawGen 0x053 w)
  | .spopc w => some (rawGen 0x054 w)
  | .sbfe w => some (rawGen 0x055 w)
  | .sbfi w => some (rawGen 0x056 w)
  | .kand w => some (rawGen 0x080 w)
  | .kor w => some (rawGen 0x081 w)
  | .kxor w => some (rawGen 0x082 w)
  | .kandn w => some (rawGen 0x083 w)
  | .kmov w => some (rawGen 0x084 w)
  | .kset w => some (rawGen 0x085 w)
  | .kget w => some (rawGen 0x086 w)
  | .kpopc w => some (rawGen 0x087 w)
  | .kfirst w => some (rawGen 0x088 w)
  | .vmov w => some (rawGen 0x0A0 w)
  | .vadd w => some (rawGen 0x0A1 w)
  | .vsub w => some (rawGen 0x0A2 w)
  | .vmul w => some (rawGen 0x0A3 w)
  | .vmulh w => some (rawGen 0x0A4 w)
  | .vmad w => some (rawGen 0x0A5 w)
  | .vand w => some (rawGen 0x0A6 w)
  | .vor w => some (rawGen 0x0A7 w)
  | .vxor w => some (rawGen 0x0A8 w)
  | .vshl w => some (rawGen 0x0A9 w)
  | .vshr w => some (rawGen 0x0AA w)
  | .vmin w => some (rawGen 0x0AB w)
  | .vmax w => some (rawGen 0x0AC w)
  | .vabs w => some (rawGen 0x0AD w)
  | .vcmp w => some (rawGen 0x0AE w)
  | .vsel w => some (rawGen 0x0AF w)
  | .vclz w => some (rawGen 0x0B0 w)
  | .vpopc w => some (rawGen 0x0B1 w)
  | .vbfe w => some (rawGen 0x0B2 w)
  | .vbfi w => some (rawGen 0x0B3 w)
  | .vdp4 w => some (rawGen 0x0B4 w)
  | .vfadd w => some (rawGen 0x100 w)
  | .vfsub w => some (rawGen 0x101 w)
  | .vfmul w => some (rawGen 0x102 w)
  | .vfma w => some (rawGen 0x103 w)
  | .vfmin w => some (rawGen 0x104 w)
  | .vfmax w => some (rawGen 0x105 w)
  | .vfcmp w => some (rawGen 0x106 w)
  | .vfclass w => some (rawGen 0x107 w)
  | .vrcp w => some (rawGen 0x108 w)
  | .vrsq w => some (rawGen 0x109 w)
  | .vsqrt w => some (rawGen 0x10A w)
  | .vdiv w => some (rawGen 0x10B w)
  | .vexp2 w => some (rawGen 0x10C w)
  | .vlog2 w => some (rawGen 0x10D w)
  | .vcvt w => some (rawGen 0x10E w)
  | .vfrnd w => some (rawGen 0x10F w)
  | .vpack w => some (rawGen 0x110 w)
  | .vunpk w => some (rawGen 0x111 w)
  | .vshuf w => some (rawGen 0x160 w)
  | .vxsh w => some (rawGen 0x161 w)
  | .vbcast w => some (rawGen 0x162 w)
  | .vred w => some (rawGen 0x163 w)
  | .vscan w => some (rawGen 0x164 w)
  | .vcomp w => some (rawGen 0x165 w)
  | .vexpd w => some (rawGen 0x166 w)
  | .vapnd w => some (rawGen 0x167 w)
  | .vvote w => some (rawGen 0x168 w)
  | .vrand w => some (rawGen 0x169 w)
  | .vrseed w => some (rawGen 0x16A w)
  | .vsca w => some (rawGen 0x16B w)
  | .bset w => some (rawGen 0x16C w)
  | .bmap w => some (rawGen 0x16D w)
  | .mma w => some (rawGen 0x1A0 w)
  | .msca w => some (rawGen 0x1A1 w)
  | .mtrn w => some (rawGen 0x1A2 w)
  | .mldf w => some (rawMem 0x1A3 w)
  | .mstf w => some (rawMem 0x1A4 w)
  | .ld w => some (rawMem 0x1C0 w)
  | .st w => some (rawMem 0x1C1 w)
  | .ldb w => some (rawMem 0x1C2 w)
  | .stb w => some (rawMem 0x1C3 w)
  | .atom w => some (rawAtom 0x1C4 w)
  | .atomr w => some (rawAtom 0x1C5 w)
  | .cas w => some (rawMem 0x1C6 w)
  | .fence w => some (rawMem 0x1C7 w)
  | .prf w => some (rawMem 0x1C8 w)
  | .ldh w => some (rawMem 0x1C9 w)
  | .sth w => some (rawMem 0x1CA w)
  | .hmov w => some (rawGen 0x1CB w)
  | .pin w => some (rawGen 0x1CC w)
  | .unpin w => some (rawGen 0x1CD w)
  | .pld w => some (rawRem 0x240 w)
  | .pst w => some (rawRem 0x241 w)
  | .psts w => some (rawRem 0x242 w)
  | .patom w => some (rawAtom 0x243 w)
  | .patomr w => some (rawAtom 0x244 w)
  | .nput w => some (rawGen 0x245 w)
  | .nget w => some (rawGen 0x246 w)
  | .natom w => some (rawGen 0x247 w)
  | .nflush w => some (rawGen 0x248 w)
  | .wrev w => some (rawGen 0x249 w)
  | .copy w => some (rawGen 0x280 w)
  | .copym w => some (rawGen 0x281 w)
  | .chain w => some (rawGen 0x282 w)
  | .close w => some (rawGen 0x283 w)
  | .waitb w => some (rawGen 0x284 w)
  | .cadd w => some (rawGen 0x285 w)
  | .tryw w => some (rawGen 0x286 w)
  | .spawn w => some (rawGen 0x2C0 w)
  | .cscope w => some (rawGen 0x2C1 w)
  | .cancel w => some (rawGen 0x2C2 w)
  | .kpoll w => some (rawGen 0x2C3 w)
  | .bars w => some (rawGen 0x2C4 w)
  | .bara w => some (rawGen 0x2C5 w)
  | .barw w => some (rawGen 0x2C6 w)
  | .give w => some (rawGen 0x2C7 w)
  | .claim w => some (rawGen 0x2C8 w)
  | .hwait w => some (rawGen 0x2C9 w)
  | .waitt w => some (rawGen 0x2CA w)
  | .elect w => some (rawGen 0x2CB w)
  | .aloop w => some (rawGen 0x300 w)
  | .aend w => some (rawGen 0x301 w)
  | .ald w => some (rawGen 0x302 w)
  | .apf w => some (rawGen 0x303 w)
  | .aadv w => some (rawGen 0x304 w)
  | .ahalt w => some (rawGen 0x305 w)
  | .yieldExpiry .. => none
  | .mmaRetire .. => none
  | .trywPeriodicRead .. => none
  | .trywLimitExpiry .. => none
  | .taskAccept .. => none
  | .giveRelease .. => none
  | .waveKill .. => none
  | .waveRetire .. => none
  | .waveStateMachineCheck .. => none
  | .scopeQuiesceAck .. => none
  | .slipResolve .. => none
  | .trapDelivery .. => none
  | .faultRecordWrite .. => none
  | .nopreOverrun .. => none
  | .preemption .. => none
  | .teamRestore .. => none
  | .binderyBatchStart .. => none
  | .binderyDrainDone .. => none
  | .binderyBatchDone .. => none
  | .bdyDoorbell .. => none
  | .pstsResync .. => none
  | .engineOpStart .. => none
  | .engineChunk .. => none
  | .engineOpComplete .. => none
  | .engineOpAbort .. => none
  | .lqDoorbell .. => none
  | .launchPacketRead .. => none
  | .launchPending .. => none
  | .teamPlacement => none
  | .gridEnd .. => none
  | .contextEndInterrupt .. => none
  | .ctxEnd .. => none
  | .governorWindow => none
  | .coreHotMark .. => none
  | .coreDroop .. => none
  | .priPageRequest .. => none
  | .priResponse .. => none
  | .atsInvalidateRequest .. => none
  | .fabCtlEn => none
  | .fabricJoin .. => none
  | .fabricPeerUpdate .. => none
  | .planeDown .. => none
  | .flitLinkRetry .. => none
  | .fabricWritePacket .. => none
  | .fabricReadPacket .. => none
  | .fabricAtomicPacket .. => none
  | .fabricAck .. => none
  | .fabricNak .. => none
  | .fabricResponse .. => none
  | .fabricRtoExpiry .. => none
  | .fabricTmoExpiry .. => none
  | .netPacketArrival .. => none
  | .netContextFetchDone .. => none
  | .netAck .. => none
  | .netNak .. => none
  | .netParkResend .. => none
  | .netRetransmitTimeout .. => none
  | .arrayUncorrectableError .. => none
  | .arrayCorrectedError .. => none
  | .selfTestComplete .. => none
  | .rangeLockEntryError .. => none
  | .infieldTestDue .. => none
  | .infieldTestEnd .. => none
  | .watchdogFire .. => none
  | .xbarCommitPrepare .. => none
  | .xbarSwap => none
  | .mpWatchdogReset => none
  | .latencyWindowEnd => none
  | .securityAlarm .. => none
  | .firmwareImageVerify .. => none
  | .pwrMode .. => none
  | .errStatusClear .. => none
  | .powerOn .. => none
  | .registerWrite .. => none
  | .hostBarAccess .. => none
  | .fabricPlaneUp .. => none
  | .fabricPacketSend .. => none
  | .mmaLeavesArray .. => none
  | .atsTranslationResponse .. => none
  | .priCapabilityWrite .. => none
  | .pwrModeChangeComplete => none
  | .mainPowerLoss => none

/-- The literal of an instruction (R131). -/
def literalOf : Instr → Option W64
  | .nop w => w.hdr.lit
  | .bra w => w.hdr.lit
  | .bkz w => w.hdr.lit
  | .bknz w => w.hdr.lit
  | .bhz w => w.hdr.lit
  | .call w => w.hdr.lit
  | .ret w => w.hdr.lit
  | .jmpi w => w.hdr.lit
  | .loop w => w.hdr.lit
  | .endp w => w.hdr.lit
  | .trap w => w.hdr.lit
  | .rft w => w.hdr.lit
  | .yield w => w.hdr.lit
  | .srd w => w.hdr.lit
  | .swr w => w.hdr.lit
  | .haltctx w => w.hdr.lit
  | .drain w => w.hdr.lit
  | .tlbinv w => w.hdr.lit
  | .replay w => w.hdr.lit
  | .nopre w => w.hdr.lit
  | .pre w => w.hdr.lit
  | .mark w => w.hdr.lit
  | .smov w => w.hdr.lit
  | .sli w => w.hdr.lit
  | .sadd w => w.hdr.lit
  | .ssub w => w.hdr.lit
  | .smul w => w.hdr.lit
  | .smulh w => w.hdr.lit
  | .smad w => w.hdr.lit
  | .sdiv w => w.hdr.lit
  | .srem w => w.hdr.lit
  | .sand w => w.hdr.lit
  | .sor w => w.hdr.lit
  | .sxor w => w.hdr.lit
  | .sshl w => w.hdr.lit
  | .sshr w => w.hdr.lit
  | .smin w => w.hdr.lit
  | .smax w => w.hdr.lit
  | .scmp w => w.hdr.lit
  | .stst w => w.hdr.lit
  | .ssel w => w.hdr.lit
  | .sclz w => w.hdr.lit
  | .spopc w => w.hdr.lit
  | .sbfe w => w.hdr.lit
  | .sbfi w => w.hdr.lit
  | .kand w => w.hdr.lit
  | .kor w => w.hdr.lit
  | .kxor w => w.hdr.lit
  | .kandn w => w.hdr.lit
  | .kmov w => w.hdr.lit
  | .kset w => w.hdr.lit
  | .kget w => w.hdr.lit
  | .kpopc w => w.hdr.lit
  | .kfirst w => w.hdr.lit
  | .vmov w => w.hdr.lit
  | .vadd w => w.hdr.lit
  | .vsub w => w.hdr.lit
  | .vmul w => w.hdr.lit
  | .vmulh w => w.hdr.lit
  | .vmad w => w.hdr.lit
  | .vand w => w.hdr.lit
  | .vor w => w.hdr.lit
  | .vxor w => w.hdr.lit
  | .vshl w => w.hdr.lit
  | .vshr w => w.hdr.lit
  | .vmin w => w.hdr.lit
  | .vmax w => w.hdr.lit
  | .vabs w => w.hdr.lit
  | .vcmp w => w.hdr.lit
  | .vsel w => w.hdr.lit
  | .vclz w => w.hdr.lit
  | .vpopc w => w.hdr.lit
  | .vbfe w => w.hdr.lit
  | .vbfi w => w.hdr.lit
  | .vdp4 w => w.hdr.lit
  | .vfadd w => w.hdr.lit
  | .vfsub w => w.hdr.lit
  | .vfmul w => w.hdr.lit
  | .vfma w => w.hdr.lit
  | .vfmin w => w.hdr.lit
  | .vfmax w => w.hdr.lit
  | .vfcmp w => w.hdr.lit
  | .vfclass w => w.hdr.lit
  | .vrcp w => w.hdr.lit
  | .vrsq w => w.hdr.lit
  | .vsqrt w => w.hdr.lit
  | .vdiv w => w.hdr.lit
  | .vexp2 w => w.hdr.lit
  | .vlog2 w => w.hdr.lit
  | .vcvt w => w.hdr.lit
  | .vfrnd w => w.hdr.lit
  | .vpack w => w.hdr.lit
  | .vunpk w => w.hdr.lit
  | .vshuf w => w.hdr.lit
  | .vxsh w => w.hdr.lit
  | .vbcast w => w.hdr.lit
  | .vred w => w.hdr.lit
  | .vscan w => w.hdr.lit
  | .vcomp w => w.hdr.lit
  | .vexpd w => w.hdr.lit
  | .vapnd w => w.hdr.lit
  | .vvote w => w.hdr.lit
  | .vrand w => w.hdr.lit
  | .vrseed w => w.hdr.lit
  | .vsca w => w.hdr.lit
  | .bset w => w.hdr.lit
  | .bmap w => w.hdr.lit
  | .mma w => w.hdr.lit
  | .msca w => w.hdr.lit
  | .mtrn w => w.hdr.lit
  | .mldf w => w.hdr.lit
  | .mstf w => w.hdr.lit
  | .ld w => w.hdr.lit
  | .st w => w.hdr.lit
  | .ldb w => w.hdr.lit
  | .stb w => w.hdr.lit
  | .atom w => w.hdr.lit
  | .atomr w => w.hdr.lit
  | .cas w => w.hdr.lit
  | .fence w => w.hdr.lit
  | .prf w => w.hdr.lit
  | .ldh w => w.hdr.lit
  | .sth w => w.hdr.lit
  | .hmov w => w.hdr.lit
  | .pin w => w.hdr.lit
  | .unpin w => w.hdr.lit
  | .pld w => w.hdr.lit
  | .pst w => w.hdr.lit
  | .psts w => w.hdr.lit
  | .patom w => w.hdr.lit
  | .patomr w => w.hdr.lit
  | .nput w => w.hdr.lit
  | .nget w => w.hdr.lit
  | .natom w => w.hdr.lit
  | .nflush w => w.hdr.lit
  | .wrev w => w.hdr.lit
  | .copy w => w.hdr.lit
  | .copym w => w.hdr.lit
  | .chain w => w.hdr.lit
  | .close w => w.hdr.lit
  | .waitb w => w.hdr.lit
  | .cadd w => w.hdr.lit
  | .tryw w => w.hdr.lit
  | .spawn w => w.hdr.lit
  | .cscope w => w.hdr.lit
  | .cancel w => w.hdr.lit
  | .kpoll w => w.hdr.lit
  | .bars w => w.hdr.lit
  | .bara w => w.hdr.lit
  | .barw w => w.hdr.lit
  | .give w => w.hdr.lit
  | .claim w => w.hdr.lit
  | .hwait w => w.hdr.lit
  | .waitt w => w.hdr.lit
  | .elect w => w.hdr.lit
  | .aloop w => w.hdr.lit
  | .aend w => w.hdr.lit
  | .ald w => w.hdr.lit
  | .apf w => w.hdr.lit
  | .aadv w => w.hdr.lit
  | .ahalt w => w.hdr.lit
  | .yieldExpiry .. => none
  | .mmaRetire .. => none
  | .trywPeriodicRead .. => none
  | .trywLimitExpiry .. => none
  | .taskAccept .. => none
  | .giveRelease .. => none
  | .waveKill .. => none
  | .waveRetire .. => none
  | .waveStateMachineCheck .. => none
  | .scopeQuiesceAck .. => none
  | .slipResolve .. => none
  | .trapDelivery .. => none
  | .faultRecordWrite .. => none
  | .nopreOverrun .. => none
  | .preemption .. => none
  | .teamRestore .. => none
  | .binderyBatchStart .. => none
  | .binderyDrainDone .. => none
  | .binderyBatchDone .. => none
  | .bdyDoorbell .. => none
  | .pstsResync .. => none
  | .engineOpStart .. => none
  | .engineChunk .. => none
  | .engineOpComplete .. => none
  | .engineOpAbort .. => none
  | .lqDoorbell .. => none
  | .launchPacketRead .. => none
  | .launchPending .. => none
  | .teamPlacement => none
  | .gridEnd .. => none
  | .contextEndInterrupt .. => none
  | .ctxEnd .. => none
  | .governorWindow => none
  | .coreHotMark .. => none
  | .coreDroop .. => none
  | .priPageRequest .. => none
  | .priResponse .. => none
  | .atsInvalidateRequest .. => none
  | .fabCtlEn => none
  | .fabricJoin .. => none
  | .fabricPeerUpdate .. => none
  | .planeDown .. => none
  | .flitLinkRetry .. => none
  | .fabricWritePacket .. => none
  | .fabricReadPacket .. => none
  | .fabricAtomicPacket .. => none
  | .fabricAck .. => none
  | .fabricNak .. => none
  | .fabricResponse .. => none
  | .fabricRtoExpiry .. => none
  | .fabricTmoExpiry .. => none
  | .netPacketArrival .. => none
  | .netContextFetchDone .. => none
  | .netAck .. => none
  | .netNak .. => none
  | .netParkResend .. => none
  | .netRetransmitTimeout .. => none
  | .arrayUncorrectableError .. => none
  | .arrayCorrectedError .. => none
  | .selfTestComplete .. => none
  | .rangeLockEntryError .. => none
  | .infieldTestDue .. => none
  | .infieldTestEnd .. => none
  | .watchdogFire .. => none
  | .xbarCommitPrepare .. => none
  | .xbarSwap => none
  | .mpWatchdogReset => none
  | .latencyWindowEnd => none
  | .securityAlarm .. => none
  | .firmwareImageVerify .. => none
  | .pwrMode .. => none
  | .errStatusClear .. => none
  | .powerOn .. => none
  | .registerWrite .. => none
  | .hostBarAccess .. => none
  | .fabricPlaneUp .. => none
  | .fabricPacketSend .. => none
  | .mmaLeavesArray .. => none
  | .atsTranslationResponse .. => none
  | .priCapabilityWrite .. => none
  | .pwrModeChangeComplete => none
  | .mainPowerLoss => none

/-- The word of an instruction and its literal slot, if it has one (R124, R131). -/
def encode (i : Instr) : Option (W96 × Option W96) :=
  match rawOf i with
  | some r => some (pack r, (literalOf i).map (fun v => v.setWidth 96))
  | none => none

/-- Bytes of a number laid out as the hardware stores them, lowest address first (R3). -/
def slotBytes (x : Nat) : List Byte := natToBytes 24 x

/-- The 96-bit word that 12 bytes of a slot hold (R3, R118). -/
def wordOf (l : List Byte) : W96 := BitVec.ofNat 96 (bytesToNat (l.take 12))

/-- The instruction that the decoder reads from `nbits` bits `w`, bit 0 of `w` being bit 0 of the first slot's word and every bit
above `nbits` being 0: the bits are laid out as bytes in slot order and the slot after holds the literal. -/
def decodeTableWord (nbits w : Nat) : Option Instr :=
  let b := slotBytes (w % 2 ^ nbits)
  decode (wordOf b) (some (wordOf (b.drop 12)))

end Sys2Proof
end

