-- ==== Sys2Proof/Machine/Num.lean ====
section
/-! DEFINITION. Number formats and arithmetic (R99 to R117): values of encodings, one rounding of an exact result, the special
functions, conversions, bp8, and the exact sums of the matrix array. -/

namespace Sys2Proof.Machine

/-- The exact value of an encoding (R106): NaN, an infinity, or (-1)^neg * m * 2^e, which is a signed zero when m is 0. -/
inductive FVal
  | nan | inf (neg : Bool) | fin (neg : Bool) (m : Nat) (e : Int)
  deriving DecidableEq, Repr

/-- A floating-point format of R103: width, fraction bits, bias, magnitude of the largest finite encoding, whether it has
infinities, and its canonical NaN. -/
structure Fmt where
  width : Nat
  frac : Nat
  bias : Nat
  maxFin : Nat
  hasInf : Bool
  qnan : Nat
  deriving DecidableEq, Repr

/-- The formats of R103. -/
def fmtOf : Ty → Fmt
  | .f16 => ⟨16, 10, 15, 0x7BFF, true, 0x7E00⟩
  | .bf16 => ⟨16, 7, 127, 0x7F7F, true, 0x7FC0⟩
  | .e4m3 => ⟨8, 3, 7, 0x7E, false, 0x7F⟩
  | .e5m2 => ⟨8, 2, 15, 0x7B, true, 0x7E⟩
  | _ => ⟨32, 23, 127, 0x7F7FFFFF, true, 0x7FC00000⟩

/-- val(e, T) for a floating-point format (R103, R106). -/
def fval (f : Fmt) (x : Nat) : FVal :=
  let s := bitAt x (f.width - 1)
  let mag := x % 2 ^ (f.width - 1)
  let ex := mag / 2 ^ f.frac
  let fr := mag % 2 ^ f.frac
  if mag ≤ f.maxFin then
    if ex = 0 then .fin s fr (1 - (f.bias : Int) - f.frac)
    else .fin s (2 ^ f.frac + fr) ((ex : Int) - f.bias - f.frac)
  else if f.hasInf ∧ mag = f.maxFin + 1 then .inf s
  else .nan

/-- The sign bit of a format set or clear. -/
def withSign (f : Fmt) (neg : Bool) (mag : Nat) : Nat := if neg then mag + 2 ^ (f.width - 1) else mag

/-- The number of bits of a number. -/
def bitLen (x : Nat) : Nat := if x = 0 then 0 else Nat.log2 x + 1

/-- Whether a magnitude is rounded up: `rest` against `half`, with `sticky` for what lies beyond (R107). -/
def roundsUp (m : Rm) (neg odd : Bool) (rest half : Nat) (sticky : Bool) : Bool :=
  match m with
  | .rn => decide (half < rest) || (rest == half && (sticky || odd))
  | .rz => false
  | .rd => neg && (decide (0 < rest) || sticky)
  | .ru => !neg && (decide (0 < rest) || sticky)

/-- The magnitude encoding nearest (m + d) * 2^e under a mode, with an unbounded exponent range above, where d is 0, or lies
strictly between 0 and 1 when `sticky` (R106). -/
def roundMag (f : Fmt) (rm : Rm) (neg : Bool) (m : Nat) (e : Int) (sticky : Bool) : Nat :=
  let lo : Int := 1 - (f.bias : Int) - f.frac
  let q : Int := max ((bitLen m : Int) - 1 + e - f.frac) lo
  if e < q then
    let sh := (q - e).toNat
    let kept := m / 2 ^ sh
    let up := roundsUp rm neg (kept % 2 == 1) (2 * (m % 2 ^ sh)) (2 ^ sh) sticky
    (q - lo).toNat * 2 ^ f.frac + kept + b2n up
  else (q - lo).toNat * 2 ^ f.frac + m * 2 ^ (e - q).toNat

/-- The result of an overflow under a mode, as IEEE 754 prescribes (R106). -/
def overflowMag (f : Fmt) (rm : Rm) (neg : Bool) : Nat :=
  match rm with
  | .rn => f.maxFin + 1
  | .rz => f.maxFin
  | .rd => if neg then f.maxFin + 1 else f.maxFin
  | .ru => if neg then f.maxFin else f.maxFin + 1

/-- round_T of a non-zero finite magnitude (R106). -/
def roundFin (f : Fmt) (rm : Rm) (neg : Bool) (m : Nat) (e : Int) (sticky : Bool) : Nat :=
  let r := roundMag f rm neg m e sticky
  withSign f neg (if r ≤ f.maxFin then r else overflowMag f rm neg)

/-- round_T of an exact value; a NaN is the canonical one (R106, R109). -/
def roundTo (f : Fmt) (rm : Rm) : FVal → Nat
  | .nan => f.qnan
  | .inf s => withSign f s (f.maxFin + 1)
  | .fin s m e => if m = 0 then withSign f s 0 else roundFin f rm s m e false

/-- The integer that m * 2^e is as a multiple of 2^lo. -/
def scaled (neg : Bool) (m : Nat) (e lo : Int) : Int :=
  let x : Int := ((m * 2 ^ (e - lo).toNat : Nat) : Int)
  if neg then -x else x

/-- The value of an integer multiple of 2^e; `zneg` is the sign of an exact zero. -/
def ofScaled (x : Int) (e : Int) (zneg : Bool) : FVal :=
  if x = 0 then .fin zneg 0 0 else .fin (decide (x < 0)) x.natAbs e

/-- The exact sum, with the sign of a zero sum under the mode (R110). -/
def fadd (rm : Rm) : FVal → FVal → FVal
  | .nan, _ => .nan
  | _, .nan => .nan
  | .inf s, .inf t => if s = t then .inf s else .nan
  | .inf s, _ => .inf s
  | _, .inf t => .inf t
  | .fin s m e, .fin t n g =>
    let lo := min e g
    let zneg := if m = 0 ∧ n = 0 ∧ s = t then s else rm == .rd
    ofScaled (scaled s m e lo + scaled t n g lo) lo zneg

/-- The negation of a value. -/
def fneg : FVal → FVal
  | .nan => .nan
  | .inf s => .inf (!s)
  | .fin s m e => .fin (!s) m e

/-- The exact product; infinity times zero is a NaN (R185). -/
def fmul : FVal → FVal → FVal
  | .nan, _ => .nan
  | _, .nan => .nan
  | .inf s, .inf t => .inf (xor s t)
  | .inf s, .fin t n _ => if n = 0 then .nan else .inf (xor s t)
  | .fin s m _, .inf t => if m = 0 then .nan else .inf (xor s t)
  | .fin s m e, .fin t n g => .fin (xor s t) (m * n) (e + g)

/-- a * b + c exactly (R108). -/
def ffma (rm : Rm) (a b c : FVal) : FVal := fadd rm (fmul a b) c

/-- Compares finite values: a < b. -/
def finLt (s : Bool) (m : Nat) (e : Int) (t : Bool) (n : Nat) (g : Int) : Bool :=
  decide (scaled s m e (min e g) < scaled t n g (min e g))

/-- a < b on numbers; both zeros are equal. -/
def flt : FVal → FVal → Bool
  | .nan, _ => false
  | _, .nan => false
  | .inf s, .inf t => s && !t
  | .inf s, _ => s
  | _, .inf t => !t
  | .fin s m e, .fin t n g => finLt s m e t n g

/-- a = b on numbers; both zeros are equal (R110). -/
def feq (a b : FVal) : Bool := a != .nan && b != .nan && !flt a b && !flt b a

/-- The sign of a value. -/
def fsign : FVal → Bool
  | .nan => false
  | .inf s => s
  | .fin s _ _ => s

/-- VFMIN and VFMAX (R110): the number when one operand is a NaN, and -0 below +0. -/
def fminmax (greater : Bool) (a b : FVal) : FVal :=
  match a, b with
  | .nan, _ => b
  | _, .nan => a
  | _, _ =>
    if flt a b then (if greater then b else a)
    else if flt b a then (if greater then a else b)
    else if fsign a then (if greater then b else a)
    else (if greater then a else b)

/-- The integer square root of the low `2 * n` bits of x, found bit by bit. -/
def isqrtBits : Nat → Nat → Nat → Nat
  | 0, _, r => r
  | n + 1, x, r => if (r + 2 ^ n) * (r + 2 ^ n) ≤ x then isqrtBits n x (r + 2 ^ n) else isqrtBits n x r

/-- The floor of the square root. -/
def isqrt (x : Nat) : Nat := isqrtBits (bitLen x / 2 + 1) x 0

/-- The quotient, rounded once (R111). -/
def fdivTo (f : Fmt) (rm : Rm) (a b : FVal) : Nat :=
  match a, b with
  | .nan, _ => f.qnan
  | _, .nan => f.qnan
  | .inf _, .inf _ => f.qnan
  | .inf s, .fin t _ _ => withSign f (xor s t) (f.maxFin + 1)
  | .fin s _ _, .inf t => withSign f (xor s t) 0
  | .fin s m e, .fin t n g =>
    if n = 0 then (if m = 0 then f.qnan else withSign f (xor s t) (f.maxFin + 1))
    else if m = 0 then withSign f (xor s t) 0
    else
      let k := bitLen n + f.frac + 4
      roundFin f rm (xor s t) (m * 2 ^ k / n) (e - g - k) (m * 2 ^ k % n != 0)

/-- A positive value brought to an even exponent of at least 64 bits of mantissa, for the square roots. -/
def evenExp (m : Nat) (e : Int) : Nat × Int :=
  let m1 := m * 2 ^ 64
  let e1 := e - 64
  if e1 % 2 = 0 then (m1, e1) else (2 * m1, e1 - 1)

/-- VSQRT (R111). -/
def fsqrtTo (f : Fmt) (rm : Rm) : FVal → Nat
  | .nan => f.qnan
  | .inf s => if s then f.qnan else f.maxFin + 1
  | .fin s m e =>
    if m = 0 then withSign f s 0
    else if s then f.qnan
    else
      let (x, g) := evenExp m e
      let r := isqrt x
      roundFin f rm false r (g / 2) (r * r != x)

/-- VRSQ (R111). -/
def frsqTo (f : Fmt) (rm : Rm) : FVal → Nat
  | .nan => f.qnan
  | .inf s => if s then f.qnan else 0
  | .fin s m e =>
    if m = 0 then withSign f s (f.maxFin + 1)
    else if s then f.qnan
    else
      let (x, g) := evenExp m e
      let k := bitLen x + 2 * f.frac + 12
      let k2 := if k % 2 = 0 then k else k + 1
      let y := 2 ^ k2 / x
      let r := isqrt y
      roundFin f rm false r (-(g / 2) - ((k2 / 2 : Nat) : Int)) (r * r * x != 2 ^ k2)

/-- The floor of ln 2 * 2^320. -/
def ln2 : Nat := 0xb17217f7d1cf79abc9e3b39803f2f6af40f343267298b62d8a0d175b8baafa2be7b876206debac98

/-- The sum of the series of e^y, y being `y` / 2^320 below 1, each term rounded down: at most one unit lost per term. -/
def expSum : Nat → Nat → Nat → Nat → Nat → Nat
  | 0, _, _, _, acc => acc
  | n + 1, k, y, t, acc => expSum n (k + 1) y (t * y / (2 ^ 320 * (k + 1))) (acc + t)

/-- The sum of z^(2k+1)/(2k+1), z being `t` / 2^320 at the start and `z2` its square. -/
def atanhSum : Nat → Nat → Nat → Nat → Nat → Nat
  | 0, _, _, _, acc => acc
  | n + 1, k, z2, t, acc => atanhSum n (k + 2) z2 (t * z2 / 2 ^ 320) (acc + t / k)

/-- 2^x of a finite non-zero x that is not an integer, rounded once: the fraction's power lies within 2^-300 of the sum, and no
input of R111's formats brings it nearer than that to a number of 64 fraction bits. UNVERIFIED beyond that bound (log 14). -/
def exp2Frac (f : Fmt) (rm : Rm) (neg : Bool) (m : Nat) (e : Int) : Nat :=
  let d := (-e).toNat
  let x : Int := if neg then -(m : Int) else (m : Int)
  let n := x / ((2 ^ d : Nat) : Int)
  let fr := (x % ((2 ^ d : Nat) : Int)).toNat
  let y := fr * ln2 / 2 ^ d
  let lo := expSum 80 0 y (2 ^ 320) 0
  let r := (lo + 2 ^ 10) / 2 ^ 250
  roundFin f rm false r (n - 70) true

/-- VEXP2 (R111). -/
def fexp2To (f : Fmt) (rm : Rm) : FVal → Nat
  | .nan => f.qnan
  | .inf s => if s then 0 else f.maxFin + 1
  | .fin s m e =>
    if m = 0 then roundFin f rm false 1 0 false
    else if 10 < (bitLen m : Int) + e then
      (if s then roundFin f rm false 1 (-2000) false else overflowMag f rm false)
    else if 0 ≤ e then
      let x : Int := scaled s m e 0
      roundFin f rm false 1 x false
    else if m % 2 ^ (-e).toNat = 0 then roundFin f rm false 1 (scaled s (m / 2 ^ (-e).toNat) 0 0) false
    else exp2Frac f rm s m e

/-- VLOG2 (R111). -/
def flog2To (f : Fmt) (rm : Rm) : FVal → Nat
  | .nan => f.qnan
  | .inf s => if s then f.qnan else f.maxFin + 1
  | .fin s m e =>
    if m = 0 then withSign f true (f.maxFin + 1)
    else if s then f.qnan
    else
      let k := bitLen m - 1
      let ex : Int := e + k
      if m = 2 ^ k then roundTo f rm (ofScaled ex 0 false)
      else
        let z := (m - 2 ^ k) * 2 ^ 320 / (m + 2 ^ k)
        let ln := 2 * atanhSum 110 1 (z * z / 2 ^ 320) z 0
        let fr : Nat := ln * 2 ^ 120 / ln2
        let r : Int := ex * ((2 ^ 120 : Nat) : Int) + fr
        if r < 0 then roundFin f rm true (r.natAbs - 1) (-120) true else roundFin f rm false r.natAbs (-120) true

/-- VRCP (R111). -/
def frcpTo (f : Fmt) (rm : Rm) (x : FVal) : Nat := fdivTo f rm (.fin false 1 0) x

/-- The integer part of m * 2^e under a mode, as a magnitude (R112, R190). -/
def intMag (rm : Rm) (neg : Bool) (m : Nat) (e : Int) : Nat :=
  if 0 ≤ e then m * 2 ^ e.toNat
  else
    let sh := (-e).toNat
    let kept := m / 2 ^ sh
    kept + b2n (roundsUp rm neg (kept % 2 == 1) (2 * (m % 2 ^ sh)) (2 ^ sh) false)

/-- VFRND (R190): the integral value, exact in the format, a zero keeping the sign of its source. -/
def frndTo (f : Fmt) (rm : Rm) : FVal → Nat
  | .nan => f.qnan
  | .inf s => withSign f s (f.maxFin + 1)
  | .fin s m e =>
    let r := intMag rm s m e
    if r = 0 then withSign f s 0 else roundFin f .rn s r 0 false

/-- VFCLASS (R189): the class bit of an encoding. -/
def fclass (f : Fmt) (x : Nat) : Nat :=
  let s := bitAt x (f.width - 1)
  match fval f x with
  | .nan => 2 ^ 8
  | .inf _ => if s then 2 ^ 0 else 2 ^ 7
  | .fin _ m _ =>
    if m = 0 then (if s then 2 ^ 3 else 2 ^ 4)
    else if m < 2 ^ f.frac then (if s then 2 ^ 2 else 2 ^ 5)
    else if s then 2 ^ 1 else 2 ^ 6

/-- A term of a bp8 byte in units of 2^-6 (R104). -/
def bp8Term (neg : Bool) (c : Nat) : Int := if c = 7 then 0 else if neg then -((2 ^ (6 - c) : Nat) : Int) else ((2 ^ (6 - c) : Nat) : Int)

/-- The value of a bp8 byte in units of 2^-6 (R104). -/
def bp8Val (x : Nat) : Int := bp8Term (bitAt x 7) (bits x 4 3) + bp8Term (bitAt x 3) (bits x 0 3)

/-- The bytes that R105 may choose, in its order of preference: one term; two terms of equal sign; two of opposite sign; the term
of larger magnitude first. -/
def bp8Forms : List Nat :=
  0x77 :: ((List.range 7).flatMap (fun c => [16 * c + 7, 128 + 16 * c + 7])
    ++ (List.range 7).flatMap (fun c => (List.range 7).flatMap (fun d => if c ≤ d then [16 * c + d, 128 + 16 * c + 8 + d] else []))
    ++ (List.range 7).flatMap (fun c => (List.range 7).flatMap (fun d => if c < d then [16 * c + 8 + d, 128 + 16 * c + d] else [])))

/-- The canonical encoding of a representable value in units of 2^-6 (R105). -/
def bp8Canon (v : Int) : Nat := (bp8Forms.find? (fun x => bp8Val x == v)).getD 0x77

/-- The magnitudes that bp8 represents, in units of 2^-6, in rising order (R104). -/
def bp8Mags : List Nat := (List.range 129).filter (fun n => bp8Forms.any (fun x => bp8Val x == (n : Int)))

/-- The representable magnitude nearest m * 2^e, ties to the smaller (R106): the first of the list whose distance to the next is
not smaller. Values are compared as multiples of 2^lo. -/
def bp8Near (m : Nat) (e : Int) : Nat :=
  let lo := min e (-6)
  let x := m * 2 ^ (e - lo).toNat
  let u := 2 ^ (-6 - lo).toNat
  let better (best n : Nat) : Nat :=
    let d1 := (if best * u ≤ x then x - best * u else best * u - x)
    let d2 := (if n * u ≤ x then x - n * u else n * u - x)
    if d2 < d1 then n else best
  bp8Mags.foldl better 0

/-- to_bp8 (R106, R112). -/
def toBp8 : FVal → Nat
  | .nan => 0x77
  | .inf s => if s then 0x88 else 0x00
  | .fin s m e =>
    let n := bp8Near m e
    bp8Canon (if s then -(n : Int) else (n : Int))

/-- The exact value of an encoding of any type, with `sel` bits of width (R106). Integers are values of exponent 0. -/
def valOf (t : Ty) (x : Nat) : FVal :=
  if tyIsFloat t then fval (fmtOf t) x
  else if t == .bp8 then ofScaled (bp8Val x) (-6) false
  else if tyIsI t then ofScaled (signed x (tyWidth t)) 0 false
  else .fin false (x % 2 ^ tyWidth t) 0

/-- cvt to an integer type: rounded to an integer under the mode and saturated; a NaN gives 0 (R112). -/
def cvtInt (t : Ty) (rm : Rm) (x : FVal) : Nat :=
  let n := tyWidth t
  let clamp (v : Int) : Nat := wrapI (if tyIsI t then satI v n else satN v n) n
  match x with
  | .nan => 0
  | .inf s => clamp (if s then -((2 ^ 70 : Nat) : Int) else ((2 ^ 70 : Nat) : Int))
  | .fin s m e =>
    let r : Int := (intMag rm s m e : Nat)
    clamp (if s then -r else r)

/-- cvt (R106, R112, R113). `nan` is the .nan modifier. -/
def cvtTo (t : Ty) (rm : Rm) (nan : Bool) (x : FVal) : Nat :=
  let f := fmtOf t
  match t with
  | .f32 => roundTo f rm x
  | .f16 | .bf16 | .e5m2 | .e4m3 =>
    match x with
    | .nan => f.qnan
    | .inf s => if f.hasInf then withSign f s (f.maxFin + 1) else if nan then f.qnan else withSign f s f.maxFin
    | .fin s m e =>
      if m = 0 then withSign f s 0
      else
        let r := roundMag f .rn s m e false
        if r ≤ f.maxFin then withSign f s r else if nan then f.qnan else withSign f s f.maxFin
  | .bp8 => toBp8 x
  | _ => cvtInt t rm x

/-- An immediate converted exactly to a type (R127). One that e4m3 or e5m2 cannot hold (such as 19) is rounded to nearest even: DESIGN
CHOICE (log 77). -/
def immTo (t : Ty) (i : Int) : Nat :=
  if tyIsFloat t then roundTo (fmtOf t) .rn (ofScaled i 0 false) else wrapI i (tyWidth t)

/-- The exact sum of finite products and the accumulator, each zero taken as +0 (R114). -/
def exactSum (l : List FVal) : FVal :=
  let lo : Int := l.foldl (fun (a : Int) x => match x with | .fin _ _ e => min a e | _ => a) 0
  let tot : Int := l.foldl (fun (a : Int) x => match x with | .fin s m e => a + scaled s m e lo | _ => a) 0
  ofScaled tot lo false

/-- R114: one output element from the products and the accumulator, the products of NaN or infinity with zero being NaN. -/
def mmaElem (ps : List FVal) (c : FVal) : Nat :=
  let all := c :: ps
  if all.any (fun x => x == .nan) || (all.contains (.inf false) && all.contains (.inf true)) then (fmtOf .f32).qnan
  else if all.contains (.inf false) then roundTo (fmtOf .f32) .rn (.inf false)
  else if all.contains (.inf true) then roundTo (fmtOf .f32) .rn (.inf true)
  else roundTo (fmtOf .f32) .rn (exactSum all)

/-- The new f32 contents of a location under a floating-point atomic (R117). -/
def atomF32 (o : Aop) (old v : Nat) : Nat :=
  let f := fmtOf .f32
  let a := fval f old
  let b := fval f v
  match o with
  | .fadd => roundTo f .rn (fadd .rn a b)
  | .fmin => roundTo f .rn (fminmax false a b)
  | .fmax => roundTo f .rn (fminmax true a b)
  | _ => v

/-- The new contents of a location of a type under an atomic operation (R133, R226). -/
def atomNew (o : Aop) (t : Ty) (old v : Nat) : Nat :=
  let n := tyWidth t
  let less (x y : Nat) : Bool := if tyIsI t then decide (signed x n < signed y n) else decide (x % 2 ^ n < y % 2 ^ n)
  match o with
  | .add => (old + v) % 2 ^ n
  | .min => if less v old then v % 2 ^ n else old
  | .max => if less old v then v % 2 ^ n else old
  | .and => (old &&& v) % 2 ^ n
  | .or => (old ||| v) % 2 ^ n
  | .xor => (old ^^^ v) % 2 ^ n
  | .exch => v % 2 ^ n
  | o => atomF32 o old v

end Sys2Proof.Machine
end

