-- ==== Sys2Proof/Config.lean ====
section
/-! DEFINITION. What the manual leaves open as a value: constants without a body, so that a statement that is true of them
is true whatever they are. -/

namespace Sys2Proof.Config

/-- A 32-bit value the manual leaves unspecified: the contents of a vector register at wave start (R24), of a register
outside the live set after a restoration (R61), of a mask result read through a latch. It is applied to the counter
`State.free`, which the step reads and advances. DESIGN CHOICE (log 3). -/
opaque freeWord : Nat → W32

/-- A byte the manual leaves unspecified: destination bytes of an aborted or failed engine operation beyond its last whole
chunk (R35, R333). DESIGN CHOICE (log 10). -/
opaque freeByte : Nat → Byte

/-- The ASID under which a bindery translates the address of a batch record, which the manual does not name (R94). DESIGN CHOICE (log 11). -/
opaque batchAsid : W64 → Nat

end Sys2Proof.Config
end

