-- ==== Sys2Proof/Machine/State.lean ====
section
/-! DEFINITION. The state of the device as plain data: everything the manual gives it, from the registers of a wave to the tables
of the fabric, the memories, the registers of BAR 0, and the model's own agenda. `State.reset` is the device at power-on. -/

namespace Sys2Proof.Machine

/-- Why the machine stops with a fault. -/
inductive Fault
  /-- Raised by HOST_BAR_ACCESS for an address beyond HBM, which BAR 2 does not hold (R310). Safe: nothing is read or written. -/
  | barOutside
  deriving DecidableEq, Repr

/-- Why the machine gives an instruction no meaning. -/
inductive Refusal
  /-- Raised by an arm of `exec` whose instruction has no meaning yet. Safe. -/
  | notModelled (mnemonic : String)
  /-- Raised by an instruction of a wave or an access slice when no such agent is issuing it: instructions are executed only by
  an agent (R17, R262). Safe. -/
  | noIssuer
  deriving DecidableEq, Repr

/-- Bytes of one memory by offset, strictly rising, listing only bytes that are not zero. -/
abbrev Memory := List Host.Cell

/-- A handle register's contents (R92); the null handle is `none` where one is held. -/
structure Handle where
  heap : BitVec 4
  col : BitVec 2
  base : W64
  moving : Bool
  deriving DecidableEq, Repr

/-- Where one element lies once its address is resolved (R66, R300): a local place, one reached over the CXL or host link, or a
peer device. -/
inductive Site
  | loc (sp : Space) (off : Nat)
  | link (sp : Space) (off : Nat)
  | peer (id : BitVec 9)
  | nowhere
  deriving DecidableEq, Repr

/-- One element of an access: its lane, its piece within the lane, its generic address, its place, and what a store, an atomic
or a compare brings. -/
structure Elem where
  lane : Nat
  piece : Nat
  addr : W64
  site : Site
  data : W64
  cmp : W64
  deriving DecidableEq, Repr

/-- What an access does at each element. -/
inductive AccKind
  | load | store | atom (op : Aop) | cas
  deriving DecidableEq, Repr

/-- Where the results of an access go. -/
inductive WriteBack
  | none | vec (r : Nat) | sca (r : Nat) | block (r : Nat) | handle (r : Nat) | frag (r shape role : Nat)
  deriving DecidableEq, Repr

/-- An access of a wave, of one type, order and scope, over its elements. `vector` says that it has the vector form (R221),
`viaHandle` that its addresses were formed through a handle (R88). -/
structure Access where
  kind : AccKind
  ty : Ty
  order : Order
  scope : Scp
  wb : WriteBack
  vector : Bool
  viaHandle : Bool
  elems : List Elem
  deriving DecidableEq, Repr

/-- A result of an access: lane, piece, value, and whether the data was poisoned. -/
structure Got where
  lane : Nat
  piece : Nat
  val : W64
  poison : Bool
  deriving DecidableEq, Repr

/-- The operand record of an operation, the layout of the trap frame at +0x30 to +0x67 (R46, R57). -/
structure OpRec where
  iword : W96
  a : W64
  b : W64
  c : W64
  peer : W32
  stream : W32
  scope : W64
  deriving DecidableEq, Repr

/-- A failure of an operation: its cause and address, the lanes that failed, and whether causes or peers differ (R53, R57). -/
structure SlipFail where
  cause : Nat
  faddr : W64
  lanes : Mask
  mixed : Bool
  peer : W32
  deriving DecidableEq, Repr

/-- What a slip waits for (R43): an access with parts on the host or CXL link and on peers, an engine operation, a network
message, a flush, or the acceptance of a task. -/
inductive SlipOp
  | mem (acc : Access) (got : List Got) (linkLeft : Bool)
  | engine (op : Nat)
  | net (msg : Nat)
  | flush (conn : Nat) (msgs : List Nat)
  | spawn (task : Nat)
  deriving DecidableEq, Repr

/-- A bound register (R207). -/
structure Bound where
  fmt : Ty
  act : Nat
  mn : W32
  mx : W32
  deriving DecidableEq, Repr

/-- A slip (R46). `orders` says that later accesses of the wave wait for what of it is not performed: it has acquire order, or a FENCE has
followed it (R75). `binds` and `bounds` are the wave's bindings and bound registers as they stood at its issue (R208, R209). `fenced` marks
the stores and atomics of R79, `handler` an operation issued in handler mode (R55), `hr` an .hr store, `held` one not yet released (R49),
`openPark` an instruction whose lanes are not all issued (R44, R58), `ended` one that has failed and awaits delivery, `delivered` one whose
handler runs (R55). -/
structure Slip where
  tag : W32
  pc : W64
  rcd : OpRec
  lanes : Mask
  op : SlipOp
  orders : Bool
  binds : List (Nat × Nat)
  bounds : List Bound
  fenced : Bool
  handler : Bool
  hr : Bool
  held : Bool
  openPark : Bool
  fail : Option SlipFail
  ended : Bool
  delivered : Bool
  desched : Bool
  deriving DecidableEq, Repr

/-- A held .hr store: a key of its own in its wave, h, the access, and whether it is failable, so that tag h is its own (R49). -/
structure Held where
  key : Nat
  h : W32
  acc : Access
  failable : Bool
  deriving DecidableEq, Repr

/-- What a lazy read completes (R130). -/
inductive LazyTarget
  | store (acc : Access)
  | held (key : Nat)
  | packets (tag : W32)
  | mma (op : Nat)
  deriving DecidableEq, Repr

/-- A lazy read in progress under a claimed slot: the source registers as they stood at issue, whether the source is one register of another
kind, read as a whole, and what the read completes. -/
structure LazyRead where
  slot : Nat
  ins : Instr
  oldV : List (Nat × List W32)
  oldS : List (Nat × W64)
  whole : Bool
  target : LazyTarget
  deriving DecidableEq, Repr

/-- An entry of the loop stack (R151). -/
structure LoopEntry where
  start : W64
  stop : W64
  reg : Nat
  deriving DecidableEq, Repr

/-- A flashback point: what MARK records (R59, R163, R203, R264). -/
structure Flash where
  id : Nat
  pc : W64
  loops : List LoopEntry
  counters : List (Nat × W64)
  key : W64
  ctr : W64
  pops : List Nat
  deriving DecidableEq, Repr

/-- What a bypass latch holds of an earlier instruction of the line (R129). -/
inductive Latch
  | nothing                         -- no register result, or one wider than a pair
  | vec (regs : List (List W32))
  | sca (v : W64)
  | load (r n : Nat) (sca : Bool)    -- the destination of a load that may not have returned
  | other                           -- a mask or handle result
  deriving DecidableEq, Repr

/-- The park of a wave on a replayable fault (R58, R306): its record's fields, whether the record is written, whether it has been
replayed, the host page it waits for (R308), and the cause the fault raises without a service wave. -/
structure Park where
  token : W64
  vaddr : W64
  pc : W64
  kind : Nat
  level : Nat
  access : Nat
  prist : Nat
  asid : Nat
  nlanes : Nat
  entry : W64
  eaddr : W64
  written : Bool
  replayed : Bool
  page : Option W64
  cause : Nat
  deriving DecidableEq, Repr

/-- What a replayable fault showed when it was met (R306): its kind, the level, contents and address of the entry that stopped the walk, the cause
without a service wave, and the host page. -/
structure Stopped where
  kind : Nat
  level : Nat
  entry : W64
  eaddr : W64
  cause : Nat
  page : Option W64
  deriving DecidableEq, Repr

/-- An entry of an operand queue (R263): elements, poisoned lanes, the cause it carries (0 for none) with its lanes and address,
and, for a replayable fault, the load that finishes its unfinished lanes, with what the fault of the lowest of them showed. -/
structure QEntry where
  vals : List W32
  poison : Mask
  cause : Nat
  lanes : Mask
  faddr : W64
  unfinished : Option (Access × Stopped)
  deriving DecidableEq, Repr

/-- A batch of engine operations (R244): its number, its operations that have not ended, and whether one failed or aborted. -/
structure Batch where
  num : W32
  live : List Nat
  failed : Bool
  aborted : Bool
  deriving DecidableEq, Repr

/-- A loop level of an access slice (R262, R265). -/
structure SliceLoop where
  start : W64
  count : Nat
  index : Nat
  deriving DecidableEq, Repr

/-- An access slice (R262, R264): program counter, address registers, loops, whether it has stopped, for each queue how many
entries it still pushes and discards after a restoration, and, after an ALOOP of count 0, how deep inside it the slots are that it is skipping
(R265). -/
structure Slice where
  pc : W64
  a : List W64
  loops : List SliceLoop
  stopped : Bool
  discard : List Nat
  skip : Option Nat
  deriving DecidableEq, Repr

/-- The states of a wave, in the row order of R29. -/
inductive WState
  | placed | ready | issuing | waiting | suspended | parked | slaved | preempted | retiring | killed | retired
  deriving DecidableEq, Repr

/-- What a waiting or suspended wave waits for. -/
inductive Wait
  | idle
  | stall                                                 -- a stalled issue (R29): the instruction is tried again
  | budget                                                -- an MMA waiting for a governor unit (R216)
  | hwait (t : W32)
  | fence
  | waitb (n : W32)
  | waitt
  | claim (n : Nat)
  | give (n : Nat)
  | bars (n : Nat) (phase : W32)
  | barw (n : Nat) (phase : W32)
  | tryw (target : W64) (deadline : Nat) (lastRead : Option Nat)   -- none: the first read of a peer is not answered
  | yielded (others : List (Nat × Nat)) (until_ : Nat)     -- the other waves, each with what it had issued at the YIELD (R155)
  | drain (ops : List Nat) (done failed aborted : Nat)
  | tlbinv (slips : List (Nat × W32)) (held : List (Nat × Nat)) (slots : List (Nat × Nat)) (pkts : List Nat)   -- accesses made through removed entries
  | mmaCheck (op : Nat)                                   -- the check of a bound result before the leader goes on (R215)
  | ats (page : W64)                                      -- a host page whose translation is asked for (R307)
  | halting                                               -- HALTCTX until every wave has stopped (R158)
  | stopped                                               -- stopped by a halt (R158)
  deriving DecidableEq, Repr

/-- The register state of a wave (R16, R24, R26, R128, R203, R209, R211). `poison` names the lanes of vector registers that hold poison (R40,
R331). -/
structure Regs where
  cnt : Nat
  v : List (List W32)
  s : List W64
  k : List Mask
  h : List (Option Handle)
  dead : Mask
  cc : W32
  mstall : W64
  bflag : W32
  fault : W64
  key : W64
  ctr : W64
  bmap : List (Nat × Nat)
  poison : List (Nat × Mask)
  deriving DecidableEq, Repr

/-- The horizon state of a wave (R44 to R49, R52 to R55, R80): the tag counter, slips, held stores, lazy reads, the failure
accumulator, handler mode and the pending event traps and machine check. `timeout` holds the barrier, its status and its
phase at the firing (R340). -/
structure Horizon where
  tag : W32
  slips : List Slip
  held : List Held
  lazies : List LazyRead
  facc : W32
  handler : Bool
  overrun : Bool
  timeout : Option (Nat × W64 × W32)
  machineCheck : Bool
  deriving DecidableEq, Repr

/-- A record on a peer that an instruction reads at issue (R238): its address, and what came back or the cause of its failure. -/
structure PeerRec where
  addr : W64
  got : Option (List W64)
  fail : Option Nat
  deriving DecidableEq, Repr

/-- The control state of a wave. `only` holds the unfinished lanes of a replayed instruction, none when all of it is to be executed, `again` says
that REPLAY has let an instruction execute again that has not completed nor come to wait (R54, R58), `rest` the program counter and the unfinished
lanes of one that a trap at its stall has interrupted (R352), `needTgt` that a branch has come to a slot whose TGT bit could not yet be read (R134),
`chain` whether its line has CHAIN set, `recipe` the program counter to resume at and the recipe instructions left during a restoration (R62), `left` that it left
handler mode by ENDP (R55), `idem` the idempotent region it is in or has left, with the point that its entry MARK recorded (R64),
`fresh` that it has not yet executed its first slot, `preempt` that its team is to be saved, so that it issues nothing more (R60), `peerRec` a record
that its instruction reads from a peer. -/
structure Ctl where
  pc : W64
  st : WState
  wait : Wait
  line : Option W64
  chain : Bool
  latches : List Latch
  loops : List LoopEntry
  flash : Option Flash
  park : Option Park
  only : Option Mask
  again : Bool
  rest : Option (W64 × Mask)
  needTgt : Bool
  nopre : Option Nat
  barPhase : List (Option W32)
  recipe : Option (W64 × Nat)
  left : Bool
  stopping : Bool
  allDead : Bool
  idem : Option (Flash × W64 × Bool)
  fresh : Bool
  preempt : Bool
  peerRec : Option PeerRec
  deriving DecidableEq, Repr

/-- A wave. `issued` counts the instructions it has issued, `lastReady` ranks the moments at which waves became ready (R285): both are the
model's own (log 80). -/
structure Wave where
  id : Nat
  ctx : Nat
  team : Nat
  idx : Nat
  role : Nat
  core : Nat
  slot : Nat
  width : Nat
  prio : Nat
  depth : Nat
  scope : W64
  fsw : Bool
  opened : List Nat
  regs : Regs
  hz : Horizon
  ctl : Ctl
  batchNo : W32
  batches : List Batch
  slice : Slice
  queues : List (List QEntry)
  popped : List (Nat × List W32)
  pops : List Nat
  stack : Memory
  stackTop : Nat
  lastReady : Nat
  issued : Nat
  deriving DecidableEq, Repr

/-- The sections, policy and entry values a wave runs with (R252, R275): a kernel's part of the launch packet. -/
structure Kernel where
  exec : W64
  trapPc : W64
  flash : W64
  flashN : Nat
  recipe : W64
  access : W64
  policy : Nat
  width : Nat
  lanes : Nat
  args : List W64
  fromFsw : Bool
  deriving DecidableEq, Repr

/-- A named barrier (R156, R256, R340). -/
structure Barrier where
  count : Nat
  arrived : BitVec 16
  exited : BitVec 16
  removed : BitVec 16
  phase : W32
  bal : Int
  waited : Nat
  fired : Bool
  deriving DecidableEq, Repr

/-- What a team was placed from. -/
inductive TeamKind
  | grid (g : Nat) | task (t : Nat) | service
  deriving DecidableEq, Repr

/-- A team (R17, R23, R26, R67, R207, R256). `pools` and `claims` are per half; `saved` holds the cluster and die slot of a
pre-empted team (R68), `imageKept` whether its shelf and barriers were kept (R64). -/
structure Team where
  id : Nat
  ctx : Nat
  kind : TeamKind
  index : Nat
  core : Nat
  pair : Bool
  rank : Nat
  prio : Nat
  kernel : Kernel
  shelfSize : Nat
  shelf : Memory
  waves : List Nat
  pools : List Nat
  claims : List (List Nat)
  bars : List Barrier
  bounds : List Bound
  saved : Option (Nat × Nat)
  imageKept : Bool
  order : Nat
  deriving DecidableEq, Repr

/-- A cancel scope (R33, R35, R39, R253). -/
structure ScopeRec where
  slot : Nat
  gen : Nat
  parent : Option Nat
  depth : Nat
  counter : W64
  cancelled : Bool
  quiesced : Bool
  opener : Option Nat
  grid : Option Nat
  deriving DecidableEq, Repr

/-- A context (R269) with what the device holds for it: its descriptor's fields, its halt (R158), die slots with their annex
images, `images` naming the slots whose image is saved (R68, R282), placement cursor (R280), scopes, the generation each scope slot
has reached, its service wave and the waves whose fault records wait (R305), and when it came to hold a core (R283). `sealed` says
that its saved teams are sealed under its context key (R346). -/
structure Ctx where
  id : Nat
  desc : W64
  asid : Nat
  part : Nat
  priv : Bool
  annexSize : Nat
  ptroot : W64
  heapt : W64
  flog : W64
  flogn : Nat
  flogw : W32
  fswDesc : W64
  saveAt : W64
  saveSize : Nat
  slice : Nat
  vec : Nat
  prioCap : Nat
  status : Nat
  halted : Bool
  haltWave : Option Nat
  dies : List (Option Nat)
  annex : List Memory
  cursor : Nat
  scopes : List ScopeRec
  gens : List (Nat × Nat)
  fswWave : Option Nat
  fswPlaced : Bool
  records : List Nat
  since : Option Nat
  images : List Nat
  sealed : Bool
  deriving DecidableEq, Repr

/-- A role of a role map (R25). -/
structure Role where
  first : Nat
  last : Nat
  cnt : Nat
  deriving DecidableEq, Repr

/-- A grid from the moment its packet is read (R275 to R278). `order` ranks the launches that are pending (R279). -/
structure Grid where
  id : Nat
  ctx : Nat
  queue : Nat
  prio : Nat
  kernel : Kernel
  teams : Nat
  next : Nat
  live : Nat
  waves : Nat
  pair : Bool
  roles : List Role
  shelf : Nat
  ack : W64
  done : W64
  root : Option Nat
  pending : Bool
  order : Nat
  since : Nat
  placed : Bool
  ended : Bool
  deriving DecidableEq, Repr

/-- A task of a cluster's pool, or one spawned and not yet accepted (R31, R252). -/
structure Task where
  id : Nat
  ctx : Nat
  cluster : Nat
  scope : W64
  kernel : Kernel
  cnt : Nat
  shelf : Nat
  depth : Nat
  prio : Nat
  wave : Nat
  tag : W32
  accepted : Bool
  order : Nat
  since : Nat
  deriving DecidableEq, Repr

/-- A launch queue's registers (R273) and the launch that waits for its dependences (R277); `seen` holds what counters on peers held when they
were last read. -/
structure LaunchQ where
  base : W64
  en : Bool
  prio : Nat
  log2n : Nat
  widx : W32
  ridx : W32
  err : Bool
  code : Nat
  held : Option Nat
  deps : List (W64 × W64)
  seen : List (W64 × Nat)
  deriving DecidableEq, Repr

/-- A tensor layout record (R288). -/
structure Layout where
  rank : Nat
  ty : Ty
  base : W64
  dim : List Nat
  stride : List Int
  box : List Nat
  deriving DecidableEq, Repr

/-- A chain-command descriptor (R294). -/
structure Chain where
  src0 : W64
  src1 : W64
  dst : W64
  count : Nat
  t0 : Ty
  t1 : Ty
  td : Ty
  ops : List (Nat × Nat)
  k0 : W32
  k1 : W32
  deriving DecidableEq, Repr

/-- What an engine operation does (R245 to R247). -/
inductive EngKind
  | copy (src : Layout) (idx : Option Layout) (dst : Layout)
  | multi (src : Layout) (off : Nat) (teams : List Nat) (landing : Option Nat)
  | chain (c : Chain)
  deriving DecidableEq, Repr

/-- Why an engine operation is to be aborted at its next chunk boundary: by R35, R158 or R159 with code 3, or for a lost lock
entry with code 2 (R333). -/
inductive AbortWhy
  | cancel | lock
  deriving DecidableEq, Repr

/-- What stopped an engine operation: the traversal offset and the address of its first fault, with the cause and peer of the failure that
came first (R53, R242, R243, R321). -/
structure EngFault where
  off : Nat
  addr : W64
  cause : Nat
  peer : W32
  deriving DecidableEq, Repr

/-- An engine operation (R242, R243, R292, R296). `slot` is the die slot of its context on its die, `chunk` the next chunk, `fetched` holds
source elements that a peer has returned, `poison` the traversal offset, line and generic address of the first poisoned source byte, `fault`
what stopped it, `far` the elements that have still to leave for peers (R318) and `farPois` the lines of peers that receive poison (R297),
`stage` counts the steps of a completion, or from 10 of an abort, whose block lies on a peer. -/
structure EngOp where
  id : Nat
  kind : EngKind
  wave : Nat
  team : Nat
  ctx : Nat
  core : Nat
  asid : Nat
  die : Nat
  slot : Option Nat
  engine : Nat
  tag : W32
  scope : W64
  comp : W64
  running : Bool
  chunk : Nat
  fetched : List (W64 × W64 × Bool)
  poison : Option (Nat × Nat × W64)
  fault : Option EngFault
  abort : Option AbortWhy
  stage : Nat
  far : List Elem
  farPois : List Nat
  order : Nat
  deriving DecidableEq, Repr

/-- What a range lock is keyed by (R85). -/
inductive LockKey
  | global (asid : Nat) | shelf (team : Nat) | annex (ctx die : Nat) | stack (wave : Nat)
  deriving DecidableEq, Repr

/-- A range-lock entry of a die's table (R85, R333). `both` locks reads too. -/
structure Lock where
  die : Nat
  index : Nat
  key : LockKey
  lo : Nat
  hi : Nat
  both : Bool
  op : Nat
  damaged : Bool
  deriving DecidableEq, Repr

/-- An MMA in flight (R214 to R216): its source registers, the captured sources of the leader, the operation whose result it takes
as C inside the array, and how far it is. `inner` holds that result once known and, once the operation has left the array, its own,
for the two halves. `bindsL`, `bindsT` and `bounds` are the bindings of the two halves and the team's bound registers at its issue (R208,
R209). -/
structure MmaOp where
  id : Nat
  leader : Nat
  twin : Nat
  pair : Nat
  shape : Nat
  ta : Ty
  tb : Ty
  d : Nat
  a : Nat
  b : Nat
  c : Nat
  srcA : List (List W32)
  srcB : List (List W32)
  srcC : List (List W32)
  dead : Mask
  chained : Option Nat
  inner : Option (List (List W32) × List (List W32))
  started : Bool
  left : Bool
  lazyLeft : Bool
  bindsL : List (Nat × Nat)
  bindsT : List (Nat × Nat)
  bounds : List Bound
  deriving DecidableEq, Repr

/-- The bindery of a die (R94): the queue of submitted batches, FULL, the batch being processed with its step, and the entries chosen
for moving, each with its catalogue entry. -/
structure Bindery where
  queue : List W64
  full : Bool
  batch : Option W64
  step : Nat
  moving : List (Nat × W64)
  deriving DecidableEq, Repr

/-- Who waits for the answer of an outgoing packet; `ack` is an increment of an ACK or DONE counter (R350), `heal` the heal of a reference
word on a peer (R92), `dep` a read of a dependence counter for a launch queue (R277), `reader` a read of a record at issue. -/
inductive Owner
  | slip (wave : Nat) (tag : W32) | tryw (wave : Nat) | engine (op : Nat) | ack | heal (ctx : Nat) | dep (queue : Nat) | reader (wave : Nat) | nobody
  deriving DecidableEq, Repr

/-- An outgoing request packet that has not been answered (R316 to R321). `kind` is 0 write, 1 read, 2 atomic. `hold` keeps a packet whose
lane data is still to be read (R130); `queued` says that it waits to leave, `first` when it first left, `ins` the instruction whose
registers `srcs` a retransmission reads again, where it claimed a slot (R130, R320), `poison` the lines of its range that a write carries poisoned
(R297, R332). -/
structure OutPkt where
  id : Nat
  space : SeqSpace
  seq : W32
  dinc : BitVec 16
  cls : Nat
  kind : Nat
  acc : Access
  owner : Owner
  hold : Bool
  queued : Bool
  first : Option Nat
  last : Nat
  ins : Option Instr
  srcs : List Nat
  poison : List Nat
  deriving DecidableEq, Repr

/-- A sequence space as a source (R82, R84, R318). -/
structure SeqOut where
  space : SeqSpace
  next : W32
  resync : Bool
  deriving DecidableEq, Repr

/-- A reply of the device: an ack, nak or response, with KIND, the incarnation of its destination, traffic class and the records whose data is
poisoned (R316, R319, R320, R323, R324). -/
structure OutReply where
  peer : Nat
  dinc : BitVec 16
  kind : Nat
  cls : Nat
  space : SeqSpace
  seq : W32
  status : Nat
  results : List W64
  poison : List Nat
  deriving DecidableEq, Repr

/-- A sequence space as a destination: the lowest number not accepted, the numbers above it that are, and the latest replies. `refused` says that a
packet of a stream has been refused, so that the later ones are too until the space is resynchronised (R84). -/
structure SeqIn where
  space : SeqSpace
  refused : Bool
  expected : W32
  accepted : List W32
  responses : List OutReply
  deriving DecidableEq, Repr

/-- A flow's plane and when it last sent (R315). -/
structure Flow where
  peer : Nat
  streamed : Bool
  sub : Nat
  plane : Nat
  last : Nat
  deriving DecidableEq, Repr

/-- The fabric (R312 to R324). `sent` counts the flits that each plane's port has sent and `retries` the link retries of one of them, by its
number; `replies` are those that wait to leave, `buffers` holds for each plane the packet that its port sent last, with its tag. -/
structure Fabric where
  joined : Bool
  id : BitVec 9
  inc : BitVec 16
  everJoined : Bool
  en : Bool
  joining : Bool
  tmo : Nat
  rto : Nat
  skew : Nat
  stale : W32
  classes : List (Nat × W32)
  peers : List (Nat × (BitVec 2 × BitVec 16))
  planes : List Nat
  sent : List (Nat × Nat)
  retries : List (Nat × Nat × Nat)
  flows : List Flow
  rr : List (Nat × Nat)
  admitted : List (Nat × Nat × Nat)
  out : List OutPkt
  spacesOut : List SeqOut
  spacesIn : List SeqIn
  replies : List OutReply
  buffers : List (Nat × List (List Byte) × W64)
  deriving DecidableEq, Repr

/-- A packet of a network message: its offset and length, whether it has left, is acknowledged, how often it was resent, and when
it was last sent or parked away (R329, R330). -/
structure NetPart where
  id : Nat
  off : Nat
  len : Nat
  sent : Bool
  acked : Bool
  resent : Nat
  last : Nat
  wanted : Bool
  data : List Byte
  deriving DecidableEq, Repr

/-- A network message this device initiated (R238 to R240, R330). `serial` names the state that the connection's entry held (R328, log 95), `ready`
says that its connection context is held (R328), `failure` the cause with which it failed; a failed message is kept for later flushes (R240). -/
structure NetMsg where
  id : Nat
  wave : Nat
  ctx : Nat
  asid : Nat
  tag : W32
  conn : Nat
  serial : Nat
  op : NetOp
  win : Nat
  key : BitVec 16
  roff : W64
  laddr : W64
  len : Nat
  aop : Aop
  atyp : Ty
  opnd : W64
  cntr : W64
  msg : W32
  parts : List NetPart
  ready : Bool
  failure : Option Nat
  deriving DecidableEq, Repr

/-- A message this device receives: the packets placed and the bytes they hold, and a kept NATOM result (R330). `serial` names the receive
state that the connection's entry names (R328, log 95). -/
structure NetRecv where
  serial : Nat
  msg : W32
  offs : List Nat
  bytes : Nat
  result : Option W64
  deriving DecidableEq, Repr

/-- An answer that leaves a network port: acknowledgement (0), refusal (1) or context miss (4), with response data. -/
structure NetReply where
  conn : Nat
  msg : W32
  off : Nat
  status : Nat
  data : List Byte
  deriving DecidableEq, Repr

/-- The network (R326 to R330). `cache` lists the cached connection contexts, least recently used first. -/
structure Net where
  port : BitVec 16
  winBase : W64
  ctxBase : W64
  cache : List Nat
  msgs : List NetMsg
  recv : List NetRecv
  parked : List NetPacket
  replies : List NetReply
  deriving DecidableEq, Repr

/-- An error-record bank (R335). `ceAt` is the clk in which its corrected count raised CEVEC (R336). -/
structure Bank where
  valid : Bool
  ovf : Bool
  cls : Nat
  transient : Bool
  spared : Bool
  retired : Bool
  count : Nat
  src : Nat
  addr : W64
  synd : W64
  misc : W64
  raised : Bool
  ceAt : Option Nat
  deriving DecidableEq, Repr

/-- Reliability, partitions, latency, security, power (R331 to R348). `tests` are the targeted self-tests under way, `testCores` the cores that
take no team for one, `spares` how many spares an array or pipe of a unit has used (R337), `images` the firmware that runs (R345). -/
structure Rel where
  banks : List (Nat × Bank)
  errThresh : Nat
  alVec : Nat
  latVec : Nat
  mcVec : Nat
  ceVec : Nat
  segs : List (Nat × Nat)
  slices : List Nat
  cores : List Nat
  req : Bool
  testing : List Nat
  wdgEn : Bool
  wdgTmo : Nat
  act : List W64
  shd : List W64
  parts : List (Nat × (Bool × Nat))
  cksum : W32
  seq : W32
  badSum : Bool
  commit : Nat
  latBound : List (Nat × W64)
  latStat : List (Nat × W64)
  samples : List (Nat × Nat)
  alarm : BitVec 4
  erased : Bool
  lock : Bool
  erase : Bool
  keys : Bool
  pwr : BitVec 2
  pwrGoal : Option (BitVec 2)
  minVersion : Nat
  powered : Bool
  mpRunning : Bool
  links : Bool
  tests : List (FailUnit × Nat)
  testCores : List Nat
  spares : List (FailUnit × Nat × Nat)
  images : List FirmwareImage
  deriving DecidableEq, Repr

/-- A cached translation (R303): ASID, page base, page size, leaf entry, its physical address. -/
structure TlbEntry where
  asid : Nat
  base : Nat
  size : Nat
  leaf : W64
  at_ : Nat
  deriving DecidableEq, Repr

/-- A line of a core's instruction cache (R351): the page it was fetched through, 60 bytes of slots and the line word. -/
structure ILine where
  core : Nat
  asid : Nat
  base : Nat
  size : Nat
  addr : W64
  bytes : List Byte
  deriving DecidableEq, Repr

/-- A page request outstanding or waiting (R308). -/
structure PageReq where
  asid : Nat
  page : W64
  sent : Bool
  group : Nat
  deriving DecidableEq, Repr

/-- The host link (R307, R308): cached host translations, answers that a waiting access has still to read, translation requests
in flight, page requests, the allowance, and the PASIDs whose page requests are stopped. -/
structure HostLink where
  ats : List (Nat × W64 × AtsEntry)
  left : List (Nat × W64 × AtsEntry)
  refusedPages : List (Nat × W64)
  asked : List (Nat × W64)
  requests : List PageReq
  nextGroup : Nat
  allowance : Nat
  stopped : List Nat
  barRead : List Byte
  deriving DecidableEq, Repr

/-- A compare and swap that heals a reference word (R92): the core of the load that found it, the word as its element, what it held and what
it is to hold. -/
structure Heal where
  core : Nat
  elem : Elem
  old : W64
  new : W64
  deriving DecidableEq, Repr

/-- An increment of a counter, or a heal, that waits: for the host's translation of its page (R307, R350), for a packet to commit to its line
(R83), or for room among the packets of its space (R318); `loud` says that the loss of the increment is recorded. -/
structure Due where
  ctx : Nat
  addr : W64
  loud : Bool
  heal : Option Heal
  deriving DecidableEq, Repr

/-- Who is issuing: a wave's execute slice, or its access slice. -/
inductive Agent
  | none | wave (w : Nat) | slice (w : Nat)
  deriving DecidableEq, Repr

/-- A move of the agenda: who or what moves next. Besides waves, slices and events: a lazy read that ends (R130), the passage of time (R4),
a write of an agent outside to host memory or the CXL tier, an eviction from a translation, instruction or catalogue cache (R303, R351,
R94), the new values that a retransmission reads (R130, R320), the loading of an object's idempotent regions and .access sections (R64,
R140, R262), and what the CXL and host links refuse for now (R309). -/
inductive Turn
  | wave (w : Nat)
  | slice (w : Nat)
  | event (i : Instr)
  | lazyRead (w slot : Nat) (newV : List (Nat × Mask)) (newS : List Nat)
  | tick (clk ns : Nat)
  | outside (sp : Space) (addr : Nat) (bytes : List Byte)
  | dropTranslation (asid base : Nat)
  | dropLine (core asid : Nat) (addr : W64)
  | colourSeen (core ctx heap : Nat)
  | region (exec start stop : W64)
  | accessEnd (start stop : W64)
  | resendRead (pkt : Nat) (parts : List (Nat × Mask))
  | links (refusals : List (Space × Nat × Nat))
  deriving DecidableEq, Repr

/-- The state of the device. `govWin` is the governor window in which `units` have been taken (R287), `latWin` the latency window of the samples
(R344), `dues` the increments and heals that wait, `refusals` the ranges of the CXL tier and the host that their links refuse or let time out for
now (R309). -/
structure State where
  hbm : Memory
  cxl : Memory
  host : Memory
  poison : List (Space × Nat)
  pending : List (Space × Nat)
  clk : Nat
  ns : Nat
  waves : List Wave
  teams : List Team
  ctxs : List Ctx
  grids : List Grid
  tasks : List Task
  queues : List LaunchQ
  ops : List EngOp
  locks : List Lock
  mmas : List MmaOp
  units : List (Nat × Nat)
  bindery : List Bindery
  colours : List (Nat × Nat × Nat × Nat)
  fab : Fabric
  net : Net
  rel : Rel
  link : HostLink
  tlb : List TlbEntry
  icache : List ILine
  hiTemp : Nat
  loTemp : Nat
  hot : List Nat
  droops : List (Nat × Nat)
  skipped : List (Nat × Nat)
  govEn : Bool
  govBudget : Nat
  govWin : Nat
  latWin : Nat
  dues : List Due
  refusals : List (Space × Nat × Nat)
  ctxEnd : W64
  cxltBase : W64
  cxltSize : Nat
  serials : List (Nat × Nat)
  interrupts : List Nat
  mpInterrupts : Nat
  regions : List (W64 × W64 × W64)
  accEnds : List (W64 × W64)
  agenda : List Turn
  cur : Agent
  free : Nat
  nextId : Nat
  deriving DecidableEq, Repr

/-- A launch queue at reset (R273). -/
def resetQueue : LaunchQ :=
  { base := 0, en := false, prio := 0, log2n := 0, widx := 0, ridx := 0, err := false, code := 0, held := none, deps := [], seen := [] }

/-- The fabric at reset (R312 to R314, R322, R324); no plane is up until its link has trained. -/
def resetFabric : Fabric :=
  { joined := false, id := 0, inc := 0, everJoined := false, en := false, joining := false, tmo := 10, rto := 20, skew := 8,
    stale := 0, classes := [], peers := [], planes := [], sent := [], retries := [], flows := [], rr := [], admitted := [], out := [],
    spacesOut := [], spacesIn := [], replies := [], buffers := [] }

/-- The network at reset (R326). -/
def resetNet : Net :=
  { port := 48640, winBase := 0, ctxBase := 0, cache := [], msgs := [], recv := [], parked := [], replies := [] }

/-- The registers of reliability, partitions, latency, security and power at reset (R335 to R347). -/
def resetRel : Rel :=
  { banks := [], errThresh := 16, alVec := 0, latVec := 0, mcVec := 0, ceVec := 0, segs := [], slices := [], cores := [],
    req := false, testing := [], wdgEn := true, wdgTmo := 100, act := List.replicate 96 0, shd := List.replicate 96 0,
    parts := [], cksum := 0, seq := 0, badSum := false, commit := 0, latBound := [], latStat := [], samples := [], alarm := 0,
    erased := false, lock := false, erase := false, keys := true, pwr := 0, pwrGoal := none, minVersion := 0,
    powered := false, mpRunning := false, links := false, tests := [], testCores := [], spares := [], images := [] }

/-- The host link at reset. -/
def resetLink : HostLink :=
  { ats := [], left := [], refusedPages := [], asked := [], requests := [], nextGroup := 0, allowance := 0, stopped := [], barRead := [] }

/-- A bindery at reset (R94). -/
def resetBindery : Bindery := { queue := [], full := false, batch := none, step := 0, moving := [] }

/-- The device at power-on: every register at its reset value, memories with nothing listed, no work resident. -/
def State.reset : State :=
  { hbm := [], cxl := [], host := [], poison := [], pending := [], clk := 0, ns := 0, waves := [], teams := [], ctxs := [],
    grids := [], tasks := [], queues := List.replicate 64 resetQueue, ops := [], locks := [], mmas := [], units := [],
    bindery := List.replicate 4 resetBindery, colours := [], fab := resetFabric, net := resetNet, rel := resetRel,
    link := resetLink, tlb := [], icache := [], hiTemp := 105, loTemp := 95, hot := [], droops := [], skipped := [],
    govEn := false, govBudget := 0x20, govWin := 0, latWin := 0, dues := [], refusals := [], ctxEnd := 0, cxltBase := 0, cxltSize := 0, serials := [], interrupts := [],
    mpInterrupts := 0, regions := [], accEnds := [], agenda := [], cur := .none, free := 0, nextId := 1 }

end Sys2Proof.Machine
end

