-- ==== Sys2Proof/Machine/Ops.lean ====
section
/-! DEFINITION. The named operations over the state: memories, waves, teams, contexts and scopes; registers; error records; barriers;
killing and retiring; taking a trap as one operation, and the return from it. -/

namespace Sys2Proof.Machine

/-! ### Memories -/

/-- One byte of a memory; an unlisted address reads zero (log 1). -/
def memGet : Memory → Nat → Byte
  | [], _ => 0
  | (x, b) :: r, a => if a = x then b else memGet r a

/-- One byte written, keeping the list rising and free of zeros. -/
def memPut : Memory → Nat → Byte → Memory
  | [], a, b => if b = 0 then [] else [(a, b)]
  | (x, c) :: r, a, b =>
    if x < a then (x, c) :: memPut r a b
    else if x = a then (if b = 0 then r else (a, b) :: r)
    else if b = 0 then (x, c) :: r else (a, b) :: (x, c) :: r

/-- The canonical form of a memory: rising addresses, no byte that an unlisted address reads as. -/
def Memory.wf : Memory → Bool
  | [] => true
  | [(_, b)] => b != 0
  | (x, b) :: (y, c) :: r => b != 0 && decide (x < y) && Memory.wf ((y, c) :: r)

/-- Bytes written from an address up. -/
def memPuts : Memory → Nat → List Byte → Memory
  | m, _, [] => m
  | m, a, b :: r => memPuts (memPut m a b) (a + 1) r

/-- Bytes read from an address up. -/
def memGets (m : Memory) (a : Nat) : Nat → List Byte
  | 0 => []
  | n + 1 => memGet m a :: memGets m (a + 1) n

/-- The little-endian number of `n` bytes (R3). -/
def memNat (m : Memory) (a n : Nat) : Nat := bytesToNat (memGets m a n)

/-! ### Waves, teams, contexts -/

/-- The wave of an identifier. -/
def findWave (s : State) (id : Nat) : Option Wave := s.waves.find? (fun w => w.id == id)

/-- A wave put back under its identifier. -/
def putWave (s : State) (w : Wave) : State := { s with waves := s.waves.map (fun x => if x.id = w.id then w else x) }

/-- A wave changed in place. -/
def modWave (s : State) (id : Nat) (f : Wave → Wave) : State :=
  { s with waves := s.waves.map (fun x => if x.id = id then f x else x) }

/-- A kernel with no section, for a team that is not there. -/
def noKernel : Kernel :=
  { exec := 0, trapPc := 0, flash := 0, flashN := 0, recipe := 0, access := 0, policy := 0, width := 32, lanes := 32, args := [],
    fromFsw := false }

/-- A barrier at team placement (R256). -/
def newBarrier (count : Nat) : Barrier :=
  { count := count, arrived := 0, exited := 0, removed := 0, phase := 0, bal := 0, waited := 0, fired := false }

/-- A bound register at team placement (R207, log 4). -/
def newBound : Bound := { fmt := .i32, act := 0, mn := 0, mx := 0 }

/-- An empty team, for a team that is not there. -/
def noTeam : Team :=
  { id := 0, ctx := 0, kind := .service, index := 0, core := 0, pair := false, rank := 0, prio := 0, kernel := noKernel,
    shelfSize := 0, shelf := [], waves := [], pools := [0, 0], claims := [[], []], bars := [], bounds := [], saved := none,
    imageKept := true, order := 0 }

/-- A context that is not there. -/
def noCtx : Ctx :=
  { id := 0, desc := 0, asid := 0, part := 0, priv := false, annexSize := 0, ptroot := 0, heapt := 0, flog := 0, flogn := 1,
    flogw := 0, fswDesc := 0, saveAt := 0, saveSize := 0, slice := 0, vec := 0, prioCap := 0, status := 0, halted := false,
    haltWave := none, dies := [none, none, none, none], annex := [[], [], [], []], cursor := 0, scopes := [], gens := [],
    fswWave := none, fswPlaced := false, records := [], since := none, images := [], sealed := false }

/-- The team of an identifier. -/
def getTeam (s : State) (id : Nat) : Team := (s.teams.find? (fun t => t.id == id)).getD noTeam

/-- A team changed in place. -/
def modTeam (s : State) (id : Nat) (f : Team → Team) : State :=
  { s with teams := s.teams.map (fun x => if x.id = id then f x else x) }

/-- The context of an identifier. -/
def getCtx (s : State) (id : Nat) : Ctx := (s.ctxs.find? (fun c => c.id == id)).getD noCtx

/-- A context changed in place. -/
def modCtx (s : State) (id : Nat) (f : Ctx → Ctx) : State :=
  { s with ctxs := s.ctxs.map (fun x => if x.id = id then f x else x) }

/-- The half of its team that a wave belongs to: 1 for the follower half of a matrix team (R23). -/
def halfOf (t : Team) (idx : Nat) : Nat := if t.pair ∧ t.waves.length / 2 ≤ idx then 1 else 0

/-- Whether a wave still counts as resident work: neither retired nor gone. -/
def isLive (w : Wave) : Bool := w.ctl.st != .retired

/-- The control state with a state and a wait. -/
def setSt (w : Wave) (st : WState) (wt : Wait) : Wave := { w with ctl := { w.ctl with st := st, wait := wt } }

/-! ### Spaces -/

/-- The memory of a space. -/
def getMem (s : State) : Space → Memory
  | .hbm => s.hbm
  | .cxl => s.cxl
  | .host => s.host
  | .shelf t => (getTeam s t).shelf
  | .annex c d => ((getCtx s c).annex[d]?).getD []
  | .stack w => match findWave s w with | some x => x.stack | none => []

/-- The memory of a space replaced. -/
def setMem (s : State) (sp : Space) (m : Memory) : State :=
  match sp with
  | .hbm => { s with hbm := m }
  | .cxl => { s with cxl := m }
  | .host => { s with host := m }
  | .shelf t => modTeam s t (fun x => { x with shelf := m })
  | .annex c d => modCtx s c (fun x => { x with annex := setAt x.annex d m })
  | .stack w => modWave s w (fun x => { x with stack := m })

/-- One byte of a space. -/
def readByte (s : State) (sp : Space) (a : Nat) : Byte := memGet (getMem s sp) a

/-- `n` bytes of a space as a number (R3). -/
def readNat (s : State) (sp : Space) (a n : Nat) : Nat := memNat (getMem s sp) a n

/-- Whether a line of a space is poisoned (R332). -/
def isPoison (s : State) (sp : Space) (a : Nat) : Bool := s.poison.contains (sp, a / 64)

/-- A line marked poisoned. -/
def addPoison (s : State) (sp : Space) (line : Nat) : State :=
  if s.poison.contains (sp, line) then s else { s with poison := s.poison ++ [(sp, line)] }

/-- The lines of which a set of written bytes covers every byte (R332). -/
def wholeLines (offs : List Nat) : List Nat :=
  let ls := (offs.map (· / 64)).eraseDups
  ls.filter (fun l => (List.range 64).all (fun i => offs.contains (64 * l + i)))

/-- The poison of the lines that a write covers whole is cleared (R332). -/
def clearPoison (s : State) (sp : Space) (offs : List Nat) : State :=
  if s.poison.isEmpty then s
  else
    let ls := wholeLines offs
    { s with poison := s.poison.filter (fun p => !(p.1 == sp && ls.contains p.2)) }

/-- The highest offset of its stack that a wave has written, after a write of `n` bytes at `a` (R61). -/
def noteStack (s : State) (sp : Space) (a n : Nat) : State :=
  match sp with
  | .stack w => modWave s w (fun x => { x with stackTop := max x.stackTop (a + n) })
  | _ => s

/-- Bytes written to a space, without the poison rule of whole lines. -/
def writeBytes (s : State) (sp : Space) (a : Nat) (l : List Byte) : State :=
  noteStack (setMem s sp (memPuts (getMem s sp) a l)) sp a l.length

/-- A write of one agent that covers a range of bytes. -/
def writeRange (s : State) (sp : Space) (a : Nat) (l : List Byte) : State :=
  clearPoison (writeBytes s sp a l) sp ((List.range l.length).map (a + ·))

/-- The end of local HBM (R298). -/
def hbmEnd : Nat := 0x8000000000

/-- A system address's place (R350): local HBM below its end, or host memory. -/
def sysPlace (a : W64) : Option (Space × Nat) :=
  if a.getLsbD 63 then some (.host, a.toNat % 2 ^ 63) else if a.toNat < hbmEnd then some (.hbm, a.toNat) else none

/-- `n` bytes at a system address. -/
def sysRead (s : State) (a : W64) (n : Nat) : Option Nat := (sysPlace a).map (fun p => readNat s p.1 p.2 n)

/-- Bytes written at a system address; a write that has no place is lost (R350). -/
def sysWrite (s : State) (a : W64) (l : List Byte) : State :=
  match sysPlace a with
  | some (sp, o) => writeRange s sp o l
  | none => s

/-! ### Numbers, time, free values -/

/-- A 64-bit value. -/
def w64 (x : Nat) : W64 := BitVec.ofNat 64 x

/-- A 32-bit value. -/
def w32 (x : Nat) : W32 := BitVec.ofNat 32 x

/-- `n` free words, and the state with the counter advanced (R24, R61, log 3). -/
def freeWords (s : State) (n : Nat) : List W32 × State :=
  ((List.range n).map (fun i => Config.freeWord (s.free + i)), { s with free := s.free + n })

/-- A new identifier of the model. -/
def fresh (s : State) : Nat × State := (s.nextId, { s with nextId := s.nextId + 1 })

/-! ### Core numbering (R7) -/

/-- The die of a core. -/
def dieOf (core : Nat) : Nat := core / 48
/-- The cluster of a core. -/
def clusterOf (core : Nat) : Nat := core / 16
/-- The pair of a core. -/
def pairOf (core : Nat) : Nat := core / 2

/-! ### Error records and interrupts (R334 to R337) -/

/-- An empty bank. -/
def noBank : Bank :=
  { valid := false, ovf := false, cls := 0, transient := false, spared := false, retired := false, count := 0, src := 0, addr := 0,
    synd := 0, misc := 0, raised := false, ceAt := none }

/-- A bank's contents. -/
def getBank (s : State) (b : Nat) : Bank := assoc s.rel.banks b noBank

/-- A bank replaced. -/
def putBank (s : State) (b : Nat) (x : Bank) : State := { s with rel := { s.rel with banks := assocPut s.rel.banks b (some x) } }

/-- An MSI-X interrupt raised. -/
def raiseVec (s : State) (v : Nat) : State := { s with interrupts := s.interrupts ++ [v] }

/-- The corrected count that raises CEVEC; 0 is treated as 1 (R336). -/
def threshOf (s : State) : Nat := if s.rel.errThresh = 0 then 1 else s.rel.errThresh

/-- How a new record of a class meets its bank (R336). -/
def meetBank (old : Bank) (cls src : Nat) (addr synd misc : W64) : Bank :=
  if !old.valid then { noBank with valid := true, cls := cls, count := 1, src := src, addr := addr, synd := synd, misc := misc }
  else if old.cls < cls then
    { noBank with valid := true, ovf := true, cls := cls, count := 1, src := src, addr := addr, synd := synd, misc := misc,
                  raised := old.raised }
  else if old.cls = cls then { old with count := min (old.count + 1) 65535, ovf := true }
  else { old with ovf := true }

/-- A list without the last of its elements that are equal to one. -/
def dropLast (x : Nat) (l : List Nat) : List Nat := (l.reverse.erase x).reverse

/-- A bank and the interrupts as a record of a higher class finds them: a corrected record of the same clk comes after it, so that the CEVEC
which that record raised is not raised (R336). -/
def higherFirst (s : State) (bank cls : Nat) : State :=
  let b := getBank s bank
  if 1 < cls && b.cls == 1 && b.ceAt == some s.clk then
    putBank { s with interrupts := dropLast s.rel.ceVec s.interrupts } bank { b with raised := false, ceAt := none }
  else s

/-- A 64-bit value that the manual leaves open. -/
def freeW64 (n : Nat) : W64 := (Config.freeWord n).setWidth 64 ||| ((Config.freeWord (n + 1)).setWidth 64 <<< 32)

/-- A new error record and the interrupts it raises (R336): 1 corrected, 2 deferred, 3 uncorrected. An address or a syndrome that the error does not
carry is a free value (log 115). -/
def errRecord (s0 : State) (bank cls src : Nat) (addr synd : Option W64) (misc : W64) : State :=
  let s := higherFirst { s0 with free := s0.free + 4 } bank cls
  let b := meetBank (getBank s bank) cls src (addr.getD (freeW64 s0.free)) (synd.getD (freeW64 (s0.free + 2))) misc
  let s1 := putBank s bank b
  if cls = 1 then
    if b.cls = 1 ∧ threshOf s ≤ b.count ∧ !b.raised then
      raiseVec (putBank s bank { b with raised := true, ceAt := some s.clk }) s.rel.ceVec
    else s1
  else if cls = 2 then raiseVec s1 s.rel.ceVec
  else { raiseVec s1 s.rel.mcVec with mpInterrupts := s1.mpInterrupts + 1 }

/-- A targeted self-test started for a row of a unit (R337). -/
def startTest (s : State) (u : FailUnit) (row : Nat) : State :=
  if s.rel.tests.contains (u, row) then s else { s with rel := { s.rel with tests := s.rel.tests ++ [(u, row)] } }

/-- The row in ERR_MISC (R335). -/
def miscRow (misc : W64) : Nat := bits misc.toNat 16 32

/-- A record of an array row: written, and the test of the row started (R336, R337). -/
def rowRecord (s : State) (u : Option FailUnit) (bank cls src : Nat) (addr synd : Option W64) (misc : W64) : State :=
  let s1 := errRecord s bank cls src addr synd misc
  match u with | some x => startTest s1 x (miscRow misc) | none => s1

/-- The present governor window of 1 µs of real time (R287). -/
def govNow (s : State) : Nat := s.ns / 1000

/-- ERR_MISC: bits 15:0 core or port, bits 47:16 the row (R335). -/
def miscOf (unit row : Nat) : W64 := w64 (unit % 65536 + 65536 * (row % 2 ^ 32))

/-! ### Scopes (R33, R35, R253) -/

/-- The identifier of a scope (R253). -/
def scopeId (r : ScopeRec) : W64 := w64 (r.slot + 65536 * r.gen)

/-- The live scope that an identifier names in a context. -/
def findScope (c : Ctx) (id : W64) : Option ScopeRec := c.scopes.find? (fun r => scopeId r == id && id != 0)

/-- Whether a scope is a descendant of a slot, or that slot itself; `fuel` bounds the depth of 16. -/
def inSubtree (c : Ctx) : Nat → Nat → Nat → Bool
  | 0, slot, top => slot == top
  | n + 1, slot, top =>
    slot == top ||
    match c.scopes.find? (fun r => r.slot == slot) with
    | some r => match r.parent with | some p => inSubtree c n p top | none => false
    | none => false

/-- Whether an identifier names a scope of the subtree of a slot. -/
def idInSubtree (c : Ctx) (id : W64) (top : Nat) : Bool :=
  match findScope c id with
  | some r => inSubtree c 17 r.slot top
  | none => false

/-- Whether the scope of an identifier is cancelled in a context. -/
def scopeCancelled (c : Ctx) (id : W64) : Bool :=
  match findScope c id with
  | some r => r.cancelled
  | none => false

/-- Whether a wave's scope is cancelled, so that it is killed at its next kill point (R35); a wave that a halt stops, parked or not, is not
(R158). -/
def killDue (s : State) (w : Wave) : Bool :=
  w.ctl.wait != .stopped && !w.ctl.stopping && scopeCancelled (getCtx s w.ctx) w.scope

/-- A wave that waits at a kill point its instruction has reached (R29, R35). -/
def killableWait (w : Wave) : Bool :=
  match w.ctl.wait with
  | .hwait _ | .waitb _ | .waitt | .claim _ | .bars _ _ | .barw _ _ | .tryw _ _ _ => true
  | _ => false

/-- The abort of an engine operation asked for (R35, R158, R159, R333): a lost lock gives the outcome that R333 states, whatever else has asked. -/
def askAbort (why : AbortWhy) (o : EngOp) : EngOp := { o with abort := some (if o.abort = some .lock then .lock else why) }

/-- The slip of a tag dropped from a wave. -/
def dropSlip (w : Wave) (t : W32) : Wave := { w with hz := { w.hz with slips := w.hz.slips.filter (fun x => x.tag != t) } }

/-- The marking of CANCEL (R35): the subtree's scopes, its queued tasks dropped, its engine operations to be aborted. -/
def cancelMark (s : State) (ctx slot : Nat) : State :=
  let c := getCtx s ctx
  let s1 := modCtx s ctx (fun c => { c with scopes := c.scopes.map (fun r =>
    if inSubtree c 17 r.slot slot then { r with cancelled := true } else r) })
  let gone := s.tasks.filter (fun t => t.ctx == ctx && idInSubtree c t.scope slot)
  let s2 := gone.foldl (fun a t => if t.accepted then a else modWave a t.wave (fun w => dropSlip w t.tag)) s1
  { s2 with
    tasks := s2.tasks.filter (fun t => !(t.ctx == ctx && idInSubtree c t.scope slot)),
    ops := s2.ops.map (fun o => if o.ctx == ctx && idInSubtree c o.scope slot then askAbort .cancel o else o) }

/-! ### Tags and the horizon (R44, R45) -/

/-- Tag a precedes tag b (R45). -/
def tagBefore (a b : W32) : Bool := let d := (b - a).toNat; decide (1 ≤ d) && decide (d < 2 ^ 31)

/-- The oldest of a list of tags. -/
def oldestTag : List W32 → Option W32
  | [] => none
  | t :: r => match oldestTag r with
    | none => some t
    | some u => if tagBefore u t then some u else some t

/-- %hzn (R45). -/
def hznOf (w : Wave) : W32 := (oldestTag (w.hz.slips.map (·.tag))).getD w.hz.tag

/-- Whether a tag is passed (R45): no slip of it, or of an older one, is held. -/
def passed (w : Wave) (t : W32) : Bool := tagBefore t (hznOf w)

/-- The tag that HWAIT and BHZ use for an operand (R48). -/
def waitTag (w : Wave) (t : W32) : W32 := if tagBefore t w.hz.tag then t else w.hz.tag - 1

/-! ### Barriers (R37, R256) -/

/-- Bit w of a 16-bit set of waves. -/
def waveBit (i : Nat) : BitVec 16 := BitVec.ofNat 16 (2 ^ i)

/-- Whether the current phase of a barrier is complete. -/
def barComplete (b : Barrier) : Bool := decide (0 < b.count) && popcount 16 b.arrived.toNat == b.count && decide (b.bal ≤ 0)

/-- A wave released from a wait at a completed phase; one whose scope is cancelled never leaves its wait (R35). -/
def releaseAt (s : State) (team n : Nat) (ph : W32) (w : Wave) : Wave :=
  if w.team = team ∧ !killDue s w then
    match w.ctl.wait with
    | .bars m p | .barw m p => if m = n ∧ p = ph then setSt w (if w.ctl.st == .preempted then .preempted else .ready) .idle else w
    | _ => w
  else w

/-- A barrier's completion, when its phase is complete. -/
def barCheck (s : State) (team n : Nat) : State :=
  match (getTeam s team).bars[n]? with
  | some b =>
    if barComplete b then
      let b1 : Barrier := { b with phase := b.phase + 1, arrived := 0, waited := 0, fired := false }
      let s1 := modTeam s team (fun t => { t with bars := setAt t.bars n b1 })
      { s1 with waves := s1.waves.map (releaseAt s team n b.phase) }
    else s
  | none => s

/-- Every barrier of a team checked. -/
def barCheckAll (s : State) (team : Nat) : State := (List.range 16).foldl (fun a n => barCheck a team n) s

/-- A killed wave leaves every barrier of its team, with its arrival of the current phase (R37). -/
def barLeave (s : State) (w : Wave) : State :=
  let f (b : Barrier) : Barrier :=
    if b.removed &&& waveBit w.idx == 0 then
      { b with count := b.count - 1, removed := b.removed ||| waveBit w.idx, arrived := b.arrived &&& ~~~ (waveBit w.idx) }
    else b
  barCheckAll (modTeam s w.team (fun t => { t with bars := t.bars.map f })) w.team

/-- The status word of a barrier (R156). -/
def barStatus (b : Barrier) : W64 :=
  w64 (b.count + 2 ^ 16 * b.arrived.toNat + 2 ^ 32 * b.exited.toNat + 2 ^ 48 * b.removed.toNat)

/-! ### Program counters (R118, R134) -/

/-- The slot number of a program counter that names a slot. -/
def slotIndex (pc : W64) : Option Nat :=
  let r := pc.toNat % 64
  if r % 12 = 0 ∧ r < 60 then some (r / 12) else none

/-- The address of a program counter's line. -/
def lineAddr (pc : W64) : W64 := w64 (pc.toNat / 64 * 64)

/-- The program counter of the slot after `n` slots, modulo 2^64. -/
def pcPlus (pc : W64) (n : Int) : W64 :=
  let cur : Int := ((pc.toNat / 64 * 5 + pc.toNat % 64 / 12 : Nat) : Int)
  let t := cur + n
  let line : Int := t / 5 * 64 + 12 * (t % 5)
  BitVec.ofInt 64 line

/-- The next program counter in sequential flow, a literal slot skipped (R118, R131). -/
def nextPc (pc : W64) (hasLit : Bool) : W64 := pcPlus pc (if hasLit then 2 else 1)

/-! ### The fault log (R270) -/

/-- An entry of a context's fault log, and FLOGW in its descriptor. -/
def flogWrite (s : State) (ctx : Nat) (l : List Byte) : State :=
  let c := getCtx s ctx
  let s1 := sysWrite s (c.flog + w64 (256 * (c.flogw.toNat % c.flogn))) l
  let s2 := sysWrite s1 (c.desc + 0x24) (natToBytes 4 (c.flogw.toNat + 1))
  modCtx s2 ctx (fun c => { c with flogw := c.flogw + 1 })

/-- STATUS of a context's descriptor (R271). -/
def setStatus (s : State) (ctx st : Nat) : State :=
  let c := getCtx s ctx
  modCtx (sysWrite s (c.desc + 0x47) [BitVec.ofNat 8 st]) ctx (fun c => { c with status := st })

/-! ### Frames (R52, R57) -/

/-- The classes of traps (R52). -/
inductive TrapClass
  | precise | horizon | event | machine
  deriving DecidableEq, Repr

/-- A trap about to be taken, with what its frame reports of the operation (R57). -/
structure TrapInfo where
  cause : Nat
  cls : TrapClass
  pcdlv : W64
  pcop : W64
  tag : Option W32
  faddr : W64
  rcd : OpRec
  lanes : Mask
  mixed : Bool
  desched : Bool
  deriving DecidableEq, Repr

/-- An empty operand record. -/
def noRec : OpRec := { iword := 0, a := 0, b := 0, c := 0, peer := 0, stream := 0, scope := 0 }

/-- The count of held slips that PROV reports (R57). -/
def provOf (w : Wave) (t : Option W32) : Nat :=
  match t with
  | some x => (w.hz.slips.filter (fun y => tagBefore x y.tag)).length
  | none => w.hz.slips.length

/-- FLAGS of a frame (R57). -/
def frameFlags (t : TrapInfo) (hrdisc : Nat) (more : Bool) : Nat :=
  b2n (t.cls == .precise) + 2 * b2n (t.cls == .horizon) + 4 * b2n (t.cls == .event) + 8 * b2n more
    + 256 * min hrdisc 255 + 2 ^ 16 * b2n t.desched + 2 ^ 17 * b2n t.mixed

/-- The 256 bytes of a trap frame (R57). -/
def frameBytes (w : Wave) (t : TrapInfo) (hrdisc : Nat) (more : Bool) : List Byte :=
  natToBytes 4 t.cause ++ natToBytes 4 (frameFlags t hrdisc more) ++ natToBytes 8 t.pcdlv.toNat ++ natToBytes 8 t.pcop.toNat
    ++ natToBytes 4 (t.tag.getD 0).toNat ++ natToBytes 4 (hznOf w).toNat
    ++ natToBytes 4 (provOf w (if t.cls == .horizon then t.tag else none))
    ++ natToBytes 4 (w.hz.tag - 1).toNat ++ natToBytes 8 t.faddr.toNat ++ natToBytes 16 t.rcd.iword.toNat
    ++ natToBytes 8 t.rcd.a.toNat ++ natToBytes 8 t.rcd.b.toNat ++ natToBytes 8 t.rcd.c.toNat ++ natToBytes 4 t.rcd.peer.toNat
    ++ natToBytes 4 t.rcd.stream.toNat ++ natToBytes 8 t.rcd.scope.toNat ++ natToBytes 8 0 ++ natToBytes 128 t.lanes.toNat
    ++ natToBytes 4 w.regs.cc.toNat ++ natToBytes 4 0 ++ natToBytes 8 w.scope.toNat

/-- The trap of a failed slip (R53). -/
def slipTrap (w : Wave) (x : Slip) (f : SlipFail) : TrapInfo :=
  { cause := f.cause, cls := .horizon, pcdlv := w.ctl.pc, pcop := x.pc, tag := some x.tag, faddr := f.faddr,
    rcd := { x.rcd with peer := if f.peer == 0 then x.rcd.peer else f.peer }, lanes := f.lanes, mixed := f.mixed,
    desched := x.desched }

/-! ### Held stores (R49) -/

/-- The held stores younger than a failed tag are discarded, with the slips of those that are failable; their count. -/
def discardHeld (w : Wave) (t : W32) : Wave × Nat :=
  let gone := w.hz.held.filter (fun h => tagBefore t h.h)
  let tags := (gone.filter (·.failable)).map (·.h)
  ({ w with hz := { w.hz with
      held := w.hz.held.filter (fun h => !tagBefore t h.h),
      slips := w.hz.slips.filter (fun x => !(x.held && tags.contains x.tag)),
      lazies := w.hz.lazies.filter (fun z => match z.target with
        | .held k => !(gone.any (fun g => g.key == k))
        | _ => true) } }, gone.length)

/-- Every held store discarded, as for a killed wave (R35). -/
def discardAllHeld (w : Wave) : Wave :=
  { w with hz := { w.hz with
      held := [], slips := w.hz.slips.filter (fun x => !x.held),
      lazies := w.hz.lazies.filter (fun z => match z.target with
        | .held _ => false
        | _ => true) } }

/-! ### The fault log in place of a delivery (R38, R40, R55, R158) -/

/-- Failures of a wave that are pending and not issued in handler mode. -/
def pendingSlips (w : Wave) : List Slip := w.hz.slips.filter (fun x => x.ended && !x.delivered)

/-- The pending failure of the oldest tag (R53). -/
def firstPending (w : Wave) : Option Slip :=
  match oldestTag ((pendingSlips w).map (·.tag)) with
  | some t => (pendingSlips w).find? (fun x => x.tag == t)
  | none => none

/-- A failed slip written to the fault log: held stores younger than it are discarded and counted, and it leaves the file. -/
def logSlip (s : State) (w : Wave) (x : Slip) : State × Wave :=
  let f := x.fail.getD { cause := 0, faddr := 0, lanes := 0, mixed := false, peer := 0 }
  let (w1, n) := discardHeld w x.tag
  let s1 := flogWrite s w.ctx (frameBytes w (slipTrap w x f) n false)
  (s1, dropSlip w1 x.tag)

/-- Every pending failure of a wave written to the fault log, oldest first; `fuel` bounds the slips. -/
def logPending : Nat → State → Wave → State × Wave
  | 0, s, w => (s, w)
  | n + 1, s, w => match firstPending w with
    | some x => let (s1, w1) := logSlip s w x; logPending n s1 w1
    | none => (s, w)

/-- The pending event traps of a wave written to the fault log (R55). -/
def logEvents (s : State) (w : Wave) : State × Wave :=
  let mk (cause : Nat) (a b c : W64) : TrapInfo :=
    { cause := cause, cls := .event, pcdlv := w.ctl.pc, pcop := 0, tag := none, faddr := 0, rcd := { noRec with a := a, b := b, c := c },
      lanes := 0, mixed := false, desched := false }
  let s1 := if w.hz.overrun then flogWrite s w.ctx (frameBytes w (mk 0x19 0 0 0) 0 false) else s
  let s2 := match w.hz.timeout with
    | some (n, st, ph) => flogWrite s1 w.ctx (frameBytes w (mk 0x18 (w64 n) st (ph.setWidth 64)) 0 false)
    | none => s1
  (s2, { w with hz := { w.hz with overrun := false, timeout := none } })

/-! ### Killing a wave (R35, R37, R38) -/

/-- A wave leaves the CLAIM queue of its half (R28). -/
def claimLeave (s : State) (w : Wave) : State :=
  modTeam s w.team (fun t => { t with claims := t.claims.map (fun q => q.filter (fun x => x != w.id)) })

/-- A wave killed: its pending failures go to the fault log, with the held stores that they discard counted; it leaves its barriers, its
other held stores are discarded, its slice stops, its queues are discarded, and a park is abandoned with its record. It retires later. -/
def killCore (s : State) (id : Nat) : State :=
  match findWave s id with
  | none => s
  | some w =>
    if w.ctl.st == .killed ∨ w.ctl.st == .retired then s
    else
      let (s1, w1) := logPending 128 s w
      let w2 := discardAllHeld w1
      let w3 := { w2 with
        ctl := { w2.ctl with st := .killed, wait := .idle, park := none, only := none, again := false, rest := none, nopre := none, recipe := none },
        slice := { w2.slice with stopped := true },
        queues := [[], [], [], []],
        popped := [],
        hz := { w2.hz with overrun := false, timeout := none, machineCheck := false,
                           slips := w2.hz.slips.map (fun x => { x with openPark := false }) } }
      let s2 := claimLeave (putWave s1 w3) w3
      let s3 := modCtx s2 w.ctx (fun c => { c with
        records := c.records.filter (fun x => x != id), fswWave := if w.fsw then none else c.fswWave })
      barLeave s3 w3

/-! ### Halting and ending a context (R158, R272) -/

/-- A wave stopped by a halt: at once at its boundary; one that is parked or slaved stops later, and one that is leaving goes on. -/
def stopWave (w : Wave) : Wave :=
  match w.ctl.st with
  | .retiring | .killed | .retired | .preempted => w
  | .parked | .slaved => { w with ctl := { w.ctl with stopping := true } }
  | _ => { setSt w .waiting .stopped with ctl := { (setSt w .waiting .stopped).ctl with stopping := true } }

/-- Whether a wave no longer executes under a halt. -/
def isStopped (w : Wave) : Bool :=
  w.ctl.wait == .stopped || w.ctl.st == .retiring || w.ctl.st == .killed || w.ctl.st == .retired || w.ctl.st == .parked
    || w.ctl.st == .preempted

/-- The failures of stopped waves go to the fault log and are never delivered (R158). -/
def logStopped (s : State) (id : Nat) : State :=
  match findWave s id with
  | some w => if w.ctl.wait == .stopped || w.ctl.stopping then let (s1, w1) := logPending 128 s w; putWave s1 w1 else s
  | none => s

/-- A context halted: STATUS 1, every wave but the service wave and the issuer stopped, the CLAIM queues left (R158, R271). -/
def haltCtx (s : State) (ctx : Nat) (issuer : Option Nat) : State :=
  let s1 := setStatus s ctx 1
  let s2 := modCtx s1 ctx (fun c => { c with halted := true, haltWave := issuer })
  let s3 := { s2 with
    waves := s2.waves.map (fun (w : Wave) => if w.ctx = ctx ∧ !w.fsw ∧ some w.id ≠ issuer then stopWave w else w),
    teams := s2.teams.map (fun (t : Team) => if t.ctx = ctx then { t with claims := t.claims.map (fun _ => []) } else t) }
  (s3.waves.filter (fun (w : Wave) => w.ctx == ctx)).foldl (fun a w => logStopped a w.id) s3

/-- Whether every wave that a halt stops has stopped. -/
def allStopped (s : State) (ctx : Nat) : Bool :=
  s.waves.all (fun w => w.ctx != ctx || w.fsw || some w.id == (getCtx s ctx).haltWave || isStopped w)

/-- A launch queue. -/
def getQueue (s : State) (q : Nat) : LaunchQ := (s.queues[q]?).getD resetQueue

/-- A launch queue changed in place. -/
def modQueue (s : State) (q : Nat) (f : LaunchQ → LaunchQ) : State := { s with queues := setAt s.queues q (f (getQueue s q)) }

/-- The reads of a queue that are under way no longer waited for, and what it has seen forgotten. -/
def dropDeps (s : State) (queue : Nat) : State :=
  let s1 := modQueue s queue (fun x => { x with seen := [] })
  if s1.fab.out.any (fun p => p.owner == .dep queue) then
    { s1 with fab := { s1.fab with out := s1.fab.out.map (fun p => if p.owner == .dep queue then { p with owner := .nobody } else p) } }
  else s1

/-- The launch that a queue holds dropped, with what has been read for it. -/
def dropHeld (s : State) (queue : Nat) : State := modQueue (dropDeps s queue) queue (fun x => { x with held := none, deps := [] })

/-- The launches of a context that queues hold dropped. -/
def dropLaunches (s : State) (ctx : Nat) : State :=
  (List.range s.queues.length).foldl (fun x n => match (getQueue x n).held with
    | some g => if x.grids.any (fun y => y.id == g && y.ctx == ctx) then dropHeld x n else x
    | none => x) s

/-- Whether a grid has ended (R278). -/
def gridOver (g : Grid) : Bool := g.ended || (g.pending && g.next == g.teams && g.live == 0)

/-- The end of a context (R158): its waves killed, saved teams, tasks and launches dropped, engine operations to be aborted, scopes
discarded. STATUS 2 and the interrupt follow when the aborts have finished (CONTEXT_END_INTERRUPT). Increments that were owed before, and wait,
are still made or recorded, and a grid that had ended before it keeps its GRID_END (R278, R350). -/
def endCtx (s : State) (ctx : Nat) : State :=
  let ids := (s.waves.filter (fun (w : Wave) => w.ctx == ctx)).map (·.id)
  let s1 := dropLaunches (ids.foldl killCore s) ctx
  let s2 := { s1 with
    tasks := s1.tasks.filter (fun t => t.ctx != ctx),
    grids := s1.grids.filter (fun g => g.ctx != ctx || s.grids.any (fun x => x.id == g.id && gridOver x)),
    ops := s1.ops.map (fun o => if o.ctx == ctx then askAbort .cancel o else o) }
  modCtx s2 ctx (fun c => { c with
    scopes := [], halted := true, haltWave := none, status := 3, records := [], images := [],
    dies := [none, none, none, none], annex := [[], [], [], []] })

/-- A halt with no issuing wave ends its context as soon as every wave has stopped (R158). -/
def haltCheck (s : State) (ctx : Nat) : State :=
  let c := getCtx s ctx
  if c.halted ∧ c.haltWave = none ∧ c.status = 1 ∧ allStopped s ctx then endCtx s ctx else s

/-- A wave killed, and its context ended when that wave had issued its halt (R158). -/
def killWave (s : State) (id : Nat) : State :=
  match findWave s id with
  | none => s
  | some w =>
    let s1 := killCore s id
    if (getCtx s w.ctx).haltWave = some id then endCtx s1 w.ctx else haltCheck s1 w.ctx

/-! ### Taking a trap (R53 to R55) and returning from it -/

/-- Whether a trap is pending on a wave; of one that a delivery has left, whether a further one is (R57). -/
def morePending (w : Wave) : Bool :=
  w.hz.machineCheck || !(pendingSlips w).isEmpty || w.hz.overrun || w.hz.timeout.isSome

/-- What a delivery of one trap leaves of a wave: a machine check or an event no longer pending, a slip marked delivered. -/
def takePending (w : Wave) (t : TrapInfo) : Wave :=
  match t.cls with
  | .machine => { w with hz := { w.hz with machineCheck := false } }
  | .event => if t.cause = 0x19 then { w with hz := { w.hz with overrun := false } } else { w with hz := { w.hz with timeout := none } }
  | .horizon => { w with hz := { w.hz with slips := w.hz.slips.map (fun x => if some x.tag = t.tag then { x with delivered := true } else x) } }
  | .precise => w

/-- A wave as it enters its handler (R54, R55, R56): the first slot of .trap, %fault zero, latches and waits gone; under a halt it is stopped
there (R158). An instruction that was executed again after a park and now raises a trap itself leaves its slip to the portions it has issued (R44),
and after RFT it executes for all of its lanes; one that a trap between instructions (`between`) interrupts in a stall keeps its slip and, after
RFT, its unfinished lanes: the model's choices (log 104). -/
def enterHandler (w : Wave) (pc : W64) (between : Bool) : Wave :=
  let rest := if between then w.ctl.only.map (fun m => (w.ctl.pc, m)) else none
  { w with
    regs := { w.regs with fault := 0 },
    hz := { w.hz with handler := true, slips := if rest.isSome then w.hz.slips else w.hz.slips.map (fun x => { x with openPark := false }) },
    ctl := { w.ctl with pc := pc, st := if w.ctl.stopping then .waiting else .ready, wait := if w.ctl.stopping then .stopped else .idle,
                        line := none, latches := [], only := none, again := false, rest := rest, needTgt := false, park := none,
                        fresh := false, peerRec := none },
    popped := [], issued := w.issued + 1 }

/-- The offset of the trap frame in the stack aperture (R54). -/
def frameOff : Nat := 0xFFF00

/-- Whether a wave's traps only kill it and go to the fault log: a machine check, or the fault-service wave (R54, R305). -/
def killsOnTrap (w : Wave) (t : TrapInfo) : Bool := t.cls == .machine || w.fsw

/-- A trap taken by a wave at its boundary (R54, R55): held stores younger than a failed tag are discarded; then, by the launch
fault policy, the wave enters its handler, or is killed and its scope cancelled, or its context halts. PROV counts the slips as they stand
before that discard (log 81). -/
def takeTrap (s : State) (id : Nat) (t : TrapInfo) : State :=
  match findWave s id with
  | none => s
  | some w0 =>
    let (w1, n) := match t.cls, t.tag with
      | .horizon, some x => discardHeld w0 x
      | _, _ => (w0, 0)
    let w2 := takePending w1 t
    let frame := frameBytes w0 t n (morePending w2)
    let k := (getTeam s w2.team).kernel
    let s1 := claimLeave (putWave s w2) w2
    let logged := flogWrite (putWave s1 (match t.tag with | some x => dropSlip w2 x | none => w2)) w2.ctx frame
    if killsOnTrap w2 t then killWave logged id
    else if w2.hz.handler then haltCheck (haltCtx logged w2.ctx none) w2.ctx
    else if k.policy = 1 ∧ k.trapPc ≠ 0 ∧ !k.fromFsw then
      putWave (writeRange s1 (.stack id) frameOff frame)
        (enterHandler { w2 with stack := memPuts w2.stack frameOff frame, stackTop := max w2.stackTop (frameOff + 256) } k.trapPc (t.cls != .precise))
    else if k.policy = 2 ∧ !k.fromFsw then haltCheck (haltCtx logged w2.ctx none) w2.ctx
    else
      let c := getCtx s w2.ctx
      let s2 := killWave logged id
      match findScope c w2.scope with
      | some r => if r.cancelled then s2 else cancelMark s2 w2.ctx r.slot
      | none => s2

/-- The program counter and %cc that RFT reloads from the frame (R55). -/
def frameReturn (w : Wave) : W64 × W32 := (w64 (memNat w.stack (frameOff + 8) 8), w32 (memNat w.stack (frameOff + 0xF0) 4 % 64))

/-- The return from a trap (R55): program counter and %cc from the frame, handler mode left, %fault zero, the slip of the
delivered failure freed. An instruction interrupted with lanes unfinished executes again for those, when the return goes to it (log 104). -/
def returnFromTrap (w : Wave) : Wave :=
  let only := (w.ctl.rest.filter (fun p => p.1 == (frameReturn w).1)).map (·.2)
  let slips := w.hz.slips.filter (fun x => !x.delivered)
  { w with
    regs := { w.regs with cc := (frameReturn w).2, fault := 0 },
    hz := { w.hz with handler := false, slips := if only.isSome then slips else slips.map (fun x => { x with openPark := false }) },
    ctl := { w.ctl with pc := (frameReturn w).1, st := .ready, wait := .idle, line := none, latches := [], only := only, again := only.isSome,
                        rest := none } }

/-- Whether a wave is at a boundary where a pending trap is delivered, which ends its wait (R352): not while it is parked, slaved or stopped,
nor before an instruction that it has been let execute again has completed or come to wait (R54, R58), nor, but at a stall or for a machine
check, in a recipe, which is part of its restoration (R61, R62, log 105), nor under a halt (R158). -/
def atBoundary (w : Wave) : Bool :=
  !w.ctl.again && (w.hz.machineCheck || (!w.ctl.stopping && (w.ctl.recipe.isNone || w.hz.handler || w.ctl.wait != .idle))) &&
  match w.ctl.st with
  | .ready | .issuing | .placed => true
  | .waiting | .suspended =>
    match w.ctl.wait with
    | .stopped | .mmaCheck _ => false
    | _ => true
  | .retiring => !w.ctl.left && !w.ctl.allDead
  | _ => false

/-- The trap that is delivered at a wave's boundary before its instruction is attempted (R53), none in handler mode but a machine
check (R55). -/
def pendingTrap (w : Wave) : Option TrapInfo :=
  let base : TrapInfo := { cause := 0, cls := .event, pcdlv := w.ctl.pc, pcop := 0, tag := none, faddr := 0, rcd := noRec, lanes := 0,
                           mixed := false, desched := false }
  if w.hz.machineCheck then some { base with cause := 0x30, cls := .machine }
  else if w.hz.handler then none
  else match firstPending w with
    | some x => some (slipTrap w x (x.fail.getD { cause := 0, faddr := 0, lanes := 0, mixed := false, peer := 0 }))
    | none =>
      if w.hz.overrun then some { base with cause := 0x19 }
      else match w.hz.timeout with
        | some (n, st, ph) => some { base with cause := 0x18, rcd := { noRec with a := w64 n, b := st, c := ph.setWidth 64 } }
        | none => none

/-! ### Secondary faults (R55, R56) -/

/-- Bits 56:6 of an address, for LINE of %fault. -/
def faultLine (a : W64) : Nat := bits a.toNat 6 51

/-- A secondary fault recorded in %fault (R56): the first sets the fields, a later one sets M. -/
def noteFault (w : Wave) (cause : Nat) (addr : W64) : Wave :=
  if w.regs.fault.getLsbD 63 then { w with regs := { w.regs with fault := w.regs.fault ||| w64 (2 ^ 62) } }
  else { w with regs := { w.regs with fault := w64 (2 ^ 63 + cause % 256 * 2 ^ 52 + faultLine addr) } }

/-- The failure accumulator after one more failed store or atomic (R80). -/
def noteFailure (w : Wave) (cause : Nat) : Wave :=
  let n := min (bits w.hz.facc.toNat 16 16 + 1) 65535
  let bit := if cause = 0x13 then 16 else if cause = 0x12 then 8 else if cause = 0x10 then 4 else if cause = 0x11 then 2 else 0
  { w with hz := { w.hz with facc := w32 (65536 * n) ||| (w.hz.facc &&& 0x1F) ||| w32 bit ||| 1 } }

/-! ### Dead lanes (R40) -/

/-- A wave whose live lanes are none retires at once, and one deferred record is written to its cluster's bank (R40, R332). -/
def allDeadCheck (s : State) (id : Nat) : State :=
  match findWave s id with
  | none => s
  | some w =>
    if w.regs.dead &&& w.regs.k[0]?.getD 0 == w.regs.k[0]?.getD 0 ∧ !w.ctl.allDead ∧ w.ctl.st ≠ .killed ∧ w.ctl.st ≠ .retired then
      let (s1, w1) := logPending 128 s w
      let (s2, w2) := logEvents s1 w1
      let w3 := { w2 with
        ctl := { w2.ctl with st := .retiring, wait := .idle, allDead := true, park := none, only := none, again := false, rest := none, nopre := none },
        hz := { w2.hz with slips := w2.hz.slips.map (fun x => { x with openPark := false }) } }
      let s3 := claimLeave (putWave s2 w3) w3
      let s4 := modCtx s3 w.ctx (fun c => { c with records := c.records.filter (fun x => x != id) })
      barLeave (errRecord s4 (clusterOf w.core) 2 4 none none (miscOf w.core w.slot)) w3
    else s

/-- Lanes of a wave that consumed an uncorrectable error (R40). -/
def markDead (s : State) (id : Nat) (m : Mask) : State :=
  if m == 0 then s
  else allDeadCheck (modWave s id (fun w => { w with regs := { w.regs with dead := w.regs.dead ||| m } })) id

end Sys2Proof.Machine
end

