-- ==== Sys2Proof/Machine/Operands.lean ====
section
/-! DEFINITION. Every operand form: registers and special registers of a wave, sources of scalar and vector instructions (R101, R126
to R131, R175), the registers an instruction names, and its operand record (R57). -/

namespace Sys2Proof.Machine

/-- The layout of an instruction's word (R132). -/
inductive Lay
  | gen (w : GenW) | mem (w : MemW) | atom (w : AtomW) | rem (w : RemW) | br (w : BrW)
  deriving DecidableEq, Repr

/-- The word of an instruction; an event has none. -/
def layOf : Instr → Option Lay
  | .nop w => some (.gen w)
  | .bra w => some (.br w)
  | .bkz w => some (.br w)
  | .bknz w => some (.br w)
  | .bhz w => some (.br w)
  | .call w => some (.br w)
  | .ret w => some (.gen w)
  | .jmpi w => some (.gen w)
  | .loop w => some (.br w)
  | .endp w => some (.gen w)
  | .trap w => some (.gen w)
  | .rft w => some (.gen w)
  | .yield w => some (.gen w)
  | .srd w => some (.gen w)
  | .swr w => some (.gen w)
  | .haltctx w => some (.gen w)
  | .drain w => some (.gen w)
  | .tlbinv w => some (.gen w)
  | .replay w => some (.gen w)
  | .nopre w => some (.gen w)
  | .pre w => some (.gen w)
  | .mark w => some (.gen w)
  | .smov w => some (.gen w)
  | .sli w => some (.gen w)
  | .sadd w => some (.gen w)
  | .ssub w => some (.gen w)
  | .smul w => some (.gen w)
  | .smulh w => some (.gen w)
  | .smad w => some (.gen w)
  | .sdiv w => some (.gen w)
  | .srem w => some (.gen w)
  | .sand w => some (.gen w)
  | .sor w => some (.gen w)
  | .sxor w => some (.gen w)
  | .sshl w => some (.gen w)
  | .sshr w => some (.gen w)
  | .smin w => some (.gen w)
  | .smax w => some (.gen w)
  | .scmp w => some (.gen w)
  | .stst w => some (.gen w)
  | .ssel w => some (.gen w)
  | .sclz w => some (.gen w)
  | .spopc w => some (.gen w)
  | .sbfe w => some (.gen w)
  | .sbfi w => some (.gen w)
  | .kand w => some (.gen w)
  | .kor w => some (.gen w)
  | .kxor w => some (.gen w)
  | .kandn w => some (.gen w)
  | .kmov w => some (.gen w)
  | .kset w => some (.gen w)
  | .kget w => some (.gen w)
  | .kpopc w => some (.gen w)
  | .kfirst w => some (.gen w)
  | .vmov w => some (.gen w)
  | .vadd w => some (.gen w)
  | .vsub w => some (.gen w)
  | .vmul w => some (.gen w)
  | .vmulh w => some (.gen w)
  | .vmad w => some (.gen w)
  | .vand w => some (.gen w)
  | .vor w => some (.gen w)
  | .vxor w => some (.gen w)
  | .vshl w => some (.gen w)
  | .vshr w => some (.gen w)
  | .vmin w => some (.gen w)
  | .vmax w => some (.gen w)
  | .vabs w => some (.gen w)
  | .vcmp w => some (.gen w)
  | .vsel w => some (.gen w)
  | .vclz w => some (.gen w)
  | .vpopc w => some (.gen w)
  | .vbfe w => some (.gen w)
  | .vbfi w => some (.gen w)
  | .vdp4 w => some (.gen w)
  | .vfadd w => some (.gen w)
  | .vfsub w => some (.gen w)
  | .vfmul w => some (.gen w)
  | .vfma w => some (.gen w)
  | .vfmin w => some (.gen w)
  | .vfmax w => some (.gen w)
  | .vfcmp w => some (.gen w)
  | .vfclass w => some (.gen w)
  | .vrcp w => some (.gen w)
  | .vrsq w => some (.gen w)
  | .vsqrt w => some (.gen w)
  | .vdiv w => some (.gen w)
  | .vexp2 w => some (.gen w)
  | .vlog2 w => some (.gen w)
  | .vcvt w => some (.gen w)
  | .vfrnd w => some (.gen w)
  | .vpack w => some (.gen w)
  | .vunpk w => some (.gen w)
  | .vshuf w => some (.gen w)
  | .vxsh w => some (.gen w)
  | .vbcast w => some (.gen w)
  | .vred w => some (.gen w)
  | .vscan w => some (.gen w)
  | .vcomp w => some (.gen w)
  | .vexpd w => some (.gen w)
  | .vapnd w => some (.gen w)
  | .vvote w => some (.gen w)
  | .vrand w => some (.gen w)
  | .vrseed w => some (.gen w)
  | .vsca w => some (.gen w)
  | .bset w => some (.gen w)
  | .bmap w => some (.gen w)
  | .mma w => some (.gen w)
  | .msca w => some (.gen w)
  | .mtrn w => some (.gen w)
  | .mldf w => some (.mem w)
  | .mstf w => some (.mem w)
  | .ld w => some (.mem w)
  | .st w => some (.mem w)
  | .ldb w => some (.mem w)
  | .stb w => some (.mem w)
  | .atom w => some (.atom w)
  | .atomr w => some (.atom w)
  | .cas w => some (.mem w)
  | .fence w => some (.mem w)
  | .prf w => some (.mem w)
  | .ldh w => some (.mem w)
  | .sth w => some (.mem w)
  | .hmov w => some (.gen w)
  | .pin w => some (.gen w)
  | .unpin w => some (.gen w)
  | .pld w => some (.rem w)
  | .pst w => some (.rem w)
  | .psts w => some (.rem w)
  | .patom w => some (.atom w)
  | .patomr w => some (.atom w)
  | .nput w => some (.gen w)
  | .nget w => some (.gen w)
  | .natom w => some (.gen w)
  | .nflush w => some (.gen w)
  | .wrev w => some (.gen w)
  | .copy w => some (.gen w)
  | .copym w => some (.gen w)
  | .chain w => some (.gen w)
  | .close w => some (.gen w)
  | .waitb w => some (.gen w)
  | .cadd w => some (.gen w)
  | .tryw w => some (.gen w)
  | .spawn w => some (.gen w)
  | .cscope w => some (.gen w)
  | .cancel w => some (.gen w)
  | .kpoll w => some (.gen w)
  | .bars w => some (.gen w)
  | .bara w => some (.gen w)
  | .barw w => some (.gen w)
  | .give w => some (.gen w)
  | .claim w => some (.gen w)
  | .hwait w => some (.gen w)
  | .waitt w => some (.gen w)
  | .elect w => some (.gen w)
  | .aloop w => some (.gen w)
  | .aend w => some (.gen w)
  | .ald w => some (.gen w)
  | .apf w => some (.gen w)
  | .aadv w => some (.gen w)
  | .ahalt w => some (.gen w)
  | .yieldExpiry .. => none
  | .mmaRetire .. => none
  | .trywPeriodicRead .. => none
  | .trywLimitExpiry .. => none
  | .taskAccept .. => none
  | .giveRelease .. => none
  | .waveKill .. => none
  | .waveRetire .. => none
  | .waveStateMachineCheck .. => none
  | .scopeQuiesceAck .. => none
  | .slipResolve .. => none
  | .trapDelivery .. => none
  | .faultRecordWrite .. => none
  | .nopreOverrun .. => none
  | .preemption .. => none
  | .teamRestore .. => none
  | .binderyBatchStart .. => none
  | .binderyDrainDone .. => none
  | .binderyBatchDone .. => none
  | .bdyDoorbell .. => none
  | .pstsResync .. => none
  | .engineOpStart .. => none
  | .engineChunk .. => none
  | .engineOpComplete .. => none
  | .engineOpAbort .. => none
  | .lqDoorbell .. => none
  | .launchPacketRead .. => none
  | .launchPending .. => none
  | .teamPlacement => none
  | .gridEnd .. => none
  | .contextEndInterrupt .. => none
  | .ctxEnd .. => none
  | .governorWindow => none
  | .coreHotMark .. => none
  | .coreDroop .. => none
  | .priPageRequest .. => none
  | .priResponse .. => none
  | .atsInvalidateRequest .. => none
  | .fabCtlEn => none
  | .fabricJoin .. => none
  | .fabricPeerUpdate .. => none
  | .planeDown .. => none
  | .flitLinkRetry .. => none
  | .fabricWritePacket .. => none
  | .fabricReadPacket .. => none
  | .fabricAtomicPacket .. => none
  | .fabricAck .. => none
  | .fabricNak .. => none
  | .fabricResponse .. => none
  | .fabricRtoExpiry .. => none
  | .fabricTmoExpiry .. => none
  | .netPacketArrival .. => none
  | .netContextFetchDone .. => none
  | .netAck .. => none
  | .netNak .. => none
  | .netParkResend .. => none
  | .netRetransmitTimeout .. => none
  | .arrayUncorrectableError .. => none
  | .arrayCorrectedError .. => none
  | .selfTestComplete .. => none
  | .rangeLockEntryError .. => none
  | .infieldTestDue .. => none
  | .infieldTestEnd .. => none
  | .watchdogFire .. => none
  | .xbarCommitPrepare .. => none
  | .xbarSwap => none
  | .mpWatchdogReset => none
  | .latencyWindowEnd => none
  | .securityAlarm .. => none
  | .firmwareImageVerify .. => none
  | .pwrMode .. => none
  | .errStatusClear .. => none
  | .powerOn .. => none
  | .registerWrite .. => none
  | .hostBarAccess .. => none
  | .fabricPlaneUp .. => none
  | .fabricPacketSend .. => none
  | .mmaLeavesArray .. => none
  | .atsTranslationResponse .. => none
  | .priCapabilityWrite .. => none
  | .pwrModeChangeComplete => none
  | .mainPowerLoss => none

/-- The header of a layout. -/
def layHdr : Lay → Hdr
  | .gen w => w.hdr | .mem w => w.hdr | .atom w => w.hdr | .rem w => w.hdr | .br w => w.hdr

/-- A header with no guard, no mask and no slot. -/
def noHdr : Hdr := { grd := .al, msk := 0, typ := .b32, dsc := 0, dsw := 0, nwb := false, lit := none }

/-- The header of an instruction. -/
def insHdr (i : Instr) : Hdr := match layOf i with | some l => layHdr l | none => noHdr

/-- The operands of an instruction: DST, A, B, C. -/
def insOps (i : Instr) : List Operand :=
  match layOf i with
  | some (.gen w) => [w.dst, w.a, w.b, w.c]
  | some (.mem w) => [w.dst, w.a, w.b, w.c]
  | some (.atom w) => [w.dst, w.a, w.b, w.c]
  | some (.rem w) => [w.dst, w.a, w.b, w.c]
  | some (.br w) => [w.dst, w.a]
  | none => []

/-- Whether a literal slot follows an instruction (R131). -/
def hasLit (i : Instr) : Bool := (insHdr i).lit.isSome

/-! ### Registers -/

/-- A scalar register (R101). -/
def sreg (w : Wave) (n : Nat) : W64 := (w.regs.s[n]?).getD 0

/-- A scalar register written. -/
def setS (w : Wave) (n : Nat) (v : W64) : Wave := { w with regs := { w.regs with s := setAt w.regs.s n v } }

/-- A mask register (R18). -/
def kreg (w : Wave) (n : Nat) : Mask := (w.regs.k[n]?).getD 0

/-- A mask register written: bits of lanes at or above W are discarded, and k0 is never written (R18, R19). -/
def setK (w : Wave) (n : Nat) (v : Mask) : Wave :=
  if n = 0 then w else { w with regs := { w.regs with k := setAt w.regs.k n (v &&& maskBelow w.width) } }

/-- A handle register. -/
def hreg (w : Wave) (n : Nat) : Option Handle := (w.regs.h[n]?).getD none

/-- A handle register written. -/
def setH (w : Wave) (n : Nat) (v : Option Handle) : Wave := { w with regs := { w.regs with h := setAt w.regs.h n v } }

/-- A vector register's element of a lane (R100). -/
def vreg (w : Wave) (r lane : Nat) : W32 := ((w.regs.v[r]?).getD [])[lane]?.getD 0

/-- An element of one lane of a vector register written. -/
def setV (w : Wave) (r lane : Nat) (v : W32) : Wave :=
  { w with regs := { w.regs with v := setAt w.regs.v r (setAt ((w.regs.v[r]?).getD []) lane v) } }

/-- %cc with its condition flags replaced; D and B stay (R101). -/
def setCC (w : Wave) (v : W32) : Wave := { w with regs := { w.regs with cc := v &&& 0x3F } }

/-- The effective lane set (R20); a replayed instruction acts for its unfinished lanes only (R58). -/
def actOf (w : Wave) (msk : BitVec 7) : Mask :=
  let a := kreg w msk.toNat &&& kreg w 0 &&& ~~~ w.regs.dead
  match w.ctl.only with
  | some m => a &&& m
  | none => a

/-- A special register (R128), zero-extended to 64 bits; %lane is read per lane and not here. -/
def spVal (s : State) (w : Wave) : SpReg → W64
  | .lane => 0
  | .wave => w64 w.idx
  | .team => w64 (getTeam s w.team).index
  | .width => w64 w.width
  | .role => w64 w.role
  | .hzn => (hznOf w).setWidth 64
  | .tag => w.hz.tag.setWidth 64
  | .scope => w.scope
  | .core => w64 w.core
  | .pair => w64 (pairOf w.core)
  | .cluster => w64 (clusterOf w.core)
  | .asid => w64 (getCtx s w.ctx).asid
  | .cc => w.regs.cc.setWidth 64
  | .mstall => w.regs.mstall
  | .bflag => w.regs.bflag.setWidth 64
  | .clock => w64 s.clk
  | .fault => w.regs.fault

/-- A scalar operand at full width: s, sp, imm (sign-extended) or the literal (R101, R127, R131). -/
def scalarOp (s : State) (w : Wave) (lit : Option W64) : Operand → W64
  | .s n => sreg w n.toNat
  | .sp r => spVal s w r
  | .imm i => i.signExtend 64
  | .lit => lit.getD 0
  | _ => 0

/-- The bits of a number repeated in every sub-element of a 32-bit lane. -/
def spread (n x : Nat) : Nat :=
  let y := x % 2 ^ n
  if n = 8 then y * 0x01010101 else if n = 16 then y * 0x00010001 else y

/-- A latch's element of one lane, 64 bits wide; what the latch does not hold is a free value (R129, log 3). -/
def latchWord (s : State) (w : Wave) (d lane : Nat) : Nat :=
  let free (k : Nat) := (Config.freeWord (s.free + 2 * lane + k)).toNat
  match (w.ctl.latches[d - 1]?).getD .nothing with
  | .sca v => v.toNat
  | .vec [a] => ((a[lane]?).getD 0).toNat + 2 ^ 32 * free 1
  | .vec (a :: b :: _) => ((a[lane]?).getD 0).toNat + 2 ^ 32 * ((b[lane]?).getD 0).toNat
  | _ => free 0 + 2 ^ 32 * free 1

/-- Whether a latch holds a scalar result, which goes to every sub-element (R175). -/
def latchScalar (w : Wave) (d : Nat) : Bool :=
  match (w.ctl.latches[d - 1]?).getD .nothing with
  | .sca _ => true
  | _ => false

/-- A vector source: the lane word of each lane, 64 bits for a 64-bit type and 32 otherwise (R175). -/
def laneWord (s : State) (w : Wave) (lit : Option W64) (t : Ty) (o : Operand) (lane : Nat) : Nat :=
  let n := tyWidth t
  match o with
  | .v r => if n = 64 then (vreg w r.toNat lane).toNat + 2 ^ 32 * (vreg w (r.toNat + 1) lane).toNat else (vreg w r.toNat lane).toNat
  | .x d => if n = 64 then latchWord s w d.toNat lane
            else if latchScalar w d.toNat then spread n (latchWord s w d.toNat lane) else latchWord s w d.toNat lane % 2 ^ 32
  | .q i => ((assoc w.popped i.toNat [])[lane]?.getD 0).toNat
  | .sp .lane => spread n lane
  | .imm i => spread n (immTo t i.toInt)
  | .k r => b2n ((kreg w r.toNat).getLsbD lane)
  | o => spread n (scalarOp s w lit o).toNat

/-- Element j of a lane word, at width n (R100). -/
def subElem (n word j : Nat) : Nat := bits word (n * j) n

/-- Elements of a lane for a type (R100). -/
def elemsPerLane (t : Ty) : Nat := subs t

/-- A lane word built of its elements. -/
def packElems (n : Nat) : List Nat → Nat
  | [] => 0
  | x :: r => x % 2 ^ n + 2 ^ n * packElems n r

/-! ### The registers an instruction names -/

/-- The fragment registers of a role and shape (R212): 0 A, 1 B, 2 C and D. -/
def fragRegs (shape role : Nat) : Nat :=
  match role with
  | 0 => if shape = 3 then 16 else 8
  | 1 => if shape = 1 then 8 else if shape = 3 then 32 else 16
  | _ => if shape = 1 then 32 else 64

/-- A vector operand as a range of registers. -/
def vRange (n : Nat) : Operand → List (Nat × Nat)
  | .v r => [(r.toNat, n)]
  | _ => []

/-- The registers of a type. -/
def regsOf (t : Ty) : Nat := if tyWidth t = 64 then 2 else 1

/-- SHAPE and ROLE of a fragment descriptor (R219). -/
def descShape (d : W64) : Nat × Nat := (bits d.toNat 32 2, bits d.toNat 34 2)

/-- The vector register ranges that an instruction's word names (R26). BMAP names registers without reading them (R209). -/
def vRanges : Instr → List (Nat × Nat)
  | .bmap _ => []
  | .vcvt w => vRange (regsOf w.hdr.typ) w.dst ++ vRange (regsOf w.ty2) w.a
  | .vunpk w => vRange 2 w.dst ++ vRange 1 w.a
  | .mma w =>
    vRange (fragRegs w.opx.toNat 2) w.dst ++ vRange (fragRegs w.opx.toNat 0) w.a ++ vRange (fragRegs w.opx.toNat 1) w.b
      ++ vRange (fragRegs w.opx.toNat 2) w.c
  | .msca w =>
    let n := fragRegs (w.opx.toNat % 4) 2
    vRange n w.dst ++ vRange n w.a ++ vRange 1 w.b ++ vRange n w.c
  | .mtrn w => vRange 32 w.dst ++ vRange 32 w.a
  | .ldb w => vRange 4 w.dst ++ vRange 1 w.b
  | .stb w => vRange 4 w.c ++ vRange 1 w.b
  | .st w => vRange (regsOf w.hdr.typ) w.c ++ vRange 1 w.b
  | .ld w => vRange (regsOf w.hdr.typ) w.dst ++ vRange 1 w.b
  | .cas w => vRange (regsOf w.hdr.typ) w.dst ++ vRange 1 w.b ++ vRange (regsOf w.hdr.typ) w.c
  | .prf w => vRange 1 w.b
  | .mldf w => vRange 1 w.dst
  | .mstf w => vRange 1 w.c
  | .atom w => vRange 1 w.b ++ vRange (regsOf w.hdr.typ) w.c
  | .atomr w => vRange (regsOf w.hdr.typ) w.dst ++ vRange 1 w.b ++ vRange (regsOf w.hdr.typ) w.c
  | .pld w | .pst w | .psts w => vRange (regsOf w.hdr.typ) w.dst ++ vRange 1 w.a ++ vRange 1 w.c
  | .patom w | .patomr w => vRange (regsOf w.hdr.typ) w.dst ++ vRange 1 w.a ++ vRange 1 w.c
  | i => match layOf i with
    | some (.gen w) =>
      match vSources i with
      | some n => vRange (regsOf w.hdr.typ) w.dst ++ ([w.a, w.b, w.c].take n).flatMap (vRange (regsOf w.hdr.typ))
      | none => []
    | _ => []
where
  /-- The number of sources that a vector instruction of the general layout takes as vectors; none for other groups. -/
  vSources : Instr → Option Nat
    | .vrand _ | .vapnd _ | .elect _ => some 0
    | .vmov _ | .vabs _ | .vclz _ | .vpopc _ | .vfclass _ | .vrcp _ | .vrsq _ | .vsqrt _ | .vexp2 _
    | .vlog2 _ | .vfrnd _ | .vxsh _ | .vbcast _ | .vred _ | .vscan _ | .vcomp _ | .vexpd _ | .vvote _ => some 1
    | .vadd _ | .vsub _ | .vmul _ | .vmulh _ | .vand _ | .vor _ | .vxor _ | .vshl _ | .vshr _
    | .vmin _ | .vmax _ | .vcmp _ | .vsel _ | .vbfe _ | .vfadd _ | .vfsub _ | .vfmul _ | .vfmin _
    | .vfmax _ | .vfcmp _ | .vdiv _ | .vpack _ | .vshuf _ => some 2
    | .vmad _ | .vbfi _ | .vdp4 _ | .vfma _ | .vsca _ => some 3
    | _ => none

/-- The scalar registers that an instruction names. -/
def sRegs (i : Instr) : List Nat := (insOps i).flatMap (fun o => match o with | .s n => [n.toNat] | _ => [])

/-- The handle registers that an instruction names. -/
def hRegs (i : Instr) : List Nat := (insOps i).flatMap (fun o => match o with | .h n => [n.toNat] | _ => [])

/-- The queues that an instruction names as sources (R127). -/
def qRegs (i : Instr) : List Nat := (insOps i).flatMap (fun o => match o with | .q n => [n.toNat] | _ => [])

/-- The latches that an instruction names (R129). -/
def xRegs (i : Instr) : List Nat := (insOps i).flatMap (fun o => match o with | .x d => [d.toNat] | _ => [])

/-! ### The operand record (R46, R57) -/

/-- The value that OPA, OPB or OPC reports: of a scalar, special or immediate operand, else zero. -/
def recVal (s : State) (w : Wave) (lit : Option W64) (o : Operand) : W64 :=
  match o with
  | .sp .lane => 0
  | o => scalarOp s w lit o

/-- The instruction word of an instruction, for IWORD. -/
def iwordOf (i : Instr) : W96 := match encode i with | some (x, _) => x | none => 0

/-- The operand record of an instruction of a wave (R57). -/
def opRecOf (s : State) (w : Wave) (i : Instr) : OpRec :=
  let lit := (insHdr i).lit
  let v (k : Nat) : W64 := recVal s w lit ((insOps i)[k]?.getD (.v 0))
  { iword := iwordOf i, a := v 1, b := v 2, c := v 3, peer := 0, stream := 0, scope := w.scope }

end Sys2Proof.Machine
end

