-- ==== Sys2Proof/Machine/Flags.lean ====
section
/-! DEFINITION. The flags of %cc (R101, R128, R144), guards (R125), and the write-back of results: bound checks (R210), bypass latches
and NWB (R129). -/

namespace Sys2Proof.Machine

/-- The condition flags of %cc: Z, N, C, V in bits 0 to 3 (R128). -/
def flagBits (z n c v : Bool) : W32 := w32 (b2n z + 2 * b2n n + 4 * b2n c + 8 * b2n v)

/-- %cc with new Z, N, C and V; D and B are unchanged (R101, R144). -/
def withFlags (cc : W32) (z n c v : Bool) : W32 := (cc &&& 0x30) ||| flagBits z n c v

/-- The zn code of R144: Z and N from an n-bit result, V as given, C cleared. -/
def ccZN (cc : W32) (n r : Nat) (v : Bool) : W32 := withFlags cc (r % 2 ^ n == 0) (bitAt r (n - 1)) false v

/-- The z code of R144. -/
def ccZ (cc : W32) (z : Bool) : W32 := withFlags cc z false false false

/-- Signed overflow of an addition of n bits. -/
def addOverflow (n a b : Nat) : Bool :=
  let x := signed a n + signed b n
  decide (x < -((2 ^ (n - 1) : Nat) : Int)) || decide (((2 ^ (n - 1) : Nat) : Int) ≤ x)

/-- Signed overflow of a subtraction of n bits. -/
def subOverflow (n a b : Nat) : Bool :=
  let x := signed a n - signed b n
  decide (x < -((2 ^ (n - 1) : Nat) : Int)) || decide (((2 ^ (n - 1) : Nat) : Int) ≤ x)

/-- The arith code of R144 for an addition: C from the wrapping addition, Z and N from the result written. -/
def ccAdd (cc : W32) (n a b r : Nat) : W32 :=
  withFlags cc (r % 2 ^ n == 0) (bitAt r (n - 1)) (decide (2 ^ n ≤ a % 2 ^ n + b % 2 ^ n)) (addOverflow n a b)

/-- The arith code of R144 for a subtraction or compare: C is the borrow. -/
def ccSub (cc : W32) (n a b r : Nat) : W32 :=
  withFlags cc (r % 2 ^ n == 0) (bitAt r (n - 1)) (decide (a % 2 ^ n < b % 2 ^ n)) (subOverflow n a b)

/-- Flag Z of %cc. -/
def flagZ (cc : W32) : Bool := cc.getLsbD 0
/-- Flag N of %cc. -/
def flagN (cc : W32) : Bool := cc.getLsbD 1
/-- Flag C of %cc. -/
def flagC (cc : W32) : Bool := cc.getLsbD 2
/-- Flag V of %cc. -/
def flagV (cc : W32) : Bool := cc.getLsbD 3

/-- Whether a guard or a condition is true on %cc (R125). -/
def guardHolds (g : Guard) (cc : W32) : Bool :=
  let z := flagZ cc
  let n := flagN cc
  let c := flagC cc
  let v := flagV cc
  match g with
  | .al => true
  | .eq => z
  | .ne => !z
  | .lt => n != v
  | .ge => n == v
  | .gt => !z && n == v
  | .le => z || n != v
  | .ltn => c
  | .gen => !c
  | .gtn => !c && !z
  | .len => c || z
  | .vs => v
  | .vc => !v

/-- The results of an instruction before write-back: vector elements by register and lane, scalars, masks and handles, and %cc. The
first entry of the first non-empty list is the instruction's destination, which a latch takes. `dies` names the lanes that consume poison:
they write no vector element and are dead from then on (R40). -/
structure Eff where
  v : List (Nat × List (Nat × W32)) := []
  s : List (Nat × W64) := []
  k : List (Nat × Mask) := []
  h : List (Nat × Option Handle) := []
  cc : Option W32 := none
  extra : List (Nat × W64) := []
  dies : Mask := 0
  deriving DecidableEq, Repr

/-- An effect without the vector elements of the lanes that consume poison. -/
def aliveEff (e : Eff) : Eff :=
  if e.dies = 0 then e else { e with v := e.v.map (fun p => (p.1, p.2.filter (fun q => !e.dies.getLsbD q.1))) }

/-! ### Bound registers (R207 to R211) -/

/-- Whether an element of a bound register's format is out of bounds (R210). -/
def outOfBounds (b : Bound) (x : Nat) : Bool :=
  let v := valOf b.fmt x
  v == .nan || flt v (valOf b.fmt b.mn.toNat) || flt (valOf b.fmt b.mx.toNat) v

/-- An element clamped (R210). -/
def clampElem (b : Bound) (x : Nat) : Nat :=
  let n := tyWidth b.fmt
  let v := valOf b.fmt x
  if v == .nan || flt v (valOf b.fmt b.mn.toNat) then b.mn.toNat % 2 ^ n
  else if flt (valOf b.fmt b.mx.toNat) v then b.mx.toNat % 2 ^ n
  else x

/-- The bound register that a vector register of a wave is bound to, when its action is not off. -/
def boundOf (t : Team) (w : Wave) (r : Nat) : Option (Nat × Bound) :=
  match w.regs.bmap.find? (fun p => p.1 == r) with
  | some (_, n) => match t.bounds[n]? with
    | some b => if b.act = 0 then none else some (n, b)
    | none => none
  | none => none

/-- The elements of a bound's format in a 32-bit lane. -/
def boundElems (b : Bound) (x : W32) : List Nat := (List.range (subs b.fmt)).map (subElem (tyWidth b.fmt) x.toNat)

/-- Whether some element of a 32-bit lane is out of bounds. -/
def laneOut (b : Bound) (x : W32) : Bool := (boundElems b x).any (outOfBounds b)

/-- The lanes that a write takes out of bounds under a trap binding (R210). -/
def trapLanes (t : Team) (w : Wave) (ws : List (Nat × List (Nat × W32))) : Mask :=
  maskOf (ws.flatMap (fun p => match boundOf t w p.1 with
    | some (_, b) => if b.act = 3 then (p.2.filter (fun q => laneOut b q.2)).map (·.1) else []
    | none => []))

/-- The bound registers whose flag a write sets (R210, R211). -/
def flagSet (t : Team) (w : Wave) (ws : List (Nat × List (Nat × W32))) : List Nat :=
  ws.flatMap (fun p => match boundOf t w p.1 with
    | some (n, b) => if p.2.any (fun q => laneOut b q.2) then [n] else []
    | none => [])

/-- A write after its clamps (R210). -/
def clampWrites (t : Team) (w : Wave) (ws : List (Nat × List (Nat × W32))) : List (Nat × List (Nat × W32)) :=
  ws.map (fun p => match boundOf t w p.1 with
    | some (_, b) =>
      if b.act = 2 then (p.1, p.2.map (fun q => (q.1, w32 (packElems (tyWidth b.fmt) ((boundElems b q.2).map (clampElem b))))))
      else p
    | none => p)

/-- Elements written into one vector register. -/
def putElems (row : List W32) (l : List (Nat × W32)) : List W32 := l.foldl (fun r p => setAt r p.1 p.2) row

/-- The poison of vector registers after a write of elements, which no longer hold it (R331, R332). -/
def cleanse (l : List (Nat × Mask)) (ws : List (Nat × List (Nat × W32))) : List (Nat × Mask) :=
  if l.isEmpty || ws.isEmpty then l
  else (l.map (fun p => (p.1, ws.foldl (fun m q => if q.1 = p.1 then m &&& ~~~ maskOf (q.2.map (·.1)) else m) p.2))).filter (fun p => p.2 != 0)

/-- Lanes of a vector register that come to hold poison. -/
def poisonReg (w : Wave) (r : Nat) (m : Mask) : Wave :=
  { w with regs := { w.regs with poison := assocPut w.regs.poison r (some (assoc w.regs.poison r 0 ||| m)) } }

/-- Whether some of `n` vector registers from one on holds poison in a lane (R40). -/
def regPoison (w : Wave) (r n lane : Nat) : Bool := w.regs.poison.any (fun p => decide (r ≤ p.1) && decide (p.1 < r + n) && p.2.getLsbD lane)

/-- Vector elements written. -/
def putVRegs (w : Wave) (ws : List (Nat × List (Nat × W32))) : Wave :=
  { w with regs := { w.regs with
      v := ws.foldl (fun v p => setAt v p.1 (putElems ((v[p.1]?).getD []) p.2)) w.regs.v, poison := cleanse w.regs.poison ws } }

/-- The flags of a bound check: bits of %bflag, and B of %cc (R210, R211). -/
def noteFlags (w : Wave) (ns : List Nat) : Wave :=
  if ns.isEmpty then w
  else { w with regs := { w.regs with bflag := ns.foldl (fun b n => b ||| w32 (2 ^ n)) w.regs.bflag, cc := w.regs.cc ||| 0x20 } }

/-- A checked vector write (R210): the lanes that trap, or the wave after the write. -/
def checkedWrite (t : Team) (w : Wave) (ws : List (Nat × List (Nat × W32))) : Except Mask Wave :=
  if w.regs.bmap.isEmpty then .ok (putVRegs w ws)
  else
    let m := trapLanes t w ws
    if m != 0 then .error m
    else .ok (noteFlags (putVRegs w (clampWrites t w ws)) (flagSet t w ws))

/-! ### Latches and NWB (R129) -/

/-- A whole register's elements from a write under NWB: lanes outside act read zero. -/
def nwbRow (width : Nat) (l : List (Nat × W32)) : List W32 := putElems (List.replicate width 0) l

/-- What an executed instruction leaves in its latch: its destination just after it, or, with NWB, its result alone. -/
def latchOf (w : Wave) (e : Eff) (nwb : Bool) : Latch :=
  if !e.v.isEmpty then
    if 2 < e.v.length then .nothing
    else if nwb then .vec (e.v.map (fun p => nwbRow w.width p.2))
    else .vec (e.v.map (fun p => (w.regs.v[p.1]?).getD []))
  else match e.s with
    | (_, x) :: _ => .sca x
    | [] => if e.k.isEmpty && e.h.isEmpty then .nothing else .other

/-- %cc after an instruction: its flags, with B set where a bound check of it, or an earlier one, set it (R211). -/
def mergeCC (old new : W32) : W32 := (new &&& 0x1F) ||| (old &&& 0x20) ||| (new &&& 0x20)

/-- The results of an instruction written: vectors under the bound check, then scalars, masks, handles and %cc. With NWB the
destination is not written; flags and further results are (R129). -/
def writeEff (t : Team) (w : Wave) (e : Eff) (nwb : Bool) : Except Mask Wave :=
  let rest (x : Wave) : Wave :=
    let x1 := if nwb then x else
      let y := e.s.foldl (fun a p => setS a p.1 p.2) x
      let y2 := e.k.foldl (fun a p => setK a p.1 p.2) y
      e.h.foldl (fun a p => setH a p.1 p.2) y2
    let x2 := e.extra.foldl (fun a p => setS a p.1 p.2) x1
    match e.cc with
    | some c => { x2 with regs := { x2.regs with cc := mergeCC x2.regs.cc c } }
    | none => x2
  if nwb then .ok (rest w)
  else match checkedWrite t w e.v with
    | .ok x => .ok (rest x)
    | .error m => .error m

end Sys2Proof.Machine
end

