-- ==== Sys2Proof/Machine/Regs.lean ====
section
/-! DEFINITION. Which registers an instruction writes and names (R122, R127), the legality of a pair (R122), and the line check of
R121 over the 64 bytes of a fetch line. -/

namespace Sys2Proof.Machine

/-- Whether DST of an instruction is a destination: not where it is unused, a source (PST, PSTS, PATOM, COPY, COPYM) or the .hr
field. -/
def writesDst : Instr → Bool
  | .bra _ | .bkz _ | .bknz _ | .bhz _ | .st _ | .stb _ | .atom _ | .prf _ | .sth _ | .mstf _ | .pst _ | .psts _ | .patom _
  | .copy _ | .copym _ => false
  | i => match layOf i with
    | some (.gen w) => !unused w.dst
    | some _ => true
    | none => false

/-- The destination operand, where it is one. -/
def dstOp (i : Instr) : Option Operand := if writesDst i then (insOps i)[0]? else none

/-- Instructions whose C names a second scalar result (R199, R201). -/
def cResult : Instr → Bool
  | .vcomp _ | .vapnd _ => true
  | _ => false

/-- The vector register ranges that an instruction writes; `desc` is the fragment descriptor of MLDF where it is known. -/
def vDst (i : Instr) (desc : Option W64) : List (Nat × Nat) :=
  match i with
  | .bmap _ => []
  | .vcvt w => vRange (regsOf w.hdr.typ) w.dst
  | .vunpk w => vRange 2 w.dst
  | .mma w => vRange (fragRegs w.opx.toNat 2) w.dst
  | .msca w => vRange (fragRegs (w.opx.toNat % 4) 2) w.dst
  | .mtrn w => vRange 32 w.dst
  | .ldb w => vRange 4 w.dst
  | .ld w => vRange (regsOf w.hdr.typ) w.dst
  | .cas w => vRange (regsOf w.hdr.typ) w.dst
  | .mldf w => match desc with
    | some d => vRange (fragRegs (descShape d).1 (descShape d).2) w.dst
    | none => vRange 1 w.dst
  | .atomr w => vRange (regsOf w.hdr.typ) w.dst
  | .pld w => vRange (regsOf w.hdr.typ) w.dst
  | .patomr w => vRange (regsOf w.hdr.typ) w.dst
  | i => match layOf i with
    | some (.gen w) => if (vRanges i).isEmpty then [] else vRange (regsOf w.hdr.typ) w.dst
    | _ => []

/-- The vector register ranges that an instruction reads or writes; MSTF's by its descriptor where it is known. -/
def vNamed (i : Instr) (desc : Option W64) : List (Nat × Nat) :=
  match i with
  | .mstf w => match desc with
    | some d => vRange (fragRegs (descShape d).1 (descShape d).2) w.c
    | none => vRange 1 w.c
  | i => vRanges i ++ vDst i desc

/-- The fragment descriptor of MLDF and MSTF when it is a literal. With one in a register the line check, which knows no register, counts one
register: DESIGN CHOICE (log 78). -/
def litDesc (i : Instr) : Option W64 :=
  match i with
  | .mldf w | .mstf w => if w.b == .lit then w.hdr.lit else none
  | _ => none

/-- Registers by class: 0 vector, 1 scalar, 2 mask, 3 handle, 4 special, 5 bound. -/
abbrev RegName := Nat × Nat

/-- The registers of ranges. -/
def rangeRegs (l : List (Nat × Nat)) : List RegName := l.flatMap (fun p => (List.range p.2).map (fun k => (0, p.1 + k)))

/-- The register of an operand other than a vector register. -/
def opReg : Operand → List RegName
  | .s n => [(1, n.toNat)]
  | .k n => [(2, n.toNat)]
  | .h n => [(3, n.toNat)]
  | .sp r => [(4, spCode r)]
  | _ => []

/-- Whether NWB of an instruction keeps its destination unwritten; in the memory layouts the bit is SX (R133). -/
def isNwb (i : Instr) : Bool :=
  match layOf i with
  | some (.gen w) => w.hdr.nwb
  | some (.br w) => w.hdr.nwb
  | _ => false

/-- The bound register that an instruction writes (R208). -/
def boundReg : Instr → List RegName
  | .bset w => [(5, w.opx.toNat % 16)]
  | _ => []

/-- The registers that an instruction writes (R122). -/
def regsWritten (i : Instr) : List RegName :=
  (if isNwb i then [] else rangeRegs (vDst i (litDesc i)) ++ (match dstOp i with | some o => opReg o | none => []))
    ++ (if cResult i then match (insOps i)[3]? with | some o => opReg o | none => [] else []) ++ boundReg i

/-- The registers that an instruction reads or writes; the mask register of its lane set is one (R122). -/
def regsNamed (i : Instr) : List RegName :=
  rangeRegs (vNamed i (litDesc i)) ++ (insOps i).flatMap opReg
    ++ (if (insHdr i).msk = 0 then [] else [(2, (insHdr i).msk.toNat)]) ++ boundReg i

/-! ### Groups (R122, R136) -/

/-- The groups of the opcode map that a pair may come from, and those that limit it. -/
inductive Group
  | scalar | mask | vector | matrix | memory | other
  deriving DecidableEq, Repr

/-- The opcode of an instruction. -/
def opcOf (i : Instr) : Nat := match encode i with | some (w, _) => w.toNat / 2 ^ 86 | none => 1024

/-- The group of an opcode (R136). -/
def groupOf (opc : Nat) : Group :=
  if 0x040 ≤ opc ∧ opc < 0x080 then .scalar
  else if 0x080 ≤ opc ∧ opc < 0x0A0 then .mask
  else if 0x0A0 ≤ opc ∧ opc < 0x1A0 then .vector
  else if 0x1A0 ≤ opc ∧ opc < 0x1C0 then .matrix
  else if 0x1C0 ≤ opc ∧ opc < 0x240 then .memory
  else .other

/-- The instructions of the special-function unit (R122). -/
def isSfu : Instr → Bool
  | .vrcp _ | .vrsq _ | .vsqrt _ | .vdiv _ | .vexp2 _ | .vlog2 _ => true
  | _ => false

/-- Cross-lane reads, which may set D of %cc (R194), and vector instructions that write flags: VSCA reads lanes where its scale is a vector (R206),
MSCA where it has .row (R217). -/
def vectorFlags : Instr → Bool
  | .vshuf _ | .vxsh _ | .vbcast _ | .mtrn _ | .vcomp _ | .vapnd _ | .vvote _ => true
  | .vsca w => isVec w.b || w.b == .sp .lane
  | .msca w => bitAt w.opx.toNat 2
  | _ => false

/-- Whether an instruction writes a flag of %cc by its entry. -/
def writesCC (i : Instr) : Bool :=
  match i with
  | .sli _ | .ssel _ => false
  | i => groupOf (opcOf i) == .scalar || groupOf (opcOf i) == .mask || vectorFlags i || (regsWritten i).contains (4, 76)

/-- Whether an instruction reads %cc: by its guard, as SSEL, or by an operand (R122). -/
def readsCC (i : Instr) : Bool :=
  (insHdr i).grd != .al || (match i with | .ssel _ => true | _ => false) || (insOps i).contains (.sp .cc)

/-- Whether a pair of instructions is legal (R122). -/
def pairLegal (i j : Instr) : Bool :=
  let g := groupOf (opcOf i)
  let h := groupOf (opcOf j)
  let sm (x : Group) : Bool := x == .scalar || x == .mask
  let mm (x : Group) : Bool := x == .matrix || x == .memory
  let isFence (x : Instr) : Bool := match x with | .fence _ => true | _ => false
  g != .other && h != .other && !isFence i && !isFence j && !(sm g && sm h) && !(mm g && mm h) && !(isSfu i && isSfu j)
    && (regsNamed j).all (fun r => !(regsWritten i).contains r)
    && !(xRegs j).contains 1 && (qRegs j).all (fun q => !(qRegs i).contains q)
    && !(writesCC i && (readsCC j || writesCC j))

/-! ### Lines (R119 to R121) -/

/-- Parity bit i of a line: the exclusive OR of every bit of bytes i, i + 8, and so on below 60 (R119). -/
def parityBit (l : List Byte) (i : Nat) : Bool :=
  ((List.range 60).filter (fun k => k % 8 == i)).foldl (fun p k => p != (popcount 8 ((l[k]?).getD 0).toNat % 2 == 1)) false

/-- PAR of the 60 slot bytes of a line (R119). -/
def parityOf (l : List Byte) : Nat := (List.range 8).foldl (fun a i => a + 2 ^ i * b2n (parityBit l i)) 0

/-- The line word of a line. -/
def lineWord (l : List Byte) : Nat := bytesToNat ((l.drop 60).take 4)

/-- The word of slot n of a line. -/
def slotWord (l : List Byte) (n : Nat) : W96 := wordOf (l.drop (12 * n))

/-- Whether slot n of a line holds a literal, by LITM. -/
def isLitSlot (l : List Byte) (n : Nat) : Bool := bitAt (lineWord l) (14 + n)

/-- Whether slot n of a line is a legal branch target, by TGT. -/
def isTarget (l : List Byte) (n : Nat) : Bool := bitAt (lineWord l) (19 + n)

/-- The CHAIN bit of a line. -/
def isChain (l : List Byte) : Bool := bitAt (lineWord l) 7

/-- The instruction of slot n of a line, with its literal. -/
def slotIns (l : List Byte) (n : Nat) : Option Instr :=
  if isLitSlot l n then none
  else decode (slotWord l n) (if (slotWord l n).getLsbD 59 then some (slotWord l (n + 1)) else none)

/-- The pairs of a template (R119). -/
def pairsOf : Nat → List (Nat × Nat)
  | 1 => [(0, 1)] | 2 => [(1, 2)] | 3 => [(2, 3)] | 4 => [(3, 4)]
  | 5 => [(0, 1), (2, 3)] | 6 => [(0, 1), (3, 4)] | 7 => [(1, 2), (3, 4)]
  | _ => []

/-- The opcode of a slot. -/
def slotOpc (l : List Byte) (n : Nat) : Nat := (slotWord l n).toNat / 2 ^ 86

/-- Opcodes that a chained line must not hold: BARS, BARW, WAITB, TRYW, HWAIT, CLAIM, WAITT and YIELD (R121). -/
def waitOpcs : List Nat := [0x2C4, 0x2C6, 0x284, 0x286, 0x2C9, 0x2C8, 0x2CA, 0x00C]

/-- Whether slot n of a line passes the literal and target checks of R121. -/
def slotOk (l : List Byte) (n : Nat) : Bool :=
  if isLitSlot l n then
    n != 0 && !isLitSlot l (n - 1) && (slotWord l (n - 1)).getLsbD 59 && decide ((slotWord l n).toNat < 2 ^ 64) && !isTarget l n
  else
    (!(slotWord l n).getLsbD 59 || (decide (n < 4) && isLitSlot l (n + 1))) && !(isChain l && waitOpcs.contains (slotOpc l n))

/-- Whether the pairs of a line's template are legal; a slot that holds no legal instruction is in no pair (log 15). -/
def pairsOk (l : List Byte) : Bool :=
  (pairsOf (bits (lineWord l) 8 6)).all (fun p => match slotIns l p.1, slotIns l p.2 with
    | some i, some j => pairLegal i j
    | _, _ => false)

/-- The line check of R121 over 64 bytes. -/
def lineOk (l : List Byte) : Bool :=
  parityOf l == bits (lineWord l) 24 8 && bits (lineWord l) 0 7 == 0 && decide (bits (lineWord l) 8 6 < 8)
    && (List.range 5).all (slotOk l) && pairsOk l

end Sys2Proof.Machine
end

