-- ==== Sys2Proof/Machine/Xlate.lean ====
section
/-! DEFINITION. Apertures (R66), address translation (R298 to R304), the instruction caches and the fetch of a line (R118 to R121,
R351). -/

namespace Sys2Proof.Machine

/-! ### Apertures (R66) -/

/-- The aperture an address lies in, with its offset. -/
inductive Aper
  | global | shelf (off : Nat) | cshelf (rank off : Nat) | annex (off : Nat) | stack (off : Nat) | none
  deriving DecidableEq, Repr

/-- The aperture comparators (R66). -/
def aperOf (a : W64) : Aper :=
  let x := a.toNat
  if x < 2 ^ 57 then .global
  else if x / 2 ^ 24 = 0xFF00000000 then .shelf (x % 2 ^ 24)
  else if x / 2 ^ 32 = 0xFF100000 then .cshelf (bits x 24 8) (x % 2 ^ 24)
  else if x / 2 ^ 28 = 0xFF2000000 then .annex (x % 2 ^ 28)
  else if x / 2 ^ 48 = 0xFF40 then .stack (x % 2 ^ 48)
  else .none

/-! ### Leaf entries (R300) -/

/-- V of an entry. -/
def entV (e : Nat) : Bool := bitAt e 0
/-- R of a leaf. -/
def leafR (e : Nat) : Bool := bitAt e 1
/-- W of a leaf. -/
def leafW (e : Nat) : Bool := bitAt e 2
/-- X of a leaf. -/
def leafX (e : Nat) : Bool := bitAt e 3
/-- APER of a leaf: 0 local HBM, 1 peer, 2 CXL tier, 3 host. -/
def leafAper (e : Nat) : Nat := bits e 4 2
/-- RATOM of a leaf. -/
def leafRatom (e : Nat) : Bool := bitAt e 6
/-- MANAGED of a leaf. -/
def leafManaged (e : Nat) : Bool := bitAt e 7
/-- PINNED of a leaf. -/
def leafPinned (e : Nat) : Bool := bitAt e 8
/-- DIRTY of a leaf. -/
def leafDirty (e : Nat) : Bool := bitAt e 11
/-- PEER of a leaf. -/
def leafPeer (e : Nat) : Nat := bits e 12 9
/-- FRAME of a leaf, in 4 KiB units. -/
def leafFrame (e : Nat) : Nat := bits e 21 36

/-- Whether a leaf of a page of 2^n bytes is well formed (R301). -/
def leafOk (n e : Nat) : Bool :=
  bits e 57 7 == 0 && leafFrame e % 2 ^ (n - 12) == 0
    && (if leafAper e = 1 then leafFrame e == 0 else leafPeer e == 0)
    && (leafAper e != 0 || decide (leafFrame e * 4096 + 2 ^ n ≤ hbmEnd))

/-- Whether a table entry of a level is well formed (R299, R301). -/
def tableOk (level e : Nat) : Bool :=
  bits e 48 16 == 0 && bits e 5 7 == 0 && (!bitAt e 4 || level == 2) && decide (bits e 12 36 * 4096 + 4096 ≤ hbmEnd)

/-! ### The walk (R298 to R303) -/

/-- The end of a walk: a leaf; an entry with V = 0, its physical address and level; a malformed entry. -/
inductive Walk
  | leaf (e : TlbEntry)
  | invalid (entry eaddr : W64) (level : Nat)
  | malformed
  deriving DecidableEq, Repr

/-- The leaf of a page of 2^n bytes found at physical address `ea`. -/
def leafAt (asid va n ea e : Nat) : Walk :=
  if leafOk n e then .leaf { asid := asid, base := va / 2 ^ n * 2 ^ n, size := n, leaf := w64 e, at_ := ea } else .malformed

/-- The entry of a 64 KiB table, which is always a leaf (R299). -/
def walk64 (s : State) (asid va table : Nat) : Walk :=
  let ea := table + 8 * bits va 16 5
  let e := readNat s .hbm ea 8
  if entV e then leafAt asid va 16 ea e else .invalid (w64 e) (w64 ea) 0

/-- The walk from the table of a level down (R298). -/
def walkFrom (s : State) (asid va : Nat) : Nat → Nat → Walk
  | 0, _ => .malformed
  | l + 1, table =>
    let ea := table + 8 * bits va (12 + 9 * l) 9
    let e := readNat s .hbm ea 8
    if !entV e then .invalid (w64 e) (w64 ea) (l + 1)
    else if l = 0 then leafAt asid va 12 ea e
    else if bits e 1 3 = 0 then
      if !tableOk (l + 1) e then .malformed
      else if bitAt e 4 then walk64 s asid va (bits e 12 36 * 4096)
      else walkFrom s asid va l (bits e 12 36 * 4096)
    else if l = 1 then leafAt asid va 21 ea e
    else if l = 2 then leafAt asid va 30 ea e
    else .malformed

/-- The cached translation of an address (R303). -/
def tlbFind (s : State) (asid va : Nat) : Option TlbEntry :=
  s.tlb.find? (fun e => e.asid == asid && decide (e.base ≤ va) && decide (va < e.base + 2 ^ e.size))

/-- The translation of an address: a cached entry where one is held, else a walk. A write through a cached leaf with DIRTY clear
whose entry has changed walks again (R304). -/
def translate (s : State) (asid : Nat) (root : W64) (va : Nat) (write : Bool) : Walk :=
  match tlbFind s asid va with
  | some e =>
    if write && !leafDirty e.leaf.toNat && readNat s .hbm e.at_ 8 != e.leaf.toNat then walkFrom s asid va 5 root.toNat else .leaf e
  | none => walkFrom s asid va 5 root.toNat

/-- A translation held in the caches; it replaces one of the same page. -/
def cacheXlate (s : State) (e : TlbEntry) : State :=
  if s.tlb.contains e then s
  else { s with tlb := s.tlb.filter (fun x => !(x.asid == e.asid && decide (x.base < e.base + 2 ^ e.size)
    && decide (e.base < x.base + 2 ^ x.size))) ++ [e] }

/-- DIRTY set through a leaf by the first write, by a compare and swap against the entry that was read (R304). -/
def setDirty (s : State) (e : TlbEntry) : State :=
  if leafDirty e.leaf.toNat || readNat s .hbm e.at_ 8 != e.leaf.toNat then s
  else
    let n := e.leaf.toNat + 2 ^ 11
    cacheXlate (writeRange s .hbm e.at_ (natToBytes 8 n)) { e with leaf := w64 n }

/-- The address in its frame: FRAME × 4 KiB plus the page offset (R300). -/
def frameAddr (e : TlbEntry) (va : Nat) : Nat := leafFrame e.leaf.toNat * 4096 + (va - e.base)

/-! ### Fetch (R118 to R121, R351) -/

/-- Why a fetch does not deliver an instruction. -/
inductive FetchStop
  | trap (cause : Nat) (faddr : W64)
  | park (entry eaddr : W64) (level : Nat) (cause : Nat)
  deriving DecidableEq, Repr

/-- The translation of a fetch of an address (R118), a raw access, which may not reach a managed page that is not pinned (R88). -/
def fetchXlate (s : State) (c : Ctx) (pc : W64) : Except FetchStop TlbEntry :=
  match aperOf pc with
  | .none => .error (.trap 0x09 pc)
  | .global =>
    match translate s c.asid c.ptroot pc.toNat false with
    | .malformed => .error (.trap 0x09 pc)
    | .invalid e ea l => if c.fswWave.isSome then .error (.park e ea l 0x09) else .error (.trap 0x09 pc)
    | .leaf e =>
      let l := e.leaf.toNat
      if !(leafAper l = 0 && leafX l) then .error (.trap 0x0A pc)
      else if leafManaged l && !leafPinned l then .error (.trap 0x0B pc) else .ok e
  | _ => .error (.trap 0x0A pc)

/-- A line held in a core's instruction cache (R351). -/
def icacheFind (s : State) (core asid : Nat) (addr : W64) : Option ILine :=
  s.icache.find? (fun l => l.core == core && l.asid == asid && l.addr == addr)

/-- Whether the parity of a line holds (R119). -/
def parityOk (l : List Byte) : Bool := parityOf l == bits (lineWord l) 24 8

/-- The 64 bytes of a line in memory, at its point of order. A fetch, like a page-table walk, is not checked against the crossbar's matrix: R342
names loads, stores, atomics and engines (log 117). -/
def lineInMem (s : State) (e : TlbEntry) (pc : W64) : List Byte := memGets s.hbm (frameAddr e (lineAddr pc).toNat) 64

/-- The 64 bytes of a line: from the core's instruction cache, if its parity holds there, else from memory (R120). -/
def lineBytes (s : State) (core : Nat) (e : TlbEntry) (pc : W64) : List Byte :=
  match icacheFind s core e.asid (lineAddr pc) with
  | some l => if parityOk l.bytes then l.bytes else lineInMem s e pc
  | none => lineInMem s e pc

/-- The lines that an instruction cache of 64 KiB holds (R8). -/
def icacheLines : Nat := 1024

/-- A line put into a core's instruction cache; the one it has held longest leaves a full cache (log 79). -/
def putLine (s : State) (x : ILine) : State :=
  let mine := s.icache.filter (fun l => l.core == x.core)
  let rest := match mine with
    | l :: _ => if icacheLines ≤ mine.length then s.icache.filter (fun y => y != l) else s.icache
    | [] => s.icache
  { s with icache := rest ++ [x] }

/-- A line and its translation held in the caches. -/
def cacheLine (s : State) (core : Nat) (e : TlbEntry) (pc : W64) (l : List Byte) : State :=
  let s1 := cacheXlate s e
  match icacheFind s1 core e.asid (lineAddr pc) with
  | some _ => s1
  | none => putLine s1 { core := core, asid := e.asid, base := e.base, size := e.size, addr := lineAddr pc, bytes := l }

/-- The refetch of a line (R120): a cached line whose parity fails leaves the cache, and when memory's copy passes one corrected record
is written to the core's cluster's bank (R334, R335). -/
def refetch (s : State) (core : Nat) (e : TlbEntry) (pc : W64) : State :=
  match icacheFind s core e.asid (lineAddr pc) with
  | none => s
  | some x =>
    if parityOk x.bytes then s
    else
      let s1 : State := { s with icache := s.icache.filter (fun y => y != x) }
      if parityOk (lineInMem s e pc) then
        rowRecord s1 (some (.row core)) (clusterOf core) 1 2 (some (w64 (frameAddr e (lineAddr pc).toNat))) none (miscOf core 0)
      else s1

/-- The fetch of the line of a program counter for a wave, checked under R121: the line, or why there is none. -/
def peekLine (s : State) (w : Wave) (pc : W64) : Except FetchStop (TlbEntry × List Byte) :=
  match fetchXlate s (getCtx s w.ctx) pc with
  | .error x => .error x
  | .ok e =>
    let l := lineBytes s w.core e pc
    if lineOk l then .ok (e, l) else .error (.trap 0x02 (lineAddr pc))

/-- The state as a wave's fetch at a program counter meets it, a line that must be fetched again having been (R120). -/
def refetchAt (s : State) (w : Wave) (pc : W64) : State :=
  match fetchXlate s (getCtx s w.ctx) pc with
  | .ok e => refetch s w.core e pc
  | .error _ => s

/-- The line of a program counter where it can be fetched and passes its check. -/
def lineAt (s : State) (w : Wave) (pc : W64) : Option (List Byte) :=
  match peekLine s w pc with
  | .ok (_, l) => some l
  | .error _ => none

/-- The instruction at a program counter, as far as it can be read without an effect. -/
def insAt (s : State) (w : Wave) (pc : W64) : Option Instr :=
  match slotIndex pc, lineAt s w pc with
  | some n, some l => slotIns l n
  | _, _ => none

end Sys2Proof.Machine
end

