-- ==== Sys2Proof/Machine/Packet.lean ====
section
/-! DEFINITION. The sending side of the fabric at issue: sequence spaces, traffic classes, and the split of an access into packets
(R82, R317, R318, R321, R324). -/

namespace Sys2Proof.Machine

/-- The class of an ASID (R324): FAB_CLASS_j at reset holds class 1 for every ASID. -/
def classOf (s : State) (asid : Nat) : Nat := bits (assoc s.fab.classes (asid / 16) 0x55555555#32).toNat (2 * (asid % 16)) 2

/-- What this device knows of a peer (R313): STATE and incarnation; of itself, its own while it has joined. -/
def peerOf (s : State) (p : Nat) : BitVec 2 × BitVec 16 :=
  if s.fab.joined ∧ p = s.fab.id.toNat then (1, s.fab.inc) else assoc s.fab.peers p (0, 0)

/-- Whether a request to a peer may be sent: the device has joined and the peer is up (R312, R321). -/
def peerUp (s : State) (p : Nat) : Bool := s.fab.joined && (peerOf s p).1 == 1

/-- The sequence space of a request as a source. -/
def spaceOut (s : State) (sp : SeqSpace) : SeqOut :=
  (s.fab.spacesOut.find? (fun x => x.space == sp)).getD { space := sp, next := 0, resync := false }

/-- A sequence space as a source replaced. -/
def putSpaceOut (s : State) (x : SeqOut) : State :=
  let l := s.fab.spacesOut
  let m := if l.any (fun y => y.space == x.space) then l.map (fun y => if y.space == x.space then x else y) else l ++ [x]
  { s with fab := { s.fab with spacesOut := m } }

/-- The outstanding packets of a space. -/
def outIn (s : State) (sp : SeqSpace) : List OutPkt := s.fab.out.filter (fun p => p.space == sp)

/-- The size in bytes of an element of an access. -/
def elemSize (a : Access) : Nat := tySize a.ty

/-- The kind of a request packet for an access: 0 write, 1 read, 2 atomic. -/
def pktKind : AccKind → Nat
  | .store => 0 | .load => 1 | _ => 2

/-- The elements of a list that lie in a granule. -/
def inGranule (l : List Elem) (g : Nat) : List Elem := l.filter (fun e => e.addr.toNat / 8 == g)

/-- The granules, in the order of their first elements, that one packet of 64 records takes whole. -/
def packGranules (l : List Elem) : List Nat :=
  (((l.map (fun e => e.addr.toNat / 8)).eraseDups).foldl (fun (b : List Nat × Nat) g =>
    let n := b.2 + (inGranule l g).length
    if n ≤ 64 then (b.1 ++ [g], n) else b) ([], 0)).1

/-- Reads and atomics split into packets of up to 64 records, the elements of one granule together and in their order (R317); more than 64 of
one granule go in packets of 64 (log 16). `fuel` bounds the packets. -/
def splitRecords : Nat → List Elem → List (List Elem)
  | 0, _ => []
  | f + 1, l => match l with
    | [] => []
    | e :: _ =>
      let gs := packGranules l
      let p := if gs.isEmpty then (inGranule l (e.addr.toNat / 8)).take 64 else l.filter (fun x => gs.contains (x.addr.toNat / 8))
      p :: splitRecords f (l.filter (fun x => !p.contains x))

/-- Writes split by 4 KiB-aligned range (R317). -/
def splitRanges (l : List Elem) : List (List Elem) :=
  ((l.map (fun e => e.addr.toNat / 4096)).eraseDups).map (fun r => l.filter (fun e => e.addr.toNat / 4096 == r))

/-- The peers that the elements of an access reach, ascending (R234). -/
def peersOf (a : Access) : List Nat :=
  (List.range 512).filter (fun p => a.elems.any (fun e => e.site == .peer (BitVec.ofNat 9 p)))

/-- The elements of an access that lie on a peer. -/
def elemsAt (a : Access) (p : Nat) : List Elem := a.elems.filter (fun e => e.site == .peer (BitVec.ofNat 9 p))

/-- The packets of an access to a peer, as groups of elements. -/
def packetsTo (a : Access) (p : Nat) : List (List Elem) :=
  match a.kind with
  | .store => splitRanges (elemsAt a p)
  | _ => splitRecords (elemsAt a p).length (elemsAt a p)

/-- The sequence space of a request of an ASID to a peer; a PSTS names its stream (R82, R318). -/
def spaceFor (s : State) (asid p : Nat) (stream : Option Nat) : SeqSpace :=
  match stream with
  | some x => { peer := p, asid := asid, streamed := true, sub := x }
  | none => { peer := p, asid := asid, streamed := false, sub := classOf s asid }

/-- Whether the packets of an access find room in their spaces, and no stream among them is resynchronising (R84, R318). -/
def packetRoom (s : State) (a : Access) (asid : Nat) (stream : Option Nat) : Bool :=
  (peersOf a).all (fun p =>
    let sp := spaceFor s asid p stream
    !peerUp s p || (!(spaceOut s sp).resync && decide ((outIn s sp).length + (packetsTo a p).length ≤ 1024)))

/-- One packet put into the queue of its flow, with the next number of its space. -/
def sendPacket (s : State) (a : Access) (els : List Elem) (sp : SeqSpace) (asid : Nat) (owner : Owner) (hold : Bool) : State :=
  let x := spaceOut s sp
  let p : OutPkt := { id := s.nextId, space := sp, seq := x.next, dinc := (peerOf s sp.peer).2, cls := classOf s asid,
                      kind := pktKind a.kind, acc := { a with elems := els }, owner := owner, hold := hold, queued := true, first := none,
                      last := s.ns, ins := none, srcs := [], poison := [] }
  let s1 := putSpaceOut { s with nextId := s.nextId + 1 } { x with next := x.next + 1 }
  { s1 with fab := { s1.fab with out := s1.fab.out ++ [p] } }

/-- The packets of an access to every peer that is up, in ascending peer order. -/
def sendAll (s : State) (a : Access) (asid : Nat) (stream : Option Nat) (owner : Owner) (hold : Bool) : State :=
  (peersOf a).foldl (fun x p =>
    if peerUp x p then (packetsTo a p).foldl (fun y els => sendPacket y a els (spaceFor y asid p stream) asid owner hold) x
    else x) s

/-- The elements of an access whose peer cannot be reached at issue, which fail at once with 0x11 (R321). -/
def deadElems (s : State) (a : Access) : List Elem :=
  a.elems.filter (fun e => match e.site with
    | .peer p => !peerUp s p.toNat
    | _ => false)

/-! ### Packets on the wire (R316, R317) -/

/-- The CRC-64 with the ECMA-182 polynomial after one byte, its most significant bit first (log 91). -/
def crc64Byte (c : W64) (b : Byte) : W64 :=
  (List.range 8).foldl (fun x _ => if x.getLsbD 63 then (x <<< 1) ^^^ 0x42F0E1EBA9EA3693 else x <<< 1) (c ^^^ (b.setWidth 64 <<< 56))

/-- The integrity tag of a packet: the CRC-64 over every flit. -/
def flitTag (l : List (List Byte)) : W64 := l.flatten.foldl crc64Byte 0

/-- The fields of a header flit. -/
structure Head where
  dst : Nat
  src : Nat
  dinc : BitVec 16
  sinc : BitVec 16
  asid : Nat
  kind : Nat
  streamed : Bool
  sub : Nat
  seq : W32
  base : Nat
  lines : Nat
  cls : Nat
  recs : Nat
  etype : Nat
  aop : Nat
  part : Bool
  aseq : W32
  status : Nat
  deriving DecidableEq, Repr

/-- A header flit. -/
def headBytes (h : Head) : List Byte :=
  natToBytes 2 h.dst ++ natToBytes 2 h.src ++ natToBytes 2 h.dinc.toNat ++ natToBytes 2 h.sinc.toNat ++ natToBytes 2 h.asid ++ natToBytes 1 h.kind
    ++ natToBytes 1 (128 * b2n h.streamed + h.sub) ++ natToBytes 4 h.seq.toNat ++ natToBytes 8 h.base ++ natToBytes 8 h.lines ++ natToBytes 1 h.cls
    ++ natToBytes 1 h.recs ++ natToBytes 1 h.etype ++ natToBytes 1 h.aop ++ natToBytes 1 (b2n h.part) ++ natToBytes 3 0
    ++ natToBytes 8 (h.aseq.toNat + 2 ^ 32 * h.status) ++ natToBytes 16 0

/-- The fields that a header flit holds. -/
def headOf (l : List Byte) : Head :=
  { dst := fld l 0 2, src := fld l 2 2, dinc := BitVec.ofNat 16 (fld l 4 2), sinc := BitVec.ofNat 16 (fld l 6 2), asid := fld l 8 2,
    kind := fld l 0x0A 1, streamed := bitAt (fld l 0x0B 1) 7, sub := bits (fld l 0x0B 1) 0 6, seq := w32 (fld l 0x0C 4), base := fld l 0x10 8,
    lines := fld l 0x18 8, cls := bits (fld l 0x20 1) 0 2, recs := fld l 0x21 1, etype := fld l 0x22 1, aop := fld l 0x23 1,
    part := bitAt (fld l 0x24 1) 0, aseq := w32 (fld l 0x28 4), status := fld l 0x2C 1 }

/-- Whether a header flit has no reserved KIND and no reserved field that is not zero; a field's bits beside those that R316 names are reserved,
and so are type and operation codes that R99 and R133 do not give (log 91). -/
def flitOk (l : List Byte) : Bool :=
  let h := headOf l
  l.length == 64 && decide (h.kind ≤ 7) && decide (h.dst < 512) && decide (h.src < 512) && bits (fld l 0x0B 1) 6 1 == 0 && bits (fld l 0x20 1) 2 6 == 0
    && bits (fld l 0x24 1) 1 7 == 0 && fld l 0x25 3 == 0 && fld l 0x2D 3 == 0 && fld l 0x30 16 == 0
    && (tyOf h.etype).isSome && (aopOf h.aop).isSome

/-- A request as its packet describes it: the header's fields, whether its header and its tag are good, the records of a read or atomic, and
the enabled bytes of a write with the lines of addresses that are poisoned. -/
structure Req where
  kind : Nat
  dst : BitVec 9
  src : BitVec 9
  dinc : BitVec 16
  sinc : BitVec 16
  asid : Nat
  streamed : Bool
  sub : Nat
  cls : Nat
  seq : W32
  etype : Ty
  aop : Aop
  recs : List PacketRec
  bytes : List (Nat × Byte)
  headerOk : Bool
  tagOk : Bool
  acquire : Bool
  linkFails : Bool
  poison : List Nat
  deriving DecidableEq, Repr

/-- A flit of a packet. -/
def flitAt (l : List (List Byte)) (i : Nat) : List Byte := (l[i]?).getD []

/-- The enabled bytes of a write packet (R317): each carried line in ascending order, whole or under its byte enables. -/
def writeBytesOf (h : Head) (flits : List (List Byte)) : List (Nat × Byte) :=
  let ls := (List.range 64).filter (bitAt h.lines)
  let be := if h.part then (ls.length + 7) / 8 else 0
  let en (i : Nat) : Nat := if h.part then fld (flitAt flits (1 + i / 8)) (8 * (i % 8)) 8 else 2 ^ 64 - 1
  (List.range ls.length).flatMap (fun i =>
    let d := flitAt flits (1 + be + i)
    (List.range 64).filterMap (fun b => if bitAt (en i) b then some (h.base + 64 * (ls[i]?).getD 0 + b, (d[b]?).getD 0) else none))

/-- The records of a read or atomic packet (R317): as many as RECS says. That none, or more than 64, are served too is the model's choice
(log 111): the manual gives no action for them. -/
def recsOf (h : Head) (flits : List (List Byte)) : List PacketRec :=
  let l := (flits.drop 1).flatten
  (List.range h.recs).map (fun i => { addr := w64 (fld l (16 * i) 8), data := w64 (fld l (16 * i + 8) 8) })

/-- The request that a packet brings. -/
def reqOf (p : Packet) : Req :=
  let l := flitAt p.flits 0
  let h := headOf l
  { kind := h.kind, dst := BitVec.ofNat 9 h.dst, src := BitVec.ofNat 9 h.src, dinc := h.dinc, sinc := h.sinc, asid := h.asid,
    streamed := h.streamed, sub := if h.streamed then h.sub else h.cls, cls := h.cls, seq := h.seq, etype := (tyOf h.etype).getD .b32,
    aop := (aopOf h.aop).getD .add, recs := if h.kind = 1 ∨ h.kind = 2 then recsOf h p.flits else [],
    bytes := if h.kind = 0 then writeBytesOf h p.flits else [], headerOk := flitOk l, tagOk := p.tag == flitTag p.flits, acquire := p.acquire,
    linkFails := p.linkFails, poison := if h.kind = 0 then p.poison.map (h.base / 64 + ·) else [] }

/-- A reply as its packet describes it: the space and number it answers, its status, the results in record order, and whether its header and its
tag are good. -/
structure Ans where
  kind : Nat
  dst : BitVec 9
  dinc : BitVec 16
  sinc : BitVec 16
  space : SeqSpace
  seq : W32
  status : Nat
  results : List W64
  poison : List Nat
  headerOk : Bool
  tagOk : Bool
  deriving DecidableEq, Repr

/-- The reply that a packet brings. -/
def ansOf (a : Answer) : Ans :=
  let l := flitAt a.flits 0
  let h := headOf l
  let body := (a.flits.drop 1).flatten
  { kind := h.kind, dst := BitVec.ofNat 9 h.dst, dinc := h.dinc, sinc := h.sinc,
    space := { peer := h.src, asid := h.asid, streamed := h.streamed, sub := if h.streamed then h.sub else h.cls }, seq := h.aseq, status := h.status,
    results := (List.range (body.length / 8)).map (fun i => w64 (fld body (8 * i) 8)), poison := a.poison,
    headerOk := flitOk l, tagOk := a.tag == flitTag a.flits }

/-- Bytes in flits of 64, the last filled with zeros; `fuel` bounds them. -/
def inFlits : Nat → List Byte → List (List Byte)
  | 0, _ => []
  | f + 1, l => if l.isEmpty then [] else (l.take 64 ++ List.replicate (64 - l.length) 0) :: inFlits f (l.drop 64)

/-- The bytes that an outgoing write carries, the later of two for one address standing first. -/
def pktBytes (p : OutPkt) : List (Nat × Byte) :=
  (p.acc.elems.flatMap (fun e => (List.range (elemSize p.acc)).map (fun i => (e.addr.toNat + i, BitVec.ofNat 8 (e.data.toNat / 2 ^ (8 * i)))))).reverse

/-- The header of an outgoing packet. CAS has no operation code on the wire (log 61). -/
def pktHead (s : State) (p : OutPkt) : Head :=
  { dst := p.space.peer, src := s.fab.id.toNat, dinc := p.dinc, sinc := s.fab.inc, asid := p.space.asid, kind := p.kind, streamed := p.space.streamed,
    sub := if p.space.streamed then p.space.sub else 0, seq := p.seq, base := 0, lines := 0, cls := p.cls, recs := 0, etype := tyCode p.acc.ty,
    aop := match p.acc.kind with | .atom o => aopCode o | _ => 0, part := false, aseq := 0, status := 0 }

/-- The flits of an outgoing packet (R316, R317). -/
def wireOf (s : State) (p : OutPkt) : List (List Byte) :=
  let h := pktHead s p
  if p.kind = 0 then
    let bs := pktBytes p
    let base := (match bs with | b :: _ => b.1 | [] => 0) / 4096 * 4096
    let has (j i : Nat) : Bool := bs.any (fun b => b.1 == base + 64 * j + i)
    let ls := (List.range 64).filter (fun j => (List.range 64).any (has j))
    let whole := ls.all (fun j => (List.range 64).all (has j))
    let en := ls.flatMap (fun j => natToBytes 8 ((List.range 64).foldl (fun a i => if has j i then a + 2 ^ i else a) 0))
    headBytes { h with base := base, lines := ls.foldl (fun a j => a + 2 ^ j) 0, part := !whole }
      :: (if whole then [] else inFlits 8 en)
      ++ ls.map (fun j => (List.range 64).map (fun i => match bs.find? (fun b => b.1 == base + 64 * j + i) with | some b => b.2 | none => 0))
  else
    headBytes { h with recs := p.acc.elems.length } :: inFlits 16 (p.acc.elems.flatMap (fun e =>
      natToBytes 8 e.addr.toNat ++ natToBytes 8 (if p.kind = 1 then 0 else e.data.toNat)))

/-- The flits of a reply of this device. -/
def replyWire (s : State) (r : OutReply) : List (List Byte) :=
  headBytes { dst := r.peer, src := s.fab.id.toNat, dinc := r.dinc, sinc := s.fab.inc, asid := r.space.asid, kind := r.kind,
              streamed := r.space.streamed, sub := if r.space.streamed then r.space.sub else 0, seq := 0, base := 0, lines := 0, cls := r.cls, recs := 0,
              etype := 0, aop := 0, part := false, aseq := r.seq, status := r.status }
    :: inFlits 8 (r.results.flatMap (fun x => natToBytes 8 x.toNat))

/-! ### Peers of an access -/

/-- The incarnation and id of a peer, as PEER of a frame holds them (R57). -/
def peerWord (s : State) (p : Nat) : W32 := w32 ((peerOf s p).2.toNat * 65536 + p % 512)

/-- PEER of the operand record of an access: its lowest peer (R57). -/
def firstPeer (s : State) (a : Access) : W32 :=
  match peersOf a with
  | p :: _ => peerWord s p
  | [] => 0

end Sys2Proof.Machine
end

