-- ==== Sys2Proof/Machine/Heap.lean ====
section
/-! DEFINITION. Addresses that the device itself reads and writes under a context's tables, and the managed heap: its descriptors,
reference words, catalogue lookup and the resolution of a word (R88 to R96). -/

namespace Sys2Proof.Machine

/-! ### Device accesses under a context (R269, R350) -/

/-- DIRTY of the leaf that a write goes through (R304). -/
def dirtyAt (s : State) (c : Ctx) (a : W64) : State :=
  if aperOf a = .global then
    match translate s c.asid c.ptroot a.toNat true with
    | .leaf e => setDirty s e
    | _ => s
  else s

/-- Whether a link refuses, or lets time out, an access of `n` bytes at a place (R309). -/
def linkRefuses (s : State) (sp : Space) (o n : Nat) : Bool :=
  s.refusals.any (fun r => r.1 == sp && decide (o < r.2.2) && decide (r.2.1 < o + n))

/-- What the device knows of a host page (R307): its frame; that the host has reported it absent or without the permission; or nothing yet. -/
inductive HostPage
  | at_ (frame : Nat) | refused | unknown
  deriving DecidableEq, Repr

/-- A host page by the cached host translations and the answers that are still to be met. -/
def hostPage (s : State) (asid : Nat) (page : W64) (write : Bool) : HostPage :=
  match s.link.ats.find? (fun x => x.1 == asid && x.2.1 == page) with
  | some (_, _, e) => if (if write then e.w else e.r) then .at_ e.frame.toNat else .refused
  | none => if s.link.refusedPages.contains (asid, page) then .refused else .unknown

/-- The host asked for the translation of a page (R307). -/
def askHost (s : State) (asid : Nat) (page : W64) : State :=
  if s.link.asked.contains (asid, page) then s else { s with link := { s.link with asked := s.link.asked ++ [(asid, page)] } }

/-- Cached host translations dropped; the accesses that used one may still be under way, and an invalidation of its page waits for them (R307). -/
def dropAts (s : State) (go : Nat → W64 → Bool) : State :=
  { s with link := { s.link with
      ats := s.link.ats.filter (fun x => !go x.1 x.2.1),
      left := (s.link.left ++ s.link.ats.filter (fun x => go x.1 x.2.1)).eraseDups } }

/-- A refusal of the host that an access has met, forgotten: the next access asks again (R307, log 92). -/
def heardHost (s : State) (asid : Nat) (page : W64) (write : Bool) : State :=
  match hostPage s asid page write with
  | .refused =>
    let s1 := dropAts s (fun a p => a == asid && p == page)
    { s1 with link := { s1.link with refusedPages := s1.link.refusedPages.filter (fun x => x != (asid, page)) } }
  | _ => s

/-- The host frame of an aperture 3 address by the device's cached host translations (R307). -/
def hostPlace (s : State) (asid ioVa : Nat) (write : Bool) : Option Nat :=
  match hostPage s asid (w64 (ioVa / 4096 * 4096)) write with
  | .at_ f => some (f + ioVa % 4096)
  | _ => none

/-- The host page of an address under a context's tables, where its leaf permits the access. -/
def ctxHost (s : State) (c : Ctx) (a : W64) (write : Bool) : Option W64 :=
  if aperOf a = .global then
    match translate s c.asid c.ptroot a.toNat write with
    | .leaf e =>
      let l := e.leaf.toNat
      if leafAper l == 3 && (if write then leafW l else leafR l) then some (w64 (frameAddr e a.toNat / 4096 * 4096)) else none
    | _ => none
  else none

/-- The host pages of `n` bytes from an address. -/
def ctxPages (s : State) (c : Ctx) (a : W64) (n : Nat) (write : Bool) : List W64 :=
  ((List.range ((a.toNat % 4096 + n + 4095) / 4096)).filterMap (fun k =>
    ctxHost s c (if k = 0 then a else w64 ((a.toNat / 4096 + k) * 4096)) write)).eraseDups

/-- Those of which the device knows nothing yet. -/
def ctxAsks (s : State) (c : Ctx) (a : W64) (n : Nat) (write : Bool) : List W64 :=
  (ctxPages s c a n write).filter (fun p => hostPage s c.asid p write == .unknown)

/-- The host asked for pages of a context. -/
def askAll (s : State) (c : Ctx) (ps : List W64) : State := ps.foldl (fun x p => askHost x c.asid p) s

/-- The refusals of the host pages of `n` bytes, met and forgotten. -/
def heardAll (s : State) (c : Ctx) (a : W64) (n : Nat) (write : Bool) : State :=
  (ctxPages s c a n write).foldl (fun x p => heardHost x c.asid p write) s

/-- The place that the leaf of an address gives the device itself under a context's tables, with the leaf. -/
def leafPlace (s : State) (c : Ctx) (a : W64) (write : Bool) : Option (Space × Nat × TlbEntry) :=
  if aperOf a = .global then
    match translate s c.asid c.ptroot a.toNat write with
    | .leaf e =>
      let l := e.leaf.toNat
      if (if write then leafW l else leafR l) then
        match leafAper l with
        | 0 => some (.hbm, frameAddr e a.toNat, e)
        | 2 => if frameAddr e a.toNat < s.cxltSize * 2 ^ 30 then some (.cxl, frameAddr e a.toNat, e) else none
        | 3 => (hostPlace s c.asid (frameAddr e a.toNat) write).map (fun o => (.host, o, e))
        | _ => none
      else none
    | _ => none
  else none

/-- A place that the device reaches itself under a context's tables, with its leaf, and that its link does not refuse (R309). -/
def ctxPlace (s : State) (c : Ctx) (a : W64) (write : Bool) : Option (Space × Nat × TlbEntry) :=
  (leafPlace s c a write).filter (fun p => !linkRefuses s p.1 p.2.1 1)

/-- The same for a raw address, which may not reach a managed page that is not pinned (R88). -/
def rawPlace (s : State) (c : Ctx) (a : W64) (write : Bool) : Option (Space × Nat × TlbEntry) :=
  (ctxPlace s c a write).filter (fun p => !(leafManaged p.2.2.leaf.toNat && !leafPinned p.2.2.leaf.toNat))

/-- `n` bytes that the device reads under a context's tables; bytes past a page are read through its own leaf. -/
def ctxBytes (s : State) (c : Ctx) (a : W64) : Nat → Option (List Byte)
  | 0 => some []
  | n + 1 =>
    match ctxPlace s c (a + w64 n) false, ctxBytes s c a n with
    | some (sp, o, _), some l => some (l ++ [readByte s sp o])
    | _, _ => none

/-- A number of `n` bytes within one page, read under a context's tables. -/
def ctxNat (s : State) (c : Ctx) (a : W64) (n : Nat) : Option Nat :=
  (ctxPlace s c a false).map (fun p => readNat s p.1 p.2.1 n)

/-- Bytes within one page, written by the device under a context's tables. -/
def ctxWrite (s : State) (c : Ctx) (a : W64) (l : List Byte) : Option State :=
  (ctxPlace s c a true).map (fun p => dirtyAt (writeRange s p.1 p.2.1 l) c a)

/-- The same, lost where it has no place. -/
def ctxPut (s : State) (c : Ctx) (a : W64) (l : List Byte) : State := (ctxWrite s c a l).getD s

/-! ### Counters that the device increments (R39, R94, R239, R278, R350) -/

/-- An increment that is lost writes one deferred record to bank 62 (R350). -/
def lostIncrement (s : State) (a : W64) : State := errRecord s 62 2 1 (some a) none 0

/-- The counter at a place incremented by one. -/
def addOne (s : State) (sp : Space) (o : Nat) : State := writeRange s sp o (natToBytes 8 ((readNat s sp o 8 + 1) % 2 ^ 64))

/-- The increment of a counter on a peer, as an access. -/
def peerAdd (a : W64) (p : Nat) : Access :=
  { kind := .atom .add, ty := .n64, order := .release, scope := .s, wb := .none, vector := false, viaHandle := false,
    elems := [{ lane := 0, piece := 0, addr := a, site := .peer (BitVec.ofNat 9 p), data := 1, cmp := 0 }] }

/-- A counter at a global address of a context incremented by one with a release. One on a host page that is not translated waits for the
host's answer (R307), one in a line that a packet has still to commit for the commit (R83), one on a peer, which is sent as an atomic, for room
among its packets (R318); one that cannot be translated or written, or lies in a poisoned line, is lost, which is recorded for ACK and DONE
(R350). -/
def bumpGlobal (s : State) (c : Ctx) (a : W64) (loud : Bool) : State :=
  let lost (x : State) : State := if loud then lostIncrement x a else x
  let later (x : State) : State := { x with dues := x.dues ++ [{ ctx := c.id, addr := a, loud := loud, heal := none }] }
  match rawPlace s c a true with
  | some (sp, o, _) =>
    if s.pending.contains (sp, o / 64) then later s
    else if isPoison s sp o then lost s else dirtyAt (addOne s sp o) c a
  | none =>
    let ps := ctxAsks s c a 8 true
    if ps.isEmpty then
      match translate s c.asid c.ptroot a.toNat true with
      | .leaf e =>
        let l := e.leaf.toNat
        if leafAper l = 1 ∧ leafW l ∧ leafRatom l ∧ peerUp s (leafPeer l) then
          if packetRoom s (peerAdd a (leafPeer l)) c.asid none then
            sendAll (setDirty s e) (peerAdd a (leafPeer l)) c.asid none (if loud then .ack else .nobody) false
          else later s
        else lost (heardAll s c a 8 true)
      | _ => lost s
    else later (askAll s c ps)

/-! ### Heaps (R89) -/

/-- A heap descriptor. -/
structure HeapDesc where
  rbase : W64
  rsize : W64
  cbase : W64
  cent : Nat
  colour : BitVec 2
  pmap : W64
  deriving DecidableEq, Repr

/-- The address of a heap's descriptor. -/
def heapAddr (c : Ctx) (heap : Nat) : W64 := c.heapt + w64 (64 * heap)

/-- A heap's descriptor, when it is valid. -/
def heapDesc (s : State) (c : Ctx) (heap : Nat) : Option HeapDesc :=
  if c.heapt = 0 then none
  else match ctxBytes s c (heapAddr c heap) 64 with
    | some l =>
      let f (o n : Nat) : Nat := bytesToNat ((l.drop o).take n)
      if bitAt (f 0x1D 1) 0 then
        some { rbase := w64 (f 0 8), rsize := w64 (f 8 8), cbase := w64 (f 0x10 8), cent := f 0x18 4, colour := BitVec.ofNat 2 (f 0x1C 1),
               pmap := w64 (f 0x20 8) }
      else none
    | none => none

/-- COLOUR of a heap as a core's catalogue cache holds it: the memory's value, unless the core still holds an older one (R94). -/
def colourAt (s : State) (core ctx heap : Nat) (d : HeapDesc) : BitVec 2 :=
  match s.colours.find? (fun x => x.1 == core && x.2.1 == ctx && x.2.2.1 == heap) with
  | some (_, _, _, v) => BitVec.ofNat 2 v
  | none => d.colour

/-! ### The catalogue (R91) -/

/-- An entry of the catalogue. -/
structure CatEntry where
  addr : W64
  old : W64
  new : W64
  size : Nat
  pins : Nat
  st : Nat
  mcol : Nat
  deriving DecidableEq, Repr

/-- Entry i of a heap's catalogue. -/
def catEntry (s : State) (c : Ctx) (d : HeapDesc) (i : Nat) : CatEntry :=
  let a := d.cbase + w64 (32 * i)
  let l := (ctxBytes s c a 32).getD (List.replicate 32 0)
  let f (o n : Nat) : Nat := bytesToNat ((l.drop o).take n)
  { addr := a, old := w64 (f 0 8), new := w64 (f 8 8), size := f 0x10 4, pins := f 0x14 2, st := f 0x16 1, mcol := f 0x17 1 }

/-- The bytes of a catalogue entry. -/
def catBytes (e : CatEntry) : List Byte :=
  natToBytes 8 e.old.toNat ++ natToBytes 8 e.new.toNat ++ natToBytes 4 e.size ++ natToBytes 2 e.pins ++ natToBytes 1 e.st
    ++ natToBytes 1 e.mcol ++ natToBytes 8 0

/-- A catalogue entry written. -/
def putCat (s : State) (c : Ctx) (e : CatEntry) : State := ctxPut s c e.addr (catBytes e)

/-- The first index that a lookup of a base probes (R91). -/
def catStart (d : HeapDesc) (b : W64) : Nat := (b * 0x9E3779B97F4A7C15).toNat / 2 ^ (64 - Nat.log2 d.cent)

/-- The 16 entries that a lookup probes. -/
def catProbe (s : State) (c : Ctx) (d : HeapDesc) (b : W64) : List CatEntry :=
  (List.range 16).map (fun k => catEntry s c d ((catStart d b + k) % d.cent))

/-- The entry of a base (R91). -/
def catLookup (s : State) (c : Ctx) (d : HeapDesc) (b : W64) : Option CatEntry :=
  if d.cent = 0 then none else (catProbe s c d b).find? (fun e => e.old == b && e.st != 0)

/-- A free entry among the 16 probed for a base. -/
def catFree (s : State) (c : Ctx) (d : HeapDesc) (b : W64) : Option CatEntry :=
  if d.cent = 0 then none else (catProbe s c d b).find? (fun e => e.st == 0)

/-! ### Reference words (R90, R92, R93) -/

/-- The reference word that STH writes for a handle. -/
def refWord : Option Handle → W64
  | none => 0
  | some h => w64 (h.heap.toNat * 2 ^ 60 + h.col.toNat * 2 ^ 58 + bits h.base.toNat 4 44 * 16)

/-- What the resolution of a word gives: the handle, and the word that heals the place it came from. -/
structure Resolved where
  h : Option Handle
  heal : Option W64
  deriving DecidableEq, Repr

/-- The resolution of a reference word through the barrier (R92); none where it raises 0x0B. -/
def resolveRef (s : State) (w : Wave) (word : W64) : Option Resolved :=
  let x := word.toNat
  let c := getCtx s w.ctx
  if x = 0 then some { h := none, heal := none }
  else if bits x 0 4 ≠ 0 ∨ bits x 48 10 ≠ 0 then none
  else match heapDesc s c (bits x 60 4) with
    | none => none
    | some d =>
      let colour := colourAt s w.core w.ctx (bits x 60 4) d
      let col := BitVec.ofNat 2 (bits x 58 2)
      let heap := BitVec.ofNat 4 (bits x 60 4)
      let base := w64 (bits x 4 44 * 16)
      let dist := (colour - col).toNat
      if 2 ≤ dist then none
      else if dist = 0 then some { h := some { heap := heap, col := colour, base := base, moving := false }, heal := none }
      else match catLookup s c d base with
        | some e =>
          if e.st = 2 then some { h := some { heap := heap, col := colour - 1, base := e.old, moving := true }, heal := none }
          else
            let b := if e.st = 3 then e.new else base
            let h : Handle := { heap := heap, col := colour, base := b, moving := false }
            some { h := some h, heal := some (refWord (some h)) }
        | none =>
          let h : Handle := { heap := heap, col := colour, base := base, moving := false }
          some { h := some h, heal := some (refWord (some h)) }

/-- How an access finds its handle (R93): with the base to use, after an update, or to be stalled, or raising 0x09 or 0x0B. -/
inductive HandleUse
  | base (b : W64) (lo hi : W64) (upd : Option Handle)
  | stall
  | null
  | bad
  deriving DecidableEq, Repr

/-- The check of a handle at an access (R93); `store` for a store or atomic. -/
def useHandle (s : State) (w : Wave) (h : Option Handle) (store : Bool) : HandleUse :=
  match h with
  | none => .null
  | some h =>
    let c := getCtx s w.ctx
    match heapDesc s c h.heap.toNat with
    | none => .bad
    | some d =>
      let colour := colourAt s w.core w.ctx h.heap.toNat d
      let dist := (colour - h.col).toNat
      let lim := d.rbase + d.rsize - 1
      if 2 ≤ dist then .bad
      else if dist = 0 then .base h.base d.rbase lim none
      else match catLookup s c d h.base with
        | some e =>
          if e.st = 2 then (if store then .stall else .base e.old d.rbase lim none)
          else if e.st = 3 then .base e.new d.rbase lim (some { heap := h.heap, col := colour, base := e.new, moving := false })
          else .base h.base d.rbase lim none
        | none => .base h.base d.rbase lim none

end Sys2Proof.Machine
end

