-- ==== Sys2Proof/Machine/Mem.lean ====
section
/-! DEFINITION. The memory accesses of a wave: the checks of R222 over every element, performance at a place, failable parts on links
and peers, slips and their resolution (R43 to R49, R53), held stores, lazy reads, and parks (R58). -/

namespace Sys2Proof.Machine

/-! ### What the execution of an instruction gives -/

/-- A precise trap that an instruction raises: cause, fault address, lanes, PEER and STREAM, and PCDLV where it is not the
instruction itself (R57, R153). -/
structure PTrap where
  cause : Nat
  faddr : W64
  lanes : Mask
  peer : W32
  stream : W32
  next : Option W64
  deriving DecidableEq, Repr

/-- A precise trap with a cause alone. -/
def precise (cause : Nat) : PTrap := { cause := cause, faddr := 0, lanes := 0, peer := 0, stream := 0, next := none }

/-- A precise trap with a fault address. -/
def preciseAt (cause : Nat) (a : W64) : PTrap := { precise cause with faddr := a }

/-- How an instruction ends: completed; completed with a jump, which may pop loop entries (R151); not issued, waiting at its
boundary; issued and waiting at the boundary after it; a precise trap, with the effects that stand; parked for a set of lanes; or
with the wave's control state already set. -/
inductive Out
  | done (s : State)
  | jump (s : State) (pc : W64) (pops : Bool)
  | stay (s : State) (wt : Wait)
  | leave (s : State) (wt : Wait)
  | trap (s : State) (t : PTrap)
  | park (s : State) (p : Park) (m : Mask)
  | over (s : State)
  deriving DecidableEq, Repr

/-! ### Range locks (R85, R86) -/

/-- The device-wide number of a lock entry (R57). -/
def lockNum (l : Lock) : Nat := 512 * l.die + l.index

/-- The matching entry of lowest number for an access to `[lo, hi)` (R86). -/
def lockHit (s : State) (k : LockKey) (lo hi : Nat) (write : Bool) : Option Lock :=
  (s.locks.filter (fun l => l.key == k && decide (lo < l.hi) && decide (l.lo < hi) && (write || l.both))).foldl
    (fun (b : Option Lock) l => match b with
      | some x => if lockNum l < lockNum x then some l else b
      | none => some l) none

/-- Whether some entry of the device is damaged, so that accesses stall instead of being checked (R333). -/
def locksDamaged (s : State) : Bool := s.locks.any (·.damaged)

/-- The tag of the operation that holds an entry. -/
def lockTag (s : State) (l : Lock) : W32 := match s.ops.find? (fun o => o.id == l.op) with | some o => o.tag | none => 0

/-! ### Resolution of one element (R222) -/

/-- What an element meets: a place, a failed check with its rank in the order of R222, a replayable fault (R58), or a host page
whose translation is not held (R307). -/
inductive Res
  | ok (site : Site)
  | bad (rank cause : Nat) (lock : Option Lock)
  | replay (kind level : Nat) (entry eaddr : W64) (cause : Nat) (page : Option W64)
  | ats (page : W64)
  deriving DecidableEq, Repr

/-- How the address of an access was formed: from an address, through a handle with the bounds of its heap, through the null handle,
or through a handle that raises 0x0B (R93). -/
inductive Via
  | raw | handle (lo hi : W64) | null | badHandle
  deriving DecidableEq, Repr

/-- Whether an access writes; an atomic does. -/
def kWrites : AccKind → Bool
  | .load => false
  | _ => true

/-- Whether an access reads; an atomic does. -/
def kReads : AccKind → Bool
  | .store => false
  | _ => true

/-- Whether an access is an atomic. -/
def kAtomic : AccKind → Bool
  | .atom _ | .cas => true
  | _ => false

/-- ACCESS of a fault record (R306). -/
def kBits : AccKind → Nat
  | .load => 1 | .store => 2 | _ => 11

/-- A place after its lock check (R86). -/
def lockRes (s : State) (k : LockKey) (lo n : Nat) (write : Bool) (r : Res) : Res :=
  match lockHit s k lo (lo + n) write with
  | some l => .bad 70 0x06 (some l)
  | none => r

/-- The team of a context that holds a rank in a cluster (R67). -/
def rankTeam (s : State) (ctx cluster rank : Nat) : Option Team :=
  s.teams.find? (fun t => t.ctx == ctx && clusterOf t.core == cluster && t.rank == rank && t.saved.isNone)

/-- The die slot of a context that a die is mapped to (R68). -/
def slotOfDie (c : Ctx) (die : Nat) : Option Nat := indexOf? (fun d => d == some die) c.dies

/-- The offset at which a wave's stack ends: the trap-frame area belongs to handler mode (R52). -/
def stackLimit (w : Wave) : Nat := if w.hz.handler then 2 ^ 20 else frameOff

/-- An element of `n` bytes in the shelf of a team. -/
def shelfRes (s : State) (t : Team) (off n : Nat) (write : Bool) : Res :=
  if off + n ≤ t.shelfSize then lockRes s (.shelf t.id) off n write (.ok (.loc (.shelf t.id) off)) else .bad 60 0x05 none

/-- LEVEL of the leaf of a page (R306): that of the table that holds it. -/
def leafLevel (e : TlbEntry) : Nat := if e.size = 12 then 1 else if e.size = 16 then 0 else if e.size = 21 then 2 else 3

/-- The host frame of an access, or why there is none: a translation to ask for, or one refused, which leads to a page request
(R307, R308). -/
def hostRes (s : State) (c : Ctx) (e : TlbEntry) (va : Nat) (write : Bool) : Res :=
  let io := frameAddr e va
  let page := w64 (io / 4096 * 4096)
  match hostPage s c.asid page write with
  | .at_ f => .ok (.link .host (f + io % 4096))
  | .refused => if c.fswWave.isSome then .replay 2 (leafLevel e) e.leaf (w64 e.at_) 0x09 (some page) else .bad 50 0x09 none
  | .unknown => .ats page

/-- A global element after its leaf's permission and managed checks (R222 step 5). -/
def leafRes (s : State) (c : Ctx) (k : AccKind) (via : Via) (e : TlbEntry) (va : Nat) : Res :=
  let l := e.leaf.toNat
  let fsw := c.fswWave.isSome
  let viaH := match via with | .handle _ _ => true | _ => false
  if (kReads k && !leafR l) || (kWrites k && !leafW l) then .bad 51 0x0A none
  else if kAtomic k && leafAper l == 1 && !leafRatom l && !fsw then .bad 51 0x0A none
  else if viaH && (leafAper l == 1 || leafAper l == 3) then .bad 52 0x0B none
  else if !viaH && leafManaged l && !leafPinned l then .bad 52 0x0B none
  else if kAtomic k && leafAper l == 1 && !leafRatom l then
    .replay 1 (leafLevel e) e.leaf (w64 e.at_) 0x0A none
  else match leafAper l with
    | 0 => .ok (.loc .hbm (frameAddr e va))
    | 1 => .ok (.peer (BitVec.ofNat 9 (leafPeer l)))
    | 2 => if frameAddr e va < s.cxltSize * 2 ^ 30 then .ok (.link .cxl (frameAddr e va)) else .ok .nowhere
    | _ => hostRes s c e va (kWrites k)

/-- A global element: its walk, its leaf and its lock check. -/
def globalRes (s : State) (c : Ctx) (k : AccKind) (via : Via) (n va : Nat) : Res :=
  let r : Res := match translate s c.asid c.ptroot va (kWrites k) with
    | .malformed => .bad 50 0x09 none
    | .invalid en ea l => if c.fswWave.isSome then .replay 0 l en ea 0x09 none else .bad 50 0x09 none
    | .leaf e => leafRes s c k via e va
  match r with
  | .bad .. => r
  | r => lockRes s (.global c.asid) va n (kWrites k) r

/-- What an element of `n` bytes at an address meets, in the order of R222. -/
def resolve (s : State) (w : Wave) (k : AccKind) (via : Via) (n : Nat) (a : W64) : Res :=
  let c := getCtx s w.ctx
  let inHeap : Bool := match via with
    | .handle lo hi => decide (lo ≤ a) && decide (a ≤ hi)
    | .raw => true
    | _ => false
  let ap := aperOf a
  let annexOk (off : Nat) : Bool := (slotOfDie c (dieOf w.core)).isSome && decide (off + n ≤ c.annexSize)
  if a.toNat % n ≠ 0 then .bad 10 0x08 none
  else if ap = .none then .bad 20 0x09 none
  else if (match ap with
      | .annex off => !annexOk off
      | .cshelf r _ => (rankTeam s w.ctx (clusterOf w.core) r).isNone
      | _ => false) then .bad 20 0x09 none
  else if (match ap with | .stack off => decide (stackLimit w ≤ off) | _ => false) then .bad 30 0x1A none
  else if via = .null then .bad 40 0x09 none
  else if !inHeap then .bad 40 0x0B none
  else match ap with
    | .global => globalRes s c k via n a.toNat
    | .shelf off => shelfRes s (getTeam s w.team) off n (kWrites k)
    | .cshelf r off => shelfRes s ((rankTeam s w.ctx (clusterOf w.core) r).getD noTeam) off n (kWrites k)
    | .annex off =>
      let d := (slotOfDie c (dieOf w.core)).getD 0
      lockRes s (.annex w.ctx d) off n (kWrites k) (.ok (.loc (.annex w.ctx d) off))
    | .stack off => lockRes s (.stack w.id) off n (kWrites k) (.ok (.loc (.stack w.id) off))
    | .none => .bad 20 0x09 none

/-! ### Performance at a place -/

/-- A translation that an access used, held in the caches (R303). -/
def cacheAt (s : State) (c : Ctx) (a : W64) : State :=
  if aperOf a = .global then
    match translate s c.asid c.ptroot a.toNat false with
    | .leaf e => cacheXlate s e
    | _ => s
  else s

/-- Whether the requester port of a core's pair is closed, so that every request through it is a forbidden pairing (R341). -/
def portShut (s : State) (core : Nat) : Bool := !(assoc s.rel.parts (pairOf core) (true, 0)).1

/-- Whether the request of a core to a place is a forbidden pairing (R341, R342): of HBM, with the memory-side port that fronts the address,
port m the m-th 8 GiB (log 87); of the CXL tier and the host, when the requester port is closed. -/
def forbidden (s : State) (core : Nat) (sp : Space) (o : Nat) : Bool :=
  match sp with
  | .hbm => portShut s core || !((s.rel.act[pairOf core]?).getD 0).getLsbD (o / 2 ^ 33)
  | .cxl | .host => portShut s core
  | _ => false

/-- The record of a forbidden pairing (R342). -/
def noteForbidden (s : State) (core o : Nat) : State := errRecord s 62 2 6 (some (w64 o)) none (miscOf core 0)

/-- The place of an element of a write as the walk that the write itself makes finds it: a compare and swap of DIRTY that fails has the walk made
again (R304). One that no longer leads to the same kind of place, or no longer permits the write, leaves the element where its checks found it
(log 109). -/
def freshElem (s : State) (c : Ctx) (e : Elem) : Elem :=
  if aperOf e.addr = .global then
    match translate s c.asid c.ptroot e.addr.toNat true with
    | .leaf l =>
      let x := l.leaf.toNat
      match leafW x, leafAper x, e.site with
      | true, 0, .loc .hbm _ => { e with site := .loc .hbm (frameAddr l e.addr.toNat) }
      | true, 2, .link .cxl _ =>
        if frameAddr l e.addr.toNat < s.cxltSize * 2 ^ 30 then { e with site := .link .cxl (frameAddr l e.addr.toNat) } else e
      | true, 3, .link .host _ => match hostPlace s c.asid (frameAddr l e.addr.toNat) true with
        | some o => { e with site := .link .host o }
        | none => e
      | _, _, _ => e
    | _ => e
  else e

/-- DIRTY of the leaf that a write to a place went through; none where the leaf now leads elsewhere (R304). -/
def dirtyPlace (s : State) (c : Ctx) (a : W64) (sp : Space) (o : Nat) : State :=
  if aperOf a = .global then
    match translate s c.asid c.ptroot a.toNat true with
    | .leaf e =>
      let x := e.leaf.toNat
      let at_ := match leafAper x with
        | 0 => some (Space.hbm, frameAddr e a.toNat)
        | 2 => some (Space.cxl, frameAddr e a.toNat)
        | 3 => (hostPlace s c.asid (frameAddr e a.toNat) true).map (fun f => (Space.host, f))
        | _ => none
      if leafW x && at_ == some (sp, o) then setDirty s e else s
    | _ => s
  else s

/-- One element performed at a place: the state and what it read, with whether its data was poisoned. -/
def doElem (s : State) (core : Nat) (c : Ctx) (k : AccKind) (t : Ty) (e : Elem) (sp : Space) (o : Nat) : State × Got :=
  let n := tySize t
  let old := readNat s sp o n
  let no := forbidden s core sp o
  let s1 := if no then noteForbidden s core o else cacheAt s c e.addr
  let pois := isPoison s sp o || no
  let got : Got := { lane := e.lane, piece := e.piece, val := w64 old, poison := pois }
  let put (x : Nat) : State := dirtyPlace (writeBytes s1 sp o (natToBytes n x)) c e.addr sp o
  match k with
  | .load => (s1, got)
  | .store => (if no then s1 else put e.data.toNat, { got with poison := false })
  | .atom op => (if pois then s1 else put (atomNew op t old e.data.toNat), got)
  | .cas => (if pois then s1 else if old % 2 ^ tyWidth t = e.cmp.toNat % 2 ^ tyWidth t then put e.data.toNat else s1, got)

/-- The place of an element that is performed on the device, or over a link. -/
def placeOf (link : Bool) (e : Elem) : Option (Space × Nat) :=
  match e.site with
  | .loc sp o => if link then none else some (sp, o)
  | .link sp o => if link then some (sp, o) else none
  | _ => none

/-- The bytes of a space that the stores of an access write; a forbidden pairing writes none (R342). -/
def storedIn (s : State) (core : Nat) (a : Access) (link : Bool) (sp : Space) : List Nat :=
  a.elems.flatMap (fun e => match placeOf link e with
    | some (x, o) => if x == sp && !forbidden s core sp o then (List.range (elemSize a)).map (o + ·) else []
    | none => [])

/-- The poison of lines that the stores of one instruction cover whole is cleared (R332). -/
def clearStored (s : State) (core : Nat) (a : Access) (link : Bool) : State :=
  if s.poison.isEmpty then s
  else match a.kind with
    | .store =>
      let sps := (a.elems.filterMap (fun e => (placeOf link e).map (·.1))).eraseDups
      sps.foldl (fun x sp => clearPoison x sp (storedIn s core a link sp)) s
    | _ => s

/-- An access whose writes go where the walks made for them lead now (R304). -/
def freshAccess (s : State) (c : Ctx) (a : Access) : Access :=
  match a.kind with
  | .load => a
  | _ => { a with elems := a.elems.map (freshElem s c) }

/-- The elements of an access performed in order: those on the device, or those reached over a link (R71). -/
def perform (s : State) (core : Nat) (c : Ctx) (a0 : Access) (link : Bool) : State × List Got :=
  let a := freshAccess s c a0
  let (s1, g) := a.elems.foldl (fun (x : State × List Got) e => match placeOf link e with
    | some (sp, o) => let (y, g) := doElem x.1 core c a.kind a.ty e sp o; (y, x.2 ++ [g])
    | none => x) (s, [])
  (clearStored s1 core a link, g)

/-! ### Fragments (R212, R213, R219) -/

/-- N and K of a shape. -/
def shapeNK (shape : Nat) : Nat × Nat :=
  match shape with
  | 0 => (128, 32) | 1 => (64, 32) | 2 => (128, 64) | _ => (128, 128)

/-- Elements of a fragment that a lane holds. -/
def fragCount (shape role : Nat) : Nat :=
  let (n, k) := shapeNK shape
  match role with
  | 0 => k / 2
  | 1 => k * n / 128
  | _ => fragRegs shape 2

/-- Row and column, in the tile, of element e of a lane's fragment (R213, R219). -/
def fragCoord (shape role lane e : Nat) : Nat × Nat :=
  let (n, k) := shapeNK shape
  match role with
  | 0 => (lane % 64, lane / 64 * (k / 2) + e)
  | 1 => (lane / n * (k * n / 128) + e, lane % n)
  | _ => (lane / n * fragRegs shape 2 + e, lane % n)

/-- Element e of a lane's fragment of a type at a register. -/
def fragElem (w : Wave) (r lane e : Nat) (t : Ty) : Nat :=
  let p := 32 / tyWidth t
  subElem (tyWidth t) (vreg w (r + e / p) lane).toNat (e % p)

/-! ### Results of an access -/

/-- A value of a type as a load leaves it in a register of `n` bits: sign-extended for i types (R101, R221). -/
def extTo (t : Ty) (n x : Nat) : Nat := if tyIsI t then wrapI (signed x (tyWidth t)) n else x % 2 ^ tyWidth t

/-- The results of one lane, by piece. -/
def laneGot (g : List Got) (lane : Nat) : List Got := g.filter (fun x => x.lane == lane)

/-- The lanes of a list of results, without repeats. -/
def gotLanes (g : List Got) : List Nat := (g.map (·.lane)).eraseDups

/-- The bytes that the pieces of a lane's block hold (R225). -/
def blockBytes (t : Ty) (l : List Got) : Nat := l.foldl (fun a x => a + 2 ^ (tyWidth t * x.piece) * (x.val.toNat % 2 ^ tyWidth t)) 0

/-- Sub-elements of a fragment register replaced by loaded pieces. -/
def fragWord (w : Wave) (t : Ty) (r reg lane : Nat) (l : List Got) : W32 :=
  let n := tyWidth t
  let p := 32 / n
  let old := (vreg w (r + reg) lane).toNat
  let es := (List.range p).map (fun j => match l.find? (fun x => x.piece == reg * p + j) with
    | some x => x.val.toNat
    | none => subElem n old j)
  w32 (packElems n es)

/-- The vector register writes of an access's results. -/
def gotWrites (w : Wave) (a : Access) (g : List Got) : List (Nat × List (Nat × W32)) :=
  match a.wb with
  | .vec r =>
    if tyWidth a.ty = 64 then
      [(r, g.map (fun x => (x.lane, w32 x.val.toNat))), (r + 1, g.map (fun x => (x.lane, w32 (x.val.toNat / 2 ^ 32))))]
    else [(r, g.map (fun x => (x.lane, w32 (extTo a.ty 32 x.val.toNat))))]
  | .block r =>
    (List.range 4).map (fun k => (r + k, (gotLanes g).map (fun l => (l, w32 (blockBytes a.ty (laneGot g l) / 2 ^ (32 * k))))))
  | .frag r shape role =>
    let ls := gotLanes g
    let regs := fragRegs shape role
    (List.range regs).map (fun k => (r + k, ls.map (fun l => (l, fragWord w a.ty r k l (laneGot g l)))))
  | _ => []

/-- Whether a heal may write at an address: in a local aperture, or through a leaf that permits it. -/
def healLeaf (s : State) (c : Ctx) (a : W64) (peer : Bool) : Bool :=
  if aperOf a = .global then
    match translate s c.asid c.ptroot a.toNat true with
    | .leaf l => leafW l.leaf.toNat && (!peer || leafRatom l.leaf.toNat)
    | _ => false
  else !peer

/-- The heal of a reference word: a compare and swap that never faults, wherever the word lies; on a peer it is sent as one (R92). In a line that
a packet has still to commit it waits for the commit (R83), and for room among the packets to its peer (R318). A range locked against writes does
not hold it back (log 88). -/
def healRef (s : State) (core : Nat) (c : Ctx) (e : Elem) (old new : W64) : State :=
  let later : State := { s with dues := s.dues ++ [{ ctx := c.id, addr := e.addr, loud := false,
                                                     heal := some { core := core, elem := e, old := old, new := new } }] }
  let acc : Access := { kind := .cas, ty := .b64, order := .relaxed, scope := .d, wb := .none, vector := false, viaHandle := false,
                        elems := [{ e with data := new, cmp := old }] }
  match e.site with
  | .loc sp o | .link sp o =>
    if s.pending.contains (sp, o / 64) then later
    else if linkRefuses s sp o 8 then s
    else if readNat s sp o 8 = old.toNat && !isPoison s sp o && !forbidden s core sp o && healLeaf s c e.addr false then
      dirtyAt (writeRange s sp o (natToBytes 8 new.toNat)) c e.addr
    else s
  | .peer p =>
    if peerUp s p.toNat && !portShut s core && healLeaf s c e.addr true then
      if packetRoom s acc c.asid none then sendAll s acc c.asid none (.heal c.id) false else later
    else s
  | .nowhere => s

/-- The increments and heals that wait, tried again in their order. -/
def retryDues (s : State) : State :=
  if s.dues.isEmpty then s
  else s.dues.foldl (fun x d => match d.heal with
    | none => bumpGlobal x (getCtx x d.ctx) d.addr d.loud
    | some h => healRef x h.core (getCtx x d.ctx) h.elem h.old h.new) { s with dues := [] }

/-- What the check of a failable result goes by: the bindings and bound registers as they stood at its issue (R208 to R210). -/
abbrev Snap := List (Nat × Nat) × List Bound

/-- A checked write of results under what a snapshot holds, or what the wave and its team hold now. -/
def snapWrite (t : Team) (w : Wave) (snap : Option Snap) (ws : List (Nat × List (Nat × W32))) : Except Mask Wave :=
  match snap with
  | none => checkedWrite t w ws
  | some (binds, bounds) =>
    match checkedWrite { t with bounds := bounds } { w with regs := { w.regs with bmap := binds } } ws with
    | .ok x => .ok { x with regs := { x.regs with bmap := w.regs.bmap } }
    | .error m => .error m

/-- The lanes of a list of results whose data was poisoned. -/
def poisonLanes (g : List Got) : Mask := maskOf ((g.filter (·.poison)).map (·.lane))

/-- The results of an access written back (R210, R221): the state, or the cause and lanes of a trap. A lane that consumes poison is written
nothing and not checked: it is dead from then on (R40, R210). -/
def writeGot (s : State) (wid : Nat) (a : Access) (g0 : List Got) (snap : Option Snap := none) : Except (Nat × Mask) State :=
  match findWave s wid with
  | none => .ok s
  | some w =>
    let pm := poisonLanes g0
    let g := if pm == 0 then g0 else g0.filter (fun x => !pm.getLsbD x.lane)
    match a.wb with
    | .none => .ok s
    | .sca r => .ok (match g with
        | x :: _ => putWave s (setS w r (w64 (extTo a.ty 64 x.val.toNat)))
        | [] => s)
    | .handle r =>
      match g, a.elems with
      | x :: _, e :: _ =>
        match resolveRef s w x.val with
          | some q =>
            let s1 := putWave s (setH w r q.h)
            .ok (match q.heal with | some v => healRef s1 w.core (getCtx s w.ctx) e x.val v | none => s1)
          | none => .error (0x0B, 1)
      | _, _ => .ok s
    | _ => match snapWrite (getTeam s w.team) w snap (gotWrites w a g) with
        | .ok x => .ok (putWave s x)
        | .error m => .error (0x07, m)

/-- What consumed poison does: a dead lane in the vector form, 0x30 in the scalar form (R222). -/
def consume (s : State) (wid : Nat) (a : Access) (m : Mask) : State :=
  if m == 0 then s
  else if a.vector then markDead s wid m
  else modWave s wid (fun w => { w with hz := { w.hz with machineCheck := true } })

/-! ### Slips (R46, R53) -/

/-- A slip of a wave replaced. -/
def putSlip (w : Wave) (x : Slip) : Wave :=
  { w with hz := { w.hz with slips := w.hz.slips.map (fun y => if y.tag = x.tag then x else y) } }

/-- A slip of a wave. -/
def findSlip (s : State) (wid : Nat) (t : W32) : Option Slip :=
  match findWave s wid with
  | some w => w.hz.slips.find? (fun x => x.tag == t)
  | none => none

/-- A slip changed in place. -/
def modSlip (s : State) (wid : Nat) (t : W32) (f : Slip → Slip) : State :=
  modWave s wid (fun w => { w with hz := { w.hz with slips := w.hz.slips.map (fun y => if y.tag = t then f y else y) } })

/-- One more failed portion of a slip: the lanes join, the cause is that of the first (R53). -/
def addFail (x : Slip) (cause : Nat) (a : W64) (m : Mask) (peer : W32) : Slip :=
  match x.fail with
  | none => { x with fail := some { cause := cause, faddr := a, lanes := m, mixed := false, peer := peer } }
  | some f => { x with fail := some { f with lanes := f.lanes ||| m, mixed := f.mixed || f.cause != cause || f.peer != peer } }

/-- Whether packets of a slip are still unanswered. -/
def packetsLeft (s : State) (wid : Nat) (t : W32) : Bool := s.fab.out.any (fun p => p.owner == .slip wid t)

/-- Whether a lazy read of a slip's data is still to come. -/
def lazyLeft (w : Wave) (t : W32) : Bool :=
  w.hz.lazies.any (fun z => match z.target with | .packets u => u == t | _ => false)

/-- Whether every portion of a slip has ended, so that it can resolve. -/
def slipDone (s : State) (w : Wave) (x : Slip) : Bool :=
  !x.openPark && !x.held && !x.ended && !packetsLeft s w.id x.tag && !lazyLeft w x.tag
    && (match x.op with | .mem _ _ l => !l | _ => true)

/-- The address of the lowest lane of a mask in an access (R52). -/
def lowestAddr (a : Access) (m : Mask) : W64 :=
  match a.elems.filter (fun e => m.getLsbD e.lane) with
  | [] => 0
  | e :: r => (r.foldl (fun (b : Elem) x => if x.lane < b.lane ∨ (x.lane = b.lane ∧ x.piece < b.piece) then x else b) e).addr

/-- Whether a wave takes no trap for a failure: it is killed, has left in handler mode, has lost every lane, or is stopped by a halt
(R38, R40, R55, R158). -/
def logsOnly (w : Wave) : Bool := w.ctl.st == .killed || w.ctl.left || w.ctl.allDead || w.ctl.wait == .stopped || w.ctl.stopping

/-- A failed slip: counted, then written to the fault log when the wave takes no more traps, recorded in %fault for an operation of
handler mode, or left pending (R38, R40, R46, R55, R80, R158). -/
def failSlip (s : State) (wid : Nat) (x : Slip) : State :=
  match findWave s wid with
  | none => s
  | some w =>
    let f := x.fail.getD { cause := 0, faddr := 0, lanes := 0, mixed := false, peer := 0 }
    let w1 := if x.fenced then noteFailure w f.cause else w
    if logsOnly w then let (s1, w2) := logSlip s w1 x; putWave s1 w2
    else if x.handler then putWave s (dropSlip (noteFault w1 f.cause f.faddr) x.tag)
    else putWave s (putSlip w1 { x with ended := true, desched := w.ctl.st == .preempted })

/-- The resolution of a slip of an access whose portions have all ended: its results are written back and it leaves the file, or it
fails. -/
def endMem (s : State) (wid : Nat) (x : Slip) (a : Access) (got : List Got) : State :=
  let bad : Mask := match x.fail with | some f => f.lanes | none => 0
  let pm := poisonLanes got
  let x1 := if kAtomic a.kind && pm != 0 then addFail x 0x13 (lowestAddr a pm) pm 0 else x
  let good := got.filter (fun g => !(bad.getLsbD g.lane) && !(kAtomic a.kind && g.poison))
  let fix (x : Slip) : Slip :=
    match x.fail with
    | some f => if f.cause = 0x07 then x else { x with fail := some { f with faddr := lowestAddr a f.lanes } }
    | none => x
  let snap : Option Snap := some (x.binds, x.bounds)
  match writeGot s wid a good snap with
  | .ok s1 =>
    let s2 := if kAtomic a.kind then s1 else consume s1 wid a (poisonLanes good)
    match (fix x1).fail with
    | some _ => failSlip s2 wid (fix x1)
    | none => modWave s2 wid (fun w => dropSlip w x.tag)
  | .error (cause, m) =>
    let y := if cause = 0x07 then addFail x1 0x07 0 m 0 else addFail x1 cause (lowestAddr a m) m 0
    -- in handler mode the lanes that do not fault take effect (R55)
    let s1 := if x.handler then
        (match writeGot s wid a (good.filter (fun g => !m.getLsbD g.lane)) snap with | .ok z => z | .error _ => s)
      else s
    let s2 := if kAtomic a.kind then s1 else consume s1 wid a (poisonLanes good)
    failSlip s2 wid (fix y)

/-! ### Held stores (R49) -/

/-- Whether a slip's instruction names its peer, so that no leaf of this device is used (R234). -/
def namesPeer (x : Slip) : Bool := let o := bits x.rcd.iword.toNat 86 10; decide (0x240 ≤ o) && decide (o ≤ 0x244)

/-- DIRTY of the leaf through which the write of an element reaches a peer that is up; none where the leaf now leads elsewhere (R304). -/
def dirtyPeer (s : State) (c : Ctx) (e : Elem) : State :=
  match e.site with
  | .peer p => match translate s c.asid c.ptroot e.addr.toNat true with
    | .leaf l =>
      if peerUp s p.toNat && leafAper l.leaf.toNat == 1 && leafW l.leaf.toNat && leafPeer l.leaf.toNat == p.toNat then setDirty s l else s
    | _ => s
  | _ => s

/-- DIRTY of the leaves through which the writes of a slip reach peers (R304). -/
def dirtyFar (s : State) (wid : Nat) (tag : W32) (els : List Elem) : State :=
  match findWave s wid, findSlip s wid tag with
  | some w, some x =>
    if namesPeer x then s
    else els.foldl (fun (y : State) e => dirtyPeer y (getCtx y w.ctx) e) s
  | _, _ => s

/-- What the elements on peers give through a closed port (R341, R342): loads and atomics poisoned data, stores nothing. -/
def shutGot (s : State) (core : Nat) (a : Access) : List Got :=
  if portShut s core && kReads a.kind then
    (a.elems.filter (fun e => match e.site with | .peer _ => true | _ => false)).map (fun e =>
      { lane := e.lane, piece := e.piece, val := 0, poison := true })
  else []

/-- The packets of an access of a slip; a store goes through its leaves now, an atomic once it has been performed. Through a closed port none
is sent, and each request is recorded (R342). -/
def sendSlip (s : State) (wid core : Nat) (tag : W32) (a : Access) (asid : Nat) (stream : Option Nat) (hold : Bool) : State :=
  if portShut s core then
    a.elems.foldl (fun x e => match e.site with | .peer _ => noteForbidden x core e.addr.toNat | _ => x) s
  else sendAll (if a.kind = .store then dirtyFar s wid tag a.elems else s) a asid stream (.slip wid tag) hold

/-- Whether some element of an access is reached over the CXL or host link. -/
def overLink (a : Access) : Bool := a.elems.any (fun e => match e.site with | .link _ _ => true | _ => false)

/-- A slip with what the local part of its access gave, and the portions that fail at once: unreachable peers, and places beyond the CXL
tier (R321, R309). -/
def startedSlip (s : State) (core : Nat) (a : Access) (got : List Got) (x : Slip) : Slip :=
  let dead := if portShut s core then [] else deadElems s a
  let nw := a.elems.filter (fun e => e.site == .nowhere)
  let y : Slip := match x.op with | .mem b g l => { x with op := .mem b (g ++ got ++ shutGot s core a) l } | _ => x
  let y1 := if dead.isEmpty then y else addFail y 0x11 0 (maskOf (dead.map (·.lane))) (firstPeer s { a with elems := dead })
  if nw.isEmpty then y1 else addFail y1 0x10 0 (maskOf (nw.map (·.lane))) 0

/-- The held stores that are performed with one: itself, or all those of its failable instruction, whose lanes a park may have issued at different
times (R49, R58). -/
def heldGroup (w : Wave) (h : Held) : List Held :=
  w.hz.held.filter (fun x => x.key == h.key || (h.failable && x.failable && x.h == h.h))

/-- The access of a group of held stores of one instruction. -/
def heldAccess (w : Wave) (h : Held) : Access := { h.acc with elems := (heldGroup w h).flatMap (fun x => x.acc.elems) }

/-- The part of an access over the CXL or host link that has not been performed. -/
def linkPart (a : Access) (got : List Got) : List Elem :=
  a.elems.filter (fun e => (match e.site with | .link _ _ => true | _ => false) && !(got.any (fun g => g.lane == e.lane && g.piece == e.piece)))

/-- An access of a slip whose elements of some lanes and pieces are those of a released store: their data may have been read since (R130). -/
def releasedAcc (b a : Access) : Access :=
  { b with elems := b.elems.filter (fun e => !(a.elems.any (fun x => x.lane == e.lane && x.piece == e.piece))) ++ a.elems }

/-- A held store performed: its local part now; the rest through its slip. -/
def releaseOne (s : State) (w : Wave) (h : Held) : State :=
  let c := getCtx s w.ctx
  let keys := (heldGroup w h).map (·.key)
  let acc := heldAccess w h
  let w1 := { w with hz := { w.hz with held := w.hz.held.filter (fun x => !keys.contains x.key) } }
  let (s1, g) := perform (putWave s w1) w.core c acc false
  if h.failable then
    let s2 := modSlip s1 w.id h.h (fun x => match x.op with
      | .mem b got l => startedSlip s1 w.core acc g { x with held := false, op := .mem (releasedAcc b acc) got (l || overLink acc) }
      | _ => x)
    sendSlip s2 w.id w.core h.h acc c.asid none false
  else s1

/-! ### Parks (R58, R306) -/

/-- A park of a wave at an instruction, with a new serial number of its core. -/
def mkPark (s : State) (w : Wave) (pc : W64) (kind level access nlanes cause : Nat) (va entry eaddr : W64) (page : Option W64) :
    State × Park :=
  let n := assoc s.serials w.core 0 + 1
  let tok := w64 (n % 2 ^ 32 * 2 ^ 32 + w.core * 256 + w.slot)
  ({ s with serials := assocPut s.serials w.core (some n) },
    { token := tok, vaddr := va, pc := pc, kind := kind, level := level, access := access, prist := 0, asid := (getCtx s w.ctx).asid,
      nlanes := nlanes, entry := entry, eaddr := eaddr, written := false, replayed := false, page := page, cause := cause })

/-! ### The issue of an access -/

/-- An element with what it meets. -/
abbrev Met := Elem × Res

/-- The lowest rank of the failed checks. -/
def minRank (l : List Met) : Option Nat :=
  l.foldl (fun (b : Option Nat) m => match m.2 with
    | .bad r _ _ => some (match b with | some x => min x r | none => r)
    | _ => b) none

/-- The elements that fail the check of a rank. -/
def failing (l : List Met) (r : Nat) : List Met := l.filter (fun m => match m.2 with | .bad x _ _ => x == r | _ => false)

/-- Whether an element fails some check. -/
def isBad (m : Met) : Bool := match m.2 with | .bad .. => true | _ => false

/-- The host page that an element asks for. -/
def asksFor (m : Met) : Option W64 := match m.2 with | .ats p => some p | _ => none

/-- Whether an element meets a replayable fault. -/
def isReplay (m : Met) : Bool := match m.2 with | .replay .. => true | _ => false

/-- What the replayable fault of the lowest lane among elements showed. -/
def firstStop (l : List Met) : Option Stopped :=
  let low := lowestLane (l.map (·.1.lane))
  l.findSome? (fun m => match m.2 with
    | .replay kind level en ea cause page => if m.1.lane = low then some { kind := kind, level := level, entry := en, eaddr := ea, cause := cause, page := page } else none
    | _ => none)
where
  /-- The least of a list of lanes. -/
  lowestLane (ls : List Nat) : Nat := ls.foldl min (ls.headD 0)

/-- An element with its place, where it has one. -/
def atPlace (m : Met) : Option Elem := match m.2 with | .ok st => some { m.1 with site := st } | _ => none

/-- The elements whose lowest address is the fault address of a failed check. R52 gives "the lowest offending lane's address", which of a
block of LDB or STB is the block's (R221, R225), for causes 0x05, 0x06, 0x08 and 0x0B; other causes give the failing element's. -/
def faddrElems (l : List Met) (fs : List Met) (cause : Nat) (block : Bool) : List Elem :=
  if block && (cause == 0x05 || cause == 0x06 || cause == 0x08 || cause == 0x0B) then l.map (·.1) else fs.map (·.1)

/-- The trap of the failed checks of lowest rank (R222); `block` says that a lane's elements form one block. -/
def checkTrap (s : State) (a : Access) (l : List Met) (block : Bool) (r : Nat) : PTrap :=
  let fs := failing l r
  let m := maskOf (fs.map (·.1.lane))
  let cause := match fs with | (_, .bad _ c _) :: _ => c | _ => 0
  let lk := (fs.filterMap (fun m => match m.2 with | .bad _ _ k => k | _ => none)).foldl (fun (b : Option Lock) x => match b with
    | some y => if lockNum x < lockNum y then some x else b
    | none => some x) none
  { cause := cause, faddr := lowestAddr { a with elems := faddrElems l fs cause block } m, lanes := if a.vector then m else 0,
    peer := match lk with | some k => w32 (lockNum k) | none => 0,
    stream := match lk with | some k => lockTag s k | none => 0, next := none }

/-- An element as the place it reaches: one that goes to this device itself as a peer (R234, R319) lies where the leaf of its address says. -/
def atHome (s : State) (w : Wave) (e : Elem) : Elem :=
  match e.site with
  | .peer p =>
    if s.fab.joined && p == s.fab.id then
      let c := getCtx s w.ctx
      match translate s c.asid c.ptroot e.addr.toNat false with
      | .leaf l => match leafAper l.leaf.toNat with
        | 0 => { e with site := .loc .hbm (frameAddr l e.addr.toNat) }
        | 2 => { e with site := .link .cxl (frameAddr l e.addr.toNat) }
        | 3 => match hostPlace s c.asid (frameAddr l e.addr.toNat) false with
          | some o => { e with site := .link .host o }
          | none => e
        | _ => e
      | _ => e
    else e
  | _ => e

/-- Whether a byte range of an element overlaps one of another. -/
def overlaps (n : Nat) (a : W64) (m : Nat) (b : W64) : Bool := decide (a.toNat < b.toNat + m) && decide (b.toNat < a.toNat + n)

/-- Whether `n` bytes of one element and `m` of another meet at one place. -/
def siteMeets (n : Nat) (e : Elem) (m : Nat) (x : Elem) : Bool :=
  match e.site, x.site with
  | .loc sp o, .loc sq p | .link sp o, .link sq p => sp == sq && decide (o < p + m) && decide (p < o + n)
  | .peer p, .peer q => p == q && overlaps n e.addr m x.addr
  | _, _ => false

/-- Whether two elements lie in one granule (R70, R75). -/
def oneGranule (e x : Elem) : Bool :=
  match e.site, x.site with
  | .loc sp o, .loc sq p | .link sp o, .link sq p => sp == sq && o / 8 == p / 8
  | .peer p, .peer q => p == q && e.addr.toNat / 8 == x.addr.toNat / 8
  | _, _ => false

/-- Whether an access touches a byte of a held store of the wave (R49). -/
def hitsHeld (s : State) (w : Wave) (a : Access) : Bool :=
  w.hz.held.any (fun h => a.elems.any (fun e => h.acc.elems.any (fun x =>
    siteMeets (elemSize a) (atHome s w e) (elemSize h.acc) (atHome s w x))))

/-- Stores of the wave whose data is still to be read. -/
def lazyStores (w : Wave) : List Access :=
  w.hz.lazies.filterMap (fun z => match z.target with | .store a => some a | _ => none)

/-- Whether an access releases. -/
def releases (a : Access) : Bool := a.order == .release || a.order == .acqRel

/-- Whether an access must follow a store that is not failable and not yet performed, its data still to be read or itself held: it touches a granule
of the first, or is ordered after both by its own order (R75). -/
def hitsLazy (s : State) (w : Wave) (a : Access) : Bool :=
  let ls := lazyStores w
  (releases a && (!ls.isEmpty || w.hz.held.any (fun h => !h.failable)))
    || (!ls.isEmpty && ls.any (fun x => a.elems.any (fun e => x.elems.any (oneGranule (atHome s w e)))))

/-- Whether an access acquires. -/
def acquires (a : Access) : Bool := a.order == .acquire || a.order == .acqRel

/-- The elements of lines written by packets that have not committed (R83). -/
def inPending (s : State) (e : Elem) : Bool :=
  match e.site with | .loc sp o | .link sp o => s.pending.contains (sp, o / 64) | _ => false

/-- Whether an acquire load or an atomic meets a pending line (R83); over a link it waits when it is performed. -/
def hitsPending (s : State) (a : Access) : Bool :=
  !s.pending.isEmpty && (kAtomic a.kind || acquires a) &&
    a.elems.any (fun e => match e.site with | .loc _ _ => inPending s e | _ => false)

/-- The elements of a slip's access that have not been performed: over a link, on peers, or all while its data is still to be read. -/
def farLeft (s : State) (w : Wave) (x : Slip) : List Elem :=
  match x.op with
  | .mem a got l =>
    if x.ended || x.held then []
    else if lazyLeft w x.tag then a.elems
    else (if l then linkPart a got else [])
      ++ (s.fab.out.filter (fun p => p.owner == .slip w.id x.tag)).flatMap (fun p => p.acc.elems)
  | _ => []

/-- The open slip of a replayed instruction of a wave (R44). -/
def openSlip (w : Wave) : Option Slip := w.hz.slips.find? (fun x => x.openPark && x.pc == w.ctl.pc)

/-- Whether elements must follow what of an operation is not performed: one of acquire order or before a FENCE, or one of the same granule
(R75). -/
def mustFollow (s : State) (w : Wave) (els : List Elem) (x : Slip) : Bool :=
  let f := farLeft s w x
  !f.isEmpty && !els.isEmpty && (x.orders || f.any (fun y => els.any (fun e => oneGranule (atHome s w y) (atHome s w e))))

/-- Whether elements that an access makes at issue must follow an earlier operation of the wave. The lanes of one instruction are not ordered
(R71). -/
def hitsFar (s : State) (w : Wave) (els : List Elem) : Bool :=
  let own := (openSlip w).map (·.tag)
  w.hz.slips.any (fun x => some x.tag != own && mustFollow s w els x)

/-- Whether elements of an operation that are performed after its issue must follow an earlier one of the wave; of a wave's read at issue, with no
tag, every one. -/
def waitsBehind (s : State) (w : Wave) (tag : Option W32) (els : List Elem) : Bool :=
  (w.hz.slips.takeWhile (fun x => some x.tag != tag)).any (mustFollow s w els)

/-- Whether a packet may not leave yet: its wave has an earlier access that it must follow (R75). Those of one stream are ordered by their numbers
(R82). -/
def packetWaits (s : State) (p : OutPkt) : Bool :=
  let t : State := if p.space.streamed then { s with fab := { s.fab with out := s.fab.out.filter (fun q => q.space != p.space) } } else s
  match p.owner with
  | .slip w tag => match findWave s w with | some v => waitsBehind t v (some tag) p.acc.elems | none => false
  | .tryw w | .reader w => match findWave s w with | some v => waitsBehind t v none p.acc.elems | none => false
  | _ => false

/-- Whether what follows as a release waits for earlier accesses of a wave: stores that are not failable and whose data is still to be read or that
are held, and failable accesses that later ones are ordered after (R75, R81, R256). -/
def releaseWaits (s : State) (w : Wave) : Bool :=
  !(lazyStores w).isEmpty || w.hz.held.any (fun h => !h.failable) || w.hz.slips.any (fun x => x.orders && !(farLeft s w x).isEmpty)

/-- Whether an element is failable (R43). -/
def remote (e : Elem) : Bool := match e.site with | .loc _ _ => false | _ => true

/-- Whether earlier accesses of its wave, or an uncommitted packet, hold an access back at issue. What of it is failable waits for earlier failable
accesses where it is performed (`packetWaits`, `waitsBehind`). -/
def holdsBack (s : State) (w : Wave) (a : Access) : Bool :=
  hitsHeld s w a || hitsLazy s w a || hitsFar s w (a.elems.filter (fun e => !remote e)) || hitsPending s a

/-- The memory requests that a core may have outstanding (R8). -/
def coreReqs : Nat := 1024

/-- The requests of an access: its lanes with a failable element (log 89). -/
def accReqs (a : Access) : Nat := ((a.elems.filter remote).map (·.lane)).eraseDups.length

/-- The requests of a slip that are outstanding: its lanes with an element that has not been answered. -/
def slipReqs (s : State) (w : Wave) (x : Slip) : Nat :=
  match x.op with
  | .mem a _ _ => accReqs { a with elems := farLeft s w x }
  | _ => 0

/-- The requests of a core that are outstanding: those of the failable accesses of its waves, and the reads of peers that their instructions make
at issue (log 89). -/
def coreOut (s : State) (core : Nat) : Nat :=
  (s.waves.filter (fun w => w.core == core)).foldl (fun n w =>
    n + (w.hz.slips.map (slipReqs s w)).sum + (s.fab.out.filter (fun p => p.owner == .tryw w.id || p.owner == .reader w.id)).length) 0

/-- Whether a core has room for the requests of an access (R8); what is performed at issue takes one at a time. -/
def coreRoom (s : State) (core : Nat) (a : Access) : Bool := decide (coreOut s core + max 1 (accReqs a) ≤ coreReqs)

/-! ### The release of held stores (R49) -/

/-- Whether a held store may be performed: its time has come, its data is read, its requests and packets find room, and, if it releases, the
earlier stores of the wave that are not failable have been performed (R8, R49, R75, R318). -/
def heldReady (s : State) (w : Wave) (h : Held) : Bool :=
  let g := heldGroup w h
  passed w (h.h - 1) && !(w.hz.lazies.any (fun z => match z.target with | .held k => g.any (·.key == k) | _ => false))
    && coreRoom s w.core (heldAccess w h) && packetRoom s (heldAccess w h) (getCtx s w.ctx).asid none
    && !(releases h.acc && (!(lazyStores w).isEmpty || w.hz.held.any (fun x => !x.failable && decide (x.key < h.key))))

/-- Slips whose portions have all ended resolve, and held stores whose time has come are performed, one after another; `fuel`
bounds them. -/
def settle : Nat → State → Nat → State
  | 0, s, _ => s
  | n + 1, s, wid =>
    match findWave s wid with
    | none => s
    | some w =>
      match w.hz.slips.find? (slipDone s w) with
      | some x => match x.op with
        | .mem a got _ => settle n (endMem s wid x a got) wid
        | _ => settleHeld s w
      | none => settleHeld s w
where
  /-- The oldest held store that may go, performed. -/
  settleHeld (s : State) (w : Wave) : State :=
    match w.hz.held.find? (heldReady s w) with
    | some h => releaseOne s w h
    | none => s

/-- Everything of a wave that can resolve or be released. -/
def settleAll (s : State) (wid : Nat) : State := (List.range 4).foldl (fun a _ => settle 200 a wid) s

/-- How a store gets its data, and what it is: plain, held (R49), or read lazily under a claimed slot (R130).
`block` says of any access that a lane's elements form one block (R225). -/
structure StoreMode where
  hr : Bool := false
  slot : Option LazyRead := none
  stream : Option Nat := none
  block : Bool := false
  deriving DecidableEq, Repr

/-- The tag that a failable access or a held store of a wave takes: the next, or that of its open slip. -/
def tagNow (w : Wave) : W32 := match openSlip w with | some x => x.tag | none => w.hz.tag

/-- Whether HR holds a store back: its wave's horizon has not passed the tag before its own, or an earlier part of its instruction is still held
(R49). -/
def heldNow (w : Wave) (md : StoreMode) : Bool :=
  md.hr && (!passed w (tagNow w - 1) || (match openSlip w with | some x => x.held | none => false))

/-- An access with the order it has at its issue: that of a store which is held back counts from its release (R49). -/
def atIssue (w : Wave) (md : StoreMode) (a : Access) : Access := if heldNow w md then { a with order := .relaxed } else a

/-- Whether something makes an access wait: an earlier access of its wave, a pending line, a full hold file or slip file, or no room for
its requests or its packets. -/
def mustStall (s : State) (w : Wave) (a : Access) (md : StoreMode) (failable : Bool) : Bool :=
  holdsBack s w (atIssue w md a) || (heldNow w md && decide (64 ≤ w.hz.held.length))
    || (failable && (openSlip w).isNone && decide (128 ≤ w.hz.slips.length))
    || !coreRoom s w.core a || !packetRoom s a (getCtx s w.ctx).asid md.stream

/-- act of an instruction at its first issue, by the mask its word names (R20, R46). -/
def actAtIssue (w : Wave) (rcd : OpRec) : Mask := kreg w (bits rcd.iword.toNat 75 7) &&& kreg w 0 &&& ~~~ w.regs.dead

/-- The slip of a failable access, with the first peer and the stream in its operand record (R46, R57). -/
def newMemSlip (s : State) (w : Wave) (rcd : OpRec) (a : Access) (md : StoreMode) (parks : Bool) : Slip :=
  { tag := w.hz.tag, pc := w.ctl.pc,
    rcd := { rcd with
      peer := if rcd.peer = 0 then firstPeer s a else rcd.peer,
      stream := match md.stream with | some x => w32 (x + 2 ^ 31) | none => rcd.stream },
    lanes := actAtIssue w rcd, op := .mem a [] (overLink a && !heldNow w md), orders := acquires a, binds := w.regs.bmap,
    bounds := (getTeam s w.team).bounds, fenced := kWrites a.kind, handler := w.hz.handler,
    hr := md.hr, held := heldNow w md, openPark := parks, fail := none, ended := false, delivered := false, desched := false }

/-- An open slip that the replayed instruction's access joins (R44). -/
def joinSlip (w : Wave) (a : Access) (md : StoreMode) (parks : Bool) (x : Slip) : Slip :=
  match x.op with
  | .mem b g l => { x with openPark := parks, held := heldNow w md, op := .mem { b with elems := b.elems ++ a.elems } g (l || (overLink a && !heldNow w md)) }
  | _ => { x with openPark := parks, op := .mem a [] (overLink a && !heldNow w md) }

/-- A failable access in the slip file: with a new tag and slip, or in the open slip of its instruction. -/
def withSlip (s : State) (w : Wave) (rcd : OpRec) (a : Access) (md : StoreMode) (parks : Bool) : State :=
  match openSlip w with
  | some _ => modSlip s w.id (tagNow w) (joinSlip w a md parks)
  | none => modWave s w.id (fun v => { v with hz := { v.hz with tag := v.hz.tag + 1, slips := v.hz.slips ++ [newMemSlip s w rcd a md parks] } })

/-- A lazy read of a wave's registers begun, where there is one. -/
def addLazy (s : State) (id : Nat) (z : Option LazyRead) (target : LazyTarget) : State :=
  match z with
  | some z => modWave s id (fun v => { v with hz := { v.hz with lazies := v.hz.lazies ++ [{ z with target := target }] } })
  | none => s

/-- A store put among the held stores of its wave (R49). -/
def keepHeld (s : State) (id : Nat) (h : Held) : State := modWave s id (fun v => { v with hz := { v.hz with held := v.hz.held ++ [h] } })

/-- A failable access under way: its local part performed, unless its data is still to be read, and its packets queued. -/
def sendPart (s : State) (w : Wave) (a : Access) (stream : Option Nat) (tag : W32) (deferred : Bool) : State :=
  let c := getCtx s w.ctx
  let r := if deferred then (s, []) else perform s w.core c a false
  settleAll (sendSlip (modSlip r.1 w.id tag (startedSlip r.1 w.core a r.2)) w.id w.core tag a c.asid stream deferred) w.id

/-- An access with no failable part, performed, and its results written. An atomic whose result raises 0x07 has written, and has set DIRTY as it
wrote (R210, R304): the model's choice (log 110). In handler mode the lanes that a trap binding or a reference makes fault are left out, and the fault
is recorded (R55). -/
def localPart (s : State) (w : Wave) (a : Access) : Out :=
  let r := perform s w.core (getCtx s w.ctx) a false
  match writeGot r.1 w.id a r.2 with
  | .ok s4 => .done (consume s4 w.id a (poisonLanes r.2))
  | .error (cause, m) =>
    let at_ := if cause = 0x07 then 0 else lowestAddr a m
    if w.hz.handler then
      let s1 := modWave r.1 w.id (fun x => noteFault x cause at_)
      match writeGot s1 w.id a (r.2.filter (fun g => !m.getLsbD g.lane)) with
      | .ok s4 => .done (consume s4 w.id a (poisonLanes r.2))
      | .error _ => .done s1
    else .trap r.1 { precise cause with lanes := if a.vector then m else 0, faddr := at_ }

/-- A key for one more held store of a wave. -/
def heldKey (w : Wave) : Nat := w.hz.held.foldl (fun k h => max k (h.key + 1)) 0

/-- An access whose checks have passed, issued: local parts performed, held stores recorded, failable parts left to a slip. `parks`
says that lanes stay unfinished, so that the slip is still open; `failable` that some active lane's page is remote. -/
def commitAccess (s : State) (w : Wave) (rcd : OpRec) (a : Access) (md : StoreMode) (failable parks : Bool) : Out :=
  let z := if parks then none else md.slot
  let s1 := if failable then withSlip s w rcd a md parks else s
  if failable && w.ctl.recipe.isSome && !w.hz.handler then .trap s (precise 0x01)
  else if mustStall s w a md failable then .stay s .stall
  else if heldNow w md then
    .done (addLazy (keepHeld s1 w.id { key := heldKey w, h := tagNow w, acc := a, failable := failable }) w.id z (.held (heldKey w)))
  else if failable then .done (sendPart (addLazy s1 w.id z (.packets (tagNow w))) w a md.stream (tagNow w) z.isSome)
  else if z.isSome then .done (addLazy s1 w.id z (.store a))
  else localPart s1 w a

/-- The address that `HandleUse` gives to an access's `Via`. -/
def viaOf : HandleUse → Via
  | .base _ lo hi _ => .handle lo hi
  | .stall => .badHandle
  | .null => .null
  | .bad => .badHandle

/-- The refusals of host pages that the elements of an access have met, forgotten. -/
def heardBy (s : State) (w : Wave) (write : Bool) (els : List Elem) : State :=
  if s.link.refusedPages.isEmpty && s.link.ats.isEmpty then s else els.foldl (fun x e => heardAll x (getCtx s w.ctx) e.addr 1 write) s

/-- An access of a wave issued (R222): every element is checked, the first failed check raises its cause; in handler mode the faulting
lanes are left out and the fault is recorded (R55). Replayable faults park the wave for their lanes (R58). -/
def issueAccess (s : State) (w : Wave) (rcd : OpRec) (a : Access) (via : Via) (md : StoreMode) : Out :=
  let n := elemSize a
  let met : List Met := a.elems.map (fun e => (e, resolve s w a.kind via n e.addr))
  let sec (c : Nat) : Bool := w.hz.handler && decide (5 ≤ c) && decide (c ≤ 0x0B)
  if a.elems.isEmpty then .done s
  else if locksDamaged s then .stay s .stall
  else
    let t := (minRank met).map (checkTrap s a met md.block)
    match t with
    | some t => if sec t.cause then
        let badLanes := maskOf ((met.filter isBad).map (·.1.lane))
        let w1 := noteFault w t.cause t.faddr
        let keep := met.filter (fun m => !badLanes.getLsbD m.1.lane)
        let s1 := heardBy (putWave s w1) w (kWrites a.kind) ((met.filter isBad).map (·.1))
        if keep.isEmpty then .done s1 else go s1 w1 keep
      else .trap (heardBy s w (kWrites a.kind) ((met.filter isBad).map (·.1))) t
    | none => go s w met
where
  /-- The access over elements that pass every check. -/
  go (s : State) (w : Wave) (met : List Met) : Out :=
    match met.filterMap asksFor with
    | p :: ps =>
      .stay (askAll s (getCtx s w.ctx) (p :: ps).eraseDups) (.ats p)
    | [] =>
      let un := met.filter isReplay
      let unLanes := maskOf (un.map (·.1.lane))
      let ok := (met.filter (fun m => !unLanes.getLsbD m.1.lane)).filterMap atPlace
      let farUn := un.any (fun m => match m.2 with | .replay k .. => k != 0 | _ => false)
      let failable := ok.any remote || farUn || (openSlip w).isSome
      let a1 := { a with elems := ok }
      if un.isEmpty then commitAccess s w rcd a1 md failable false
      else
        let r : Out := if ok.isEmpty && !failable then .done s else commitAccess s w rcd a1 md failable true
        match r with
        | .done s2 =>
          let low := lowestAddr { a with elems := un.map (·.1) } unLanes
          match un.find? (fun m => m.1.addr == low) with
          | some (_, .replay kind level en ea cause page) =>
            let (s3, p) := mkPark (heardBy s2 w (kWrites a.kind) (un.map (·.1))) w w.ctl.pc kind level (kBits a.kind) (maskCount unLanes) cause low en ea page
            .park s3 p unLanes
          | _ => .done s2
        | o => o

/-- One access that an instruction makes at issue as one lane, at a place. -/
def oneAccess (k : AccKind) (order : Order) (a : W64) (st : Site) : Access :=
  { kind := k, ty := .n64, order := order, scope := .s, wb := .none, vector := false, viaHandle := false,
    elems := [{ lane := 0, piece := 0, addr := a, site := st, data := 0, cmp := 0 }] }

/-- Whether a read over a link, which is made at issue, must follow an earlier access of the wave, or, to acquire, the commit of a packet
(R75, R83). -/
def hitsLink (s : State) (w : Wave) (k : AccKind) (a : Access) : Bool :=
  match k with
  | .load => hitsFar s w (a.elems.filter (fun e => match e.site with | .link _ _ => true | _ => false)) || (acquires a && a.elems.any (inPending s))
  | _ => false

/-- An access that an instruction makes at issue as one lane, such as the read of a record (R58): its place, or how the instruction
ends. It waits for what any access of its wave waits for (R8, R49, R75, R83, R333). -/
def placeAt (s : State) (w : Wave) (k : AccKind) (n : Nat) (a : W64) (order : Order := .relaxed) : Except Out Site :=
  if locksDamaged s then .error (.stay s .stall)
  else match resolve s w k .raw n a with
  | .ok st =>
    let acc := oneAccess k order a st
    if holdsBack s w acc || hitsLink s w k acc || !coreRoom s w.core acc then .error (.stay s .stall) else .ok st
  | .bad _ c l => .error (.trap (heardAll s (getCtx s w.ctx) a 1 (kWrites k)) { preciseAt c a with
      peer := match l with | some x => w32 (lockNum x) | none => 0,
      stream := match l with | some x => lockTag s x | none => 0 })
  | .ats p =>
    .error (.stay (askHost s (getCtx s w.ctx).asid p) (.ats p))
  | .replay kind level en ea cause page =>
    let (s1, p) := mkPark (heardAll s (getCtx s w.ctx) a 1 (kWrites k)) w w.ctl.pc kind level (kBits k) 1 cause a en ea page
    .error (.park s1 p 0)

/-! ### Stores whose data is read lazily (R130) -/

/-- The data that a store takes from its registers, of a lane and piece. -/
def storeData (s : State) (w : Wave) (i : Instr) (lane piece : Nat) : W64 :=
  match i with
  | .st m => opData m.hdr m.c (anyVec [m.b, m.c])
  | .atom m => opData m.hdr m.c (anyVec [m.b, m.c])
  | .atomr m => opData m.hdr m.c (isV m.dst)
  | .cas m => opData m.hdr m.c (isV m.dst)
  | .stb m => match m.c with
    | .v r =>
      let n := tyWidth m.hdr.typ
      let at_ := n * piece
      let x := (vreg w (r.toNat + at_ / 32) lane).toNat + 2 ^ 32 * (vreg w (r.toNat + at_ / 32 + 1) lane).toNat
      w64 (bits x (at_ % 32) n)
    | _ => 0
  | .mstf m => match m.c with
    | .v r => if w.regs.dead.getLsbD lane then 0 else w64 (fragElem w r.toNat lane piece m.hdr.typ)
    | _ => 0
  | .sth m => match m.c with
    | .h r => refWord (hreg w r.toNat)
    | _ => 0
  | .pst m => opData m.hdr m.dst (peerVec m.dst m.a m.c false)
  | .psts m => opData m.hdr m.dst (peerVec m.dst m.a m.c false)
  | .patom m => opData m.hdr m.dst (peerVec m.dst m.a m.c false)
  | .patomr m => opData m.hdr m.dst (isV m.dst)
  | _ => 0
where
  /-- A data operand: a lane's word in the vector form, the scalar otherwise. -/
  opData (h : Hdr) (o : Operand) (vec : Bool) : W64 :=
    if vec then w64 (laneWord s w h.lit h.typ o lane) else if isImm o then w64 (immTo h.typ (match o with | .imm k => k.toInt | _ => 0))
    else scalarOp s w h.lit o

/-- A wave with the registers that a lazy read sees: as they stood at issue, but for the elements read as new. -/
def lazyWave (w : Wave) (z : LazyRead) (newV : List (Nat × Mask)) (newS : List Nat) : Wave :=
  let mixRow (r : Nat) (old : List W32) : List W32 :=
    let m : Mask := (newV.filter (fun p => p.1 == r)).foldl (fun a p => a ||| p.2) 0
    (List.range old.length).map (fun l => if m.getLsbD l then vreg w r l else (old[l]?).getD 0)
  let v := z.oldV.foldl (fun v p => setAt v p.1 (mixRow p.1 p.2)) w.regs.v
  let sc := z.oldS.foldl (fun v p => if newS.contains p.1 then v else setAt v p.1 p.2) w.regs.s
  { w with regs := { w.regs with v := v, s := sc } }

/-- The data of an access read from a wave's registers. -/
def refill (s : State) (w : Wave) (i : Instr) (a : Access) : Access :=
  { a with elems := a.elems.map (fun e => { e with data := storeData s w i e.lane e.piece }) }

/-- The data of an access as a lazy read that ends leaves it: a source that is read as a whole keeps what it held at issue, or is read
anew. -/
def reread (s : State) (x : Wave) (z : LazyRead) (newS : List Nat) (a : Access) : Access :=
  if z.whole && newS.isEmpty then a else refill s x z.ins a

/-- A lazy read of a store that ends: its data is read and the store is made. -/
def lazyStoreDone (s : State) (w : Wave) (z : LazyRead) (newV : List (Nat × Mask)) (newS : List Nat) : State :=
  let x := lazyWave w z newV newS
  let w1 := { w with hz := { w.hz with lazies := w.hz.lazies.filter (fun y => y.slot != z.slot) } }
  let s1 := putWave s w1
  match z.target with
  | .store a => (perform s1 w.core (getCtx s w.ctx) (reread s x z newS a) false).1
  | .held k =>
    settleAll (putWave s1 { w1 with hz := { w1.hz with held := w1.hz.held.map (fun y =>
      if y.key = k then { y with acc := reread s x z newS y.acc } else y) } }) w.id
  | .packets t =>
    match w1.hz.slips.find? (fun y => y.tag == t) with
    | some y => match y.op with
      | .mem a g l =>
        let a1 := reread s x z newS a
        let (s2, g1) := perform s1 w.core (getCtx s w.ctx) a1 false
        let s3 := modSlip s2 w.id t (fun q => { q with op := .mem a1 (g ++ g1) l })
        let s4 : State := { s3 with fab := { s3.fab with out := s3.fab.out.map (fun p =>
          if p.owner == .slip w.id t && p.hold then
            { p with hold := false, acc := reread s x z newS p.acc, ins := some z.ins, srcs := z.oldV.map (·.1) } else p) } }
        settleAll s4 w.id
      | _ => s1
    | none => s1
  | .mma _ => s1

end Sys2Proof.Machine
end

