-- ==== Sys2Proof/Machine/Issue.lean ====
section
/-! DEFINITION. The issue of an instruction of a wave (R129, R130, R135): the checks that need the state, dependence slots, the guard,
kill points, interlocks, queue pops, the instruction's own effect, and how it ends: sequential flow with loop ends (R118, R151), a
jump, a wait, a trap, a park. -/

namespace Sys2Proof.Machine

/-! ### Checks before the guard (R26, R62, R129, R137) -/

/-- Whether an instruction may stand in a recipe: NOP, scalar, mask, vector and cross-lane instructions, and loads (R62). -/
def recipeOk (i : Instr) : Bool :=
  match i with
  | .nop _ | .ld _ | .ldb _ | .ldh _ | .mldf _ => true
  | i => match groupOf (opcOf i) with
    | .scalar | .mask | .vector => true
    | _ => false

/-- Whether an opcode is permitted where a wave executes it (R137, R305). -/
def permitted (s : State) (w : Wave) (i : Instr) : Bool :=
  let priv := (getCtx s w.ctx).priv
  match i with
  | .haltctx _ | .drain _ => w.hz.handler || w.fsw || priv
  | .tlbinv g => if g.opx.toNat < 2 then w.fsw || priv else priv
  | .replay _ => w.fsw
  | .mark _ => !w.fsw
  | .rft _ => true
  | .aloop _ | .aend _ | .ald _ | .apf _ | .aadv _ | .ahalt _ => false
  | _ => true

/-- Whether every vector register that an instruction names lies below the wave's count (R26). -/
def countOk (w : Wave) (i : Instr) : Bool := (vRanges i).all (fun p => decide (p.1 + p.2 ≤ w.regs.cnt))

/-- The cause that a latch read raises (R129). -/
def latchFault (w : Wave) (i : Instr) : Option Nat :=
  let ds := xRegs i
  if ds.isEmpty then none
  else if !w.ctl.chain then some 0x04
  else if ds.any (fun d => decide (w.ctl.latches.length < d)) then some 0x04
  else if ds.any (fun d => w.ctl.latches[d - 1]? == some .nothing) then some 0x01
  else none

/-- The cause that the checks of R135 step 2 that need the state raise. -/
def issueFault (s : State) (w : Wave) (i : Instr) : Option Nat :=
  if !permitted s w i then some 0x01
  else if !countOk w i then some 0x01
  else if w.ctl.recipe.isSome && !w.hz.handler && !recipeOk i then some 0x01
  else latchFault w i

/-! ### Slots and interlocks (R47, R127, R130, R216) -/

/-- Whether a slot is held (R130). -/
def slotHeld (w : Wave) (j : Nat) : Bool := w.hz.lazies.any (fun z => z.slot == j)

/-- Whether DSW lets an instruction issue, and the slot it claims is free. -/
def slotsFree (w : Wave) (i : Instr) : Bool :=
  let h := insHdr i
  (List.range 7).all (fun j => !(h.dsw.getLsbD j && slotHeld w (j + 1))) && (h.dsc == 0 || !slotHeld w h.dsc.toNat)

/-- The descriptor of MLDF and MSTF as it stands. -/
def descNow (s : State) (w : Wave) (i : Instr) : Option W64 :=
  match i with
  | .mldf m | .mstf m => some (scalarOp s w m.hdr.lit m.b)
  | _ => none

/-- The registers that an instruction names, with fragments by their descriptors. -/
def namedNow (s : State) (w : Wave) (i : Instr) : List RegName :=
  rangeRegs (vNamed i (descNow s w i)) ++ (insOps i).flatMap opReg

/-- The registers that the results of an access go to. -/
def wbRegs (a : Access) : List RegName :=
  match a.wb with
  | .none => []
  | .vec r => rangeRegs [(r, regsOf a.ty)]
  | .sca r => [(1, r)]
  | .block r => rangeRegs [(r, 4)]
  | .handle r => [(3, r)]
  | .frag r shape role => rangeRegs [(r, fragRegs shape role)]

/-- The special registers that the check of a result against the bound registers may write: %cc and %bflag (R210), where one of some registers is
bound in a snapshot. -/
def flagNames (snap : Snap) (rs : List RegName) : List RegName :=
  if rs.any (fun r => r.1 == 0 && snap.1.any (fun p => p.1 == r.2 && ((snap.2[p.2]?).getD newBound).act != 0)) then [(4, 76), (4, 78)] else []

/-- The registers that failable loads and atomics of a wave have still to write, or whose failure is not delivered (R47), with the flags that the
check of a result on its way may write (R127, R210). -/
def pendingRegs (w : Wave) : List RegName :=
  w.hz.slips.flatMap (fun x => if x.delivered then [] else match x.op with
    | .mem a _ _ => wbRegs a ++ (if x.ended then [] else flagNames (x.binds, x.bounds) (wbRegs a))
    | _ => [])

/-- The D range of an MMA in flight. -/
def mmaD (m : MmaOp) : List RegName := rangeRegs [(m.d, fragRegs m.shape 2)]

/-- The flags that the check of the results of MMAs in flight may still write in a wave (R127, R210). -/
def mmaFlags (s : State) (w : Wave) : List RegName :=
  s.mmas.flatMap (fun m =>
    if m.leader = w.id then flagNames (m.bindsL, m.bounds) (mmaD m)
    else if m.twin = w.id then flagNames (m.bindsT, m.bounds) (mmaD m) else [])

/-- The D range of the MMA in flight whose result an MMA takes inside the array, when there is one (R216). -/
def chainOf (s : State) (w : Wave) (i : Instr) : Option MmaOp :=
  match i with
  | .mma g => match g.c with
    | .v c => (s.mmas.filter (fun m => m.leader == w.id && m.d == c.toNat && m.shape == g.opx.toNat)).getLast?
    | _ => none
  | _ => none

/-- Whether MMAs in flight of which a wave is the leader hold an instruction back. -/
def mmaLeader (s : State) (w : Wave) (i : Instr) : Bool :=
  let ms := s.mmas.filter (fun m => m.leader == w.id)
  if ms.isEmpty then false
  else
    let names : List RegName := match i, chainOf s w i with
      | .mma g, some _ => rangeRegs (vRange (fragRegs g.opx.toNat 0) g.a ++ vRange (fragRegs g.opx.toNat 1) g.b
          ++ (if g.dst == g.c then [] else vRange (fragRegs g.opx.toNat 2) g.dst))
      | _, _ => namedNow s w i
    ms.any (fun m => names.any (fun r => (mmaD m).contains r))

/-- Whether MMAs in flight of which a wave is the twin hold an instruction back (R216). -/
def mmaTwin (s : State) (w : Wave) (i : Instr) : Bool :=
  let ms := s.mmas.filter (fun m => m.twin == w.id)
  if ms.isEmpty then false
  else
    let names := namedNow s w i
    let wr := rangeRegs (vDst i (descNow s w i))
    ms.any (fun m => names.any (fun r => (mmaD m).contains r)
      || wr.any (fun r => (rangeRegs [(m.a, fragRegs m.shape 0), (m.c, fragRegs m.shape 2)]).contains r))

/-- Whether a latch that an instruction names is the destination of a load still pending. -/
def latchPending (w : Wave) (i : Instr) : Bool :=
  (xRegs i).any (fun d => match w.ctl.latches[d - 1]? with
    | some (.load r n sca) => (if sca then [(1, r)] else rangeRegs [(r, n)]).any (fun x => (pendingRegs w).contains x)
    | _ => false)

/-- The pending registers that hold an instruction back: those of other instructions, and not those of the instruction itself where it is
executed again after a park, under the slip it has opened (R44, R58). -/
def othersPending (w : Wave) : List RegName :=
  match openSlip w with
  | some x => pendingRegs { w with hz := { w.hz with slips := w.hz.slips.filter (fun y => y.tag != x.tag) } }
  | none => pendingRegs w

/-- Whether an interlock holds an instruction back. -/
def interlocked (s : State) (w : Wave) (i : Instr) : Bool :=
  (let p := othersPending w ++ mmaFlags s w; !p.isEmpty && (namedNow s w i).any (fun r => p.contains r)) || latchPending w i || mmaLeader s w i

/-! ### Latches as instructions complete (R129) -/

/-- A latch of a load that has returned takes the destination's value. -/
def freezeLatch (w : Wave) (l : Latch) : Latch :=
  match l with
  | .load r n sca =>
    if (if sca then [(1, r)] else rangeRegs [(r, n)]).any (fun x => (pendingRegs w).contains x) then l
    else if sca then .sca (sreg w r) else .vec ((List.range n).map (fun k => (w.regs.v[r + k]?).getD []))
  | l => l

/-- Every latch of a wave that has received its value holds it. -/
def freezeLatches (w : Wave) : Wave := { w with ctl := { w.ctl with latches := w.ctl.latches.map (freezeLatch w) } }

/-- The special registers that SMOV and SWR write (R157, R166). -/
def ownSp (w : Wave) : SpReg → W64
  | .cc => w.regs.cc.setWidth 64
  | .mstall => w.regs.mstall
  | .bflag => w.regs.bflag.setWidth 64
  | .fault => w.regs.fault
  | _ => 0

/-- What an instruction leaves in its latch when its destination is written: the destination just after it. -/
def destLatch (w : Wave) (i : Instr) : Latch :=
  match i with
  | .mma _ | .msca _ | .mtrn _ | .mldf _ | .ldb _ => .nothing
  | .ld _ | .atomr _ | .cas _ | .pld _ | .patomr _ =>
    match vDst i none, dstOp i with
    | (r, n) :: _, _ => .load r n false
    | [], some (.s r) => .load r.toNat 1 true
    | _, _ => .nothing
  | i => match vDst i none, dstOp i with
    | (r, n) :: _, _ => .vec ((List.range n).map (fun k => (w.regs.v[r + k]?).getD []))
    | [], some (.s r) => .sca (sreg w r.toNat)
    | [], some (.sp r) => .sca (ownSp w r)
    | [], some (.k _) | [], some (.h _) => .other
    | _, _ => .nothing

/-- What a guarded-off instruction leaves in its latch: its destination's present value, once a load that still owes it has returned. -/
def offLatch (w : Wave) (i : Instr) : Latch :=
  let p := pendingRegs w
  match vDst i none, dstOp i with
  | (r, n) :: _, _ => if (rangeRegs [(r, n)]).any (fun x => p.contains x) then
      (match destLatch w i with | .nothing => .nothing | _ => .load r n false) else destLatch w i
  | [], some (.s r) => if p.contains (1, r.toNat) then
      (match destLatch w i with | .nothing => .nothing | _ => .load r.toNat 1 true) else destLatch w i
  | _, _ => destLatch w i

/-- Whether a guarded-off instruction of a chained line waits, since its latch is to hold the present value of a destination that an MMA in flight
still owes (R127, R129). -/
def offWaits (s : State) (w : Wave) (i : Instr) : Bool :=
  w.ctl.chain && !isNwb i &&
    (s.mmas.filter (fun m => m.leader == w.id || m.twin == w.id)).any (fun m => (rangeRegs (vDst i none)).any (fun r => (mmaD m).contains r))

/-- What a guarded-off instruction leaves with NWB: zero in every register the latch would hold. -/
def zeroLatch (w : Wave) (i : Instr) : Latch :=
  match vDst i none, dstOp i with
  | (_, n) :: _, _ => .vec (List.replicate n (List.replicate w.width 0))
  | [], some (.s _) | [], some (.sp _) => .sca 0
  | [], some (.k _) | [], some (.h _) => .other
  | _, _ => .nothing

/-- A latch pushed: the last three instructions of the line are kept. -/
def pushLatch (w : Wave) (l : Latch) : Wave := { w with ctl := { w.ctl with latches := (l :: w.ctl.latches).take 3 } }

/-! ### Sequential flow (R118, R151) -/

/-- The loop ends taken on arriving at an address: the wave, its next program counter, and whether a back edge was taken. `fuel`
bounds the four levels. -/
def loopEnds : Nat → Wave → W64 → Wave × W64 × Bool
  | 0, w, pc => (w, pc, false)
  | n + 1, w, pc =>
    match w.ctl.loops with
    | e :: r =>
      if e.stop = pc then
        if (sreg w e.reg).toNat ≤ 1 then
          loopEnds n { setS w e.reg 0 with ctl := { w.ctl with loops := r } } e.stop
        else (setS w e.reg (sreg w e.reg - 1), e.start, true)
      else (w, pc, false)
    | [] => (w, pc, false)

/-- The program counter after an instruction in sequential flow, with loop ends applied (R149, R151, R153). -/
def seqPc (w : Wave) (i : Instr) : W64 := (loopEnds 5 w (nextPc w.ctl.pc (hasLit i))).2.1

/-- The wave after one more recipe instruction: at the end of the recipe it goes on after the MARK (R62). -/
def recipeStep (w : Wave) : Wave :=
  if w.hz.handler then w
  else match w.ctl.recipe with
    | some (back, n) =>
      if n ≤ 1 then { w with ctl := { w.ctl with pc := back, recipe := none, line := none, latches := [] } }
      else { w with ctl := { w.ctl with recipe := some (back, n - 1) } }
    | none => w

/-- A wave as an instruction that completed in sequential flow leaves it: the program counter advances, a loop end is applied, its
latch is pushed, and a halt that waits for the end of the instruction stops it (R118, R129, R151, R158). -/
def stepPast (w : Wave) (i : Instr) (l : Latch) : Wave :=
  let (w1, pc, back) := loopEnds 5 (pushLatch w l) (nextPc w.ctl.pc (hasLit i))
  let w2 := { w1 with
    popped := [], issued := w1.issued + 1,
    ctl := { w1.ctl with pc := pc, st := .ready, wait := .idle, only := none, again := false, peerRec := none,
                         line := if back then none else w1.ctl.line, latches := if back then [] else w1.ctl.latches } }
  let w3 := recipeStep w2
  if w3.ctl.stopping then setSt w3 .waiting .stopped else w3

/-- Whether the sequential flow after an instruction takes a back edge (R151). -/
def takesBack (w : Wave) (i : Instr) : Bool := (loopEnds 5 w (nextPc w.ctl.pc (hasLit i))).2.2

/-- An instruction of a wave completed. A back edge is a kill point (R35, R151), but not of a wave that a halt stops (R158). -/
def complete (s : State) (id : Nat) (i : Instr) (nwb : Option Latch) : State :=
  match findWave s id with
  | none => s
  | some w =>
    if w.ctl.st == .retiring ∨ w.ctl.st == .killed ∨ w.ctl.st == .retired then s
    else
      let s1 := putWave s (stepPast w i (match nwb with | some x => x | none => destLatch w i))
      if takesBack w i && killDue s w then killWave s1 id else s1

/-- The loop entries that a taken branch leaves behind (R151): the entries are popped from the top down until one contains the target, and those
below it stay, whether or not they contain it: the model's choice (log 107). -/
def popLoops (target : W64) : List LoopEntry → List LoopEntry
  | [] => []
  | e :: r => if e.start.toNat ≤ target.toNat ∧ target.toNat < e.stop.toNat then e :: r else popLoops target r

/-- A wave that has jumped to an address. -/
def jumped (w : Wave) (pc : W64) (pops : Bool) : Wave :=
  let w1 := { w with
    popped := [], issued := w.issued + 1,
    ctl := { w.ctl with pc := pc, st := .ready, wait := .idle, line := none, latches := [], only := none, again := false,
                        loops := if pops then popLoops pc w.ctl.loops else w.ctl.loops } }
  if w1.ctl.stopping then setSt w1 .waiting .stopped else w1

/-- A jump of a wave taken. -/
def jumpTo (s : State) (id : Nat) (pc : W64) (pops : Bool) : State := modWave s id (fun w => jumped w pc pops)

/-! ### Branch targets (R134) -/

/-- Why a branch target is refused: 0x03 for no slot, or for a literal slot or one clear in TGT of a line that can be fetched and passes
its check. A target whose line cannot be fetched or fails is met by the fetch there (R118, R134). -/
def targetOk (s : State) (w : Wave) (pc : W64) (needTgt : Bool) : Bool :=
  match slotIndex pc with
  | none => false
  | some n => match lineAt s w pc with
    | some l => !isLitSlot l n && (!needTgt || isTarget l n)
    | none => true

/-- A branch whose target's line cannot be fetched yet leaves the check of TGT to the fetch there (R134, log 106). -/
def owesTgt (s : State) (w : Wave) (pc : W64) : State :=
  if (lineAt s w pc).isNone then modWave s w.id (fun x => { x with ctl := { x.ctl with needTgt := true } }) else s

/-- A taken branch: the jump, or 0x03 with FADDR holding the target. -/
def branchTo (s : State) (w : Wave) (pc : W64) (pops : Bool) : Out :=
  if targetOk s w pc true then .jump (owesTgt s w pc) pc pops else .trap s (preciseAt 0x03 pc)

/-- The target of a branch-layout instruction (R134). -/
def brTarget (w : Wave) (b : BrW) : W64 := pcPlus w.ctl.pc b.offset.toInt

/-! ### Kill points (R35) -/

/-- The mask that BKZ and BKNZ test (R147). -/
def testMask (w : Wave) (b : BrW) : Mask := kreg w b.hdr.msk.toNat &&& kreg w 0 &&& ~~~ w.regs.dead

/-- The tag operand of BHZ and HWAIT, and whether it is passed (R48). -/
def tagPassed (s : State) (w : Wave) (lit : Option W64) (o : Operand) : Bool :=
  passed w (waitTag w (w32 (scalarOp s w lit o).toNat))

/-- Whether an instruction whose guard is true is a kill point as it stands (R35, R134, R150). -/
def killPoint (s : State) (w : Wave) (i : Instr) : Bool :=
  match i with
  | .bra b => decide (b.offset.toInt ≤ 0)
  | .call b => decide (b.offset.toInt ≤ 0)
  | .bkz b => testMask w b == 0 && decide (b.offset.toInt ≤ 0)
  | .bknz b => testMask w b != 0 && decide (b.offset.toInt ≤ 0)
  | .bhz b => tagPassed s w b.hdr.lit b.a && decide (b.offset.toInt ≤ 0)
  | .jmpi g | .ret g => decide ((scalarOp s w g.hdr.lit g.a).toNat ≤ w.ctl.pc.toNat)
  | .bars _ | .barw _ | .waitb _ | .tryw _ | .hwait _ | .claim _ | .waitt _ | .spawn _ | .kpoll _ | .mark _ => true
  | _ => false

/-! ### Queue pops (R127, R263) -/

/-- How the pop of a queue goes; `fetch` meets the replayable fault of the fetch of its slice's code (R58, R118). -/
inductive Pop
  | ok (w : Wave) (dead : Mask)
  | stall
  | trap (t : PTrap)
  | park (a : Access) (f : Stopped) (m : Mask)
  | fetch (entry eaddr : W64) (level cause : Nat)
  deriving DecidableEq, Repr

/-- A queue with its head removed and counted. -/
def takeHead (w : Wave) (q : Nat) (e : QEntry) : Wave :=
  { w with
    queues := setAt w.queues q (((w.queues[q]?).getD []).drop 1),
    pops := setAt w.pops q ((w.pops[q]?).getD 0 + 1),
    popped := w.popped ++ [(q, e.vals)] }

/-- The pop of an empty queue (R127, R263): 0x01 when its slice has stopped; a park where the slice waits for its code (log 82); else a
stall. -/
def popEmpty (s : State) (w : Wave) : Pop :=
  if w.slice.stopped then .trap (precise 0x01)
  else match fetchXlate s (getCtx s w.ctx) w.slice.pc with
    | .error (.park en ea level cause) => .fetch en ea level cause
    | _ => .stall

/-- The pop of one queue by an executing instruction whose lane set is `act`. -/
def popOne (s : State) (w : Wave) (q : Nat) (act : Mask) : Pop :=
  match ((w.queues[q]?).getD []) with
  | [] => popEmpty s w
  | e :: _ =>
    if e.cause ≠ 0 then
      if w.hz.handler && decide (5 ≤ e.cause) && decide (e.cause ≤ 0x0B) then
        let w1 := noteFault w e.cause e.faddr
        .ok { w1 with popped := w1.popped ++ [(q, e.vals)], ctl := { w1.ctl with only := some (~~~ e.lanes) } } 0
      else .trap { preciseAt e.cause e.faddr with lanes := e.lanes }
    else match e.unfinished with
      | some (a, f) => .park a f e.lanes
      | none => .ok (takeHead w q e) (e.poison &&& act)

/-- The pop of one queue by PRF, which neither traps nor parks: an entry that carries a fault, and an empty queue whose slice has stopped, give
it nothing and stay (R229, log 90). -/
def popSoft (w : Wave) (q : Nat) (act : Mask) : Pop :=
  match ((w.queues[q]?).getD []) with
  | [] => if w.slice.stopped then .ok w 0 else .stall
  | e :: _ => if e.cause ≠ 0 || e.unfinished.isSome then .ok w 0 else .ok (takeHead w q e) (e.poison &&& act)

/-- Whether an instruction is PRF. -/
def isPrf (i : Instr) : Bool := match i with | .prf _ => true | _ => false

/-- The pops of a guarded-off instruction, which discards the entries (R135). -/
def discardPops (w : Wave) (qs : List Nat) : Option Wave :=
  qs.foldl (fun (b : Option Wave) q => match b with
    | none => none
    | some x => match ((x.queues[q]?).getD []) with
      | [] => if x.slice.stopped then some x else none
      | e :: _ => some { takeHead x q e with popped := [] }) (some w)

/-! ### The end of an instruction -/

/-- A park for the fetch of an access slice's code, met by a pop of its wave. -/
def fetchPark (s : State) (w : Wave) (en ea : W64) (level cause : Nat) : State × Park :=
  mkPark s w w.ctl.pc 0 level 4 1 cause w.slice.pc en ea none

/-- Whether a wait is that of an instruction that executes, and not a stalled issue (R29, R352). -/
def executed : Wait → Bool
  | .idle | .stall | .budget | .ats _ | .yielded .. | .stopped => false
  | _ => true

/-- A wave that waits at its boundary. An instruction that it has been let execute again is at a boundary from then on (R352), and one that executes
and waits has issued (R29, R155). -/
def stayAt (s : State) (id : Nat) (wt : Wait) : State :=
  modWave s id (fun w =>
    let x := setSt w (match wt with | .tryw .. => .suspended | _ => .waiting) wt
    { x with ctl := { x.ctl with again := false }, issued := w.issued + b2n (executed wt && !executed w.ctl.wait) })

/-- A wave as it stands at its instruction `w` but for what its pops have given it, `v`: the entries that they took, the lanes that died of them
and those that a fault left out. -/
def unpopped (v w : Wave) : Wave :=
  { v with queues := w.queues, pops := w.pops, regs := { v.regs with dead := w.regs.dead }, ctl := { v.ctl with only := w.ctl.only } }

/-- The entries that an instruction which does not complete has popped are in their queues again, and no lane has died of them (R127, R263). -/
def unpop (i : Instr) (w0 : Wave) (s : State) : State :=
  if (qRegs i).isEmpty then s
  else modWave s w0.id (fun w => { w with
    queues := w0.queues, pops := w0.pops, popped := [], regs := { w.regs with dead := w0.regs.dead }, ctl := { w.ctl with only := w0.ctl.only } })

/-- A precise trap of an instruction taken: a secondary fault in handler mode is recorded and the instruction has no effect (R55);
any other is delivered at its boundary (R54), with queue entries unpopped. -/
def precisely (s : State) (w0 : Wave) (i : Instr) (t : PTrap) : State :=
  let s1 := modWave s w0.id (fun w => { w with queues := w0.queues, pops := w0.pops, popped := [], regs := { w.regs with dead := w0.regs.dead } })
  if w0.hz.handler && decide (5 ≤ t.cause) && decide (t.cause ≤ 0x0B) then
    complete (modWave s1 w0.id (fun w => noteFault w t.cause t.faddr)) w0.id i none
  else
    let at_ := t.next.getD w0.ctl.pc
    let r := opRecOf s w0 i
    takeTrap s1 w0.id { cause := t.cause, cls := .precise, pcdlv := at_, pcop := at_, tag := none, faddr := t.faddr,
                        rcd := { r with peer := t.peer, stream := t.stream }, lanes := t.lanes, mixed := false, desched := false }

/-- A wave parked, for some unfinished lanes, or, of an empty mask, for all of its instruction: it joins the waves whose fault records are to be
written, unless it waits for a host page (R58, R306, R308). Its issue slot goes to other waves, so that its latches are lost (R129, log 85). -/
def parkWave (s : State) (id : Nat) (p : Park) (m : Mask) : State :=
  match findWave s id with
  | none => s
  | some w =>
    let s1 := putWave s { w with
      issued := w.issued + 1,
      ctl := { w.ctl with st := .parked, wait := .idle, park := some p, only := if m = 0 then none else some m, again := false, latches := [] } }
    if p.page.isSome then s1 else modCtx s1 w.ctx (fun c => { c with records := c.records ++ [id] })

/-- %fault as it stood before an attempt that did not issue: what its faulting lanes raise is noted once, when it issues (R56). -/
def keepFault (s : State) (w0 : Wave) : State :=
  match findWave s w0.id with
  | some w => if w.regs.fault = w0.regs.fault then s else putWave s { w with regs := { w.regs with fault := w0.regs.fault } }
  | none => s

/-- The end of an instruction of a wave, as it stood at `w0`. -/
def finish (w0 : Wave) (i : Instr) (nwb : Option Latch) (o : Out) : State :=
  match o with
  | .done s => complete s w0.id i nwb
  | .jump s pc pops => jumpTo s w0.id pc pops
  | .stay s wt => stayAt (unpop i w0 (keepFault s w0)) w0.id wt
  | .leave s wt =>
    let s1 := complete s w0.id i nwb
    modWave s1 w0.id (fun w => match w.ctl.st with
      | .ready => setSt w .waiting wt
      | _ => w)
  | .trap s t => precisely s w0 i t
  | .park s p m => parkWave (unpop i w0 s) w0.id p m
  | .over s => s

/-- The park of a pop on a queue entry's replayable fault, for its unfinished lanes, with what the fault showed when its slice met it (R263,
R306). -/
def popPark (s : State) (w : Wave) (a : Access) (f : Stopped) (m : Mask) : Out :=
  let (s1, p) := mkPark s w w.ctl.pc f.kind f.level 1 (maskCount m) f.cause (lowestAddr a m) f.entry f.eaddr f.page
  .park s1 p m

/-- What an instruction's own effect is given and gives: NWB results carry their latch. -/
abbrev Body := State → Wave → Out × Option Latch

/-- The pops of an instruction that executes: each queue it names, once, with the lanes of act that are poisoned. -/
def popAll (s : State) (w : Wave) (i : Instr) : Pop :=
  let act := actOf w (insHdr i).msk
  ((qRegs i).filter (fun q => !(w.popped.any (fun p => p.1 == q)))).foldl (fun (b : Pop) q => match b with
    | .ok x d => match (if isPrf i then popSoft x q act else popOne s x q act) with
      | .ok y e => .ok y (d ||| e)
      | o => o
    | o => o) (.ok w 0)

/-- A state after an instruction that read a latch: free values it may have read are used up (R129, log 3). -/
def spendLatch (i : Instr) (s : State) : State := if (xRegs i).isEmpty then s else { s with free := s.free + 4096 }

/-- The pops and the effect of an instruction that executes. -/
def runBody (s : State) (w : Wave) (i : Instr) (f : Body) : State :=
  match popAll s w i with
  | .stall => stayAt s w.id .stall
  | .trap t => precisely s w i t
  | .fetch en ea level cause => let (s1, p) := fetchPark s w en ea level cause; parkWave s1 w.id p 0
  | .park a f m => finish w i none (popPark s w a f m)
  | .ok w1 dead =>
    let s1 := markDead (putWave s w1) w.id dead
    match findWave s1 w.id with
    | none => s1
    | some w2 =>
      if w2.ctl.st == .retiring ∨ w2.ctl.st == .killed then s1
      else
        let (o, l) := f s1 w2
        spendLatch i (finish (unpopped w2 w) i (if isNwb i then some (l.getD .nothing) else none) o)

/-- The issue of an instruction by a wave, in the order of R135. -/
def issueWave (s : State) (w : Wave) (i : Instr) (f : Body) : State :=
  match issueFault s w i with
  | some c => precisely s w i (precise c)
  | none =>
    if !slotsFree w i then stayAt s w.id .stall
    else
      let w1 := freezeLatches w
      let s1 := putWave s w1
      if !guardHolds (insHdr i).grd w.regs.cc then
        if offWaits s1 w1 i then stayAt s1 w.id .stall
        else match discardPops w1 (qRegs i) with
        | some w2 => complete (putWave s1 w2) w.id i (some (if isNwb i then zeroLatch w2 i else offLatch w2 i))
        | none => stayAt s1 w.id .stall
      else if killPoint s1 w1 i && killDue s1 w1 then killWave s1 w.id
      else if mmaTwin s1 w1 i then modWave s1 w.id (fun x => setSt x .slaved .stall)
      else if interlocked s1 w1 i then stayAt s1 w.id .stall
      else runBody s1 w1 i f

/-! ### Illegal uses in an access slice (R262, R286) -/

/-- The final entry that a slice's end with a cause places in each queue. -/
def finalEntry (w : Wave) (cause : Nat) (a : W64) : QEntry :=
  { vals := List.replicate w.width 0, poison := 0, cause := cause, lanes := 0, faddr := a, unfinished := none }

/-- The final entry that an illegal use places in each queue. -/
def illegalEntry (w : Wave) (pc : W64) : QEntry := finalEntry w 0x01 pc

/-- A slice stopped with a cause, which a final entry of each queue carries. -/
def sliceEnd (s : State) (id cause : Nat) : State :=
  modWave s id (fun w =>
    if w.slice.stopped then w
    else { w with slice := { w.slice with stopped := true }, queues := w.queues.map (fun q => q ++ [finalEntry w cause w.slice.pc]) })

/-- A slice stopped by an illegal use (R262). -/
def sliceIllegal (s : State) (id : Nat) : State := sliceEnd s id 0x01

/-! ### The meanings' frame -/

/-- An instruction of a wave: issued by the wave whose turn it is; an access slice that meets it makes an illegal use; with no agent it
has no meaning. -/
def issueR (i : Instr) (s : State) (f : Body) : Host.Outcome State Fault Refusal :=
  match s.cur with
  | .none => .refused .noIssuer
  | .slice w => .next (sliceIllegal s w)
  | .wave id => match findWave s id with
    | some w => .next (issueWave s w i f)
    | none => .refused .noIssuer

/-- The same for an effect that leaves no NWB latch of its own. -/
def issue (i : Instr) (s : State) (f : State → Wave → Out) : Host.Outcome State Fault Refusal :=
  issueR i s (fun x w => (f x w, none))

/-- The results of an instruction written (R210, R129): done, with its latch under NWB, or the bound trap. In handler mode the lanes that
trap are left out and the fault is recorded (R55). Lanes that consumed poison are dead once it is done (R40). -/
def writeOut (s : State) (w : Wave) (e0 : Eff) (nwb : Bool) : Out × Option Latch :=
  let t := getTeam s w.team
  let e := aliveEff e0
  let l := if nwb then some (latchOf w e true) else none
  match writeEff t w e nwb with
  | .ok x => (.done (markDead (putWave s x) w.id e.dies), l)
  | .error m =>
    if w.hz.handler then
      let e1 := { e with v := e.v.map (fun p => (p.1, p.2.filter (fun q => !m.getLsbD q.1))) }
      match writeEff t (noteFault w 0x07 0) e1 nwb with
      | .ok x => (.done (markDead (putWave s x) w.id e.dies), l)
      | .error m1 => (.trap s { precise 0x07 with lanes := m1 }, none)
    else (.trap s { precise 0x07 with lanes := m }, none)

/-- An instruction whose effect is results alone. -/
def issueEff (i : Instr) (s : State) (f : State → Wave → Eff) : Host.Outcome State Fault Refusal :=
  issueR i s (fun x w => writeOut x w (f x w) (isNwb i))

/-- The scalar register that an operand names. -/
def sNum : Operand → Nat
  | .s n => n.toNat
  | _ => 0

end Sys2Proof.Machine
end

