-- ==== Sys2Proof/Machine/Control.lean ====
section
/-! DEFINITION. The control and system group (R145 to R163): branches, loops, ending, traps and their return, status and special
registers, halting, draining, invalidation, replay, pre-emption regions and flashback points. -/

namespace Sys2Proof.Machine

/-- A slice that goes on after one instruction (R286). -/
def sliceNext (s : State) (id : Nat) (i : Instr) : State :=
  modWave s id (fun w => { w with slice := { w.slice with pc := nextPc w.slice.pc (hasLit i) } })

/-- NOP (R145); in an access slice it is an empty step (R286). -/
def execNop (w : GenW) (s : State) : Host.Outcome State Fault Refusal :=
  match s.cur with
  | .slice id => if w.hdr.grd == .al && w.hdr.dsw == 0 then .next (sliceNext s id (.nop w)) else .next (sliceIllegal s id)
  | _ => issue (.nop w) s (fun s _ => .done s)

/-- BRA (R146). -/
def execBra (w : BrW) (s : State) : Host.Outcome State Fault Refusal :=
  issue (.bra w) s (fun s v => branchTo s v (brTarget v w) true)

/-- BKZ (R147). -/
def execBkz (w : BrW) (s : State) : Host.Outcome State Fault Refusal :=
  issue (.bkz w) s (fun s v => if testMask v w = 0 then branchTo s v (brTarget v w) true else .done s)

/-- BKNZ (R147). -/
def execBknz (w : BrW) (s : State) : Host.Outcome State Fault Refusal :=
  issue (.bknz w) s (fun s v => if testMask v w = 0 then .done s else branchTo s v (brTarget v w) true)

/-- BHZ (R148). -/
def execBhz (w : BrW) (s : State) : Host.Outcome State Fault Refusal :=
  issue (.bhz w) s (fun s v => if tagPassed s v w.hdr.lit w.a then branchTo s v (brTarget v w) true else .done s)

/-- A scalar result of a control instruction, unless NWB keeps it out. -/
def putScalar (w : Wave) (h : Hdr) (d : Operand) (v : W64) : Wave := if h.nwb then w else setS w (sNum d) v

/-- An instruction of the group whose effect, where it completes, is a state and a scalar result: the result goes to DST, or, under NWB, to the latch
alone (R129). -/
def issueScalar (i : Instr) (h : Hdr) (d : Operand) (s : State) (f : State → Wave → Out × W64) : Host.Outcome State Fault Refusal :=
  issueR i s (fun s v => match f s v with
    | (.done t, x) => (.done (modWave t v.id (fun y => putScalar y h d x)), some (.sca x))
    | (o, _) => (o, none))

/-- CALL (R149): the loop end, if any, is applied as it completes, and the link is the program counter after it. -/
def execCall (w : BrW) (s : State) : Host.Outcome State Fault Refusal :=
  issue (.call w) s (fun s v =>
    let (v1, link, _) := loopEnds 5 v (nextPc v.ctl.pc false)
    match branchTo s v (brTarget v w) false with
    | .jump _ pc p => .jump (owesTgt (putWave s (putScalar v1 w.hdr w.dst link)) v pc) pc p
    | o => o)

/-- RET (R150). -/
def execRet (w : GenW) (s : State) : Host.Outcome State Fault Refusal :=
  issue (.ret w) s (fun s v => branchTo s v (scalarOp s v w.hdr.lit w.a) true)

/-- JMPI (R150). -/
def execJmpi (w : GenW) (s : State) : Host.Outcome State Fault Refusal :=
  issue (.jmpi w) s (fun s v => branchTo s v (scalarOp s v w.hdr.lit w.a) true)

/-- The effect of LOOP (R151). -/
def loopBody (w : BrW) (s : State) (v : Wave) : Out :=
  let cnt := scalarOp s v w.hdr.lit w.a
  let stop := brTarget v w
  if 2 ^ 32 ≤ cnt.toNat ∨ w.offset.toInt ≤ 0 ∨ slotIndex stop ≠ some 0 then .trap s (precise 0x01)
  else if 4 ≤ v.ctl.loops.length then .trap s (precise 0x01)
  else if !targetOk s v stop true then .trap s (preciseAt 0x03 stop)
  else if cnt = 0 then .jump (owesTgt (putWave s (putScalar v w.hdr w.dst 0)) v stop) stop false   -- no enclosing loop's end is taken there (log 84)
  else
    let v1 := putScalar v w.hdr w.dst cnt
    let e : LoopEntry := { start := nextPc v.ctl.pc (hasLit (.loop w)), stop := stop, reg := sNum w.dst }
    .done (putWave s { v1 with ctl := { v1.ctl with loops := e :: v1.ctl.loops } })

/-- LOOP (R151). -/
def execLoop (w : BrW) (s : State) : Host.Outcome State Fault Refusal :=
  issueR (.loop w) s (fun s v => (loopBody w s v, some (.sca (scalarOp s v w.hdr.lit w.a))))

/-- A wave that leaves by ENDP in handler mode: pending traps go to the fault log (R55). -/
def leaveHandler (s : State) (v : Wave) : State × Wave :=
  let v0 := { v with hz := { v.hz with slips := (v.hz.slips.filter (fun x => !x.delivered)).map (fun x => { x with openPark := false }) } }
  let (s1, v1) := logPending 128 s v0
  let (s2, v2) := logEvents s1 v1
  (s2, { v2 with ctl := { v2.ctl with left := true } })

/-- EXITED of every barrier for which a wave that executes ENDP is still counted (R156). -/
def noteExit (s : State) (v : Wave) : State :=
  let f (b : Barrier) : Barrier := if b.removed &&& waveBit v.idx == 0 then { b with exited := b.exited ||| waveBit v.idx } else b
  modTeam s v.team (fun t => { t with bars := t.bars.map f })

/-- The effect of ENDP (R30, R55, R65, R152). -/
def endpBody (s : State) (v : Wave) : Out :=
  let (s1, v1) := if v.hz.handler then leaveHandler (noteExit s v) v else (noteExit s v, v)
  .over (putWave s1 { v1 with
    popped := [], issued := v1.issued + 1,
    ctl := { v1.ctl with st := .retiring, wait := .idle, nopre := none, only := none, again := false, rest := none } })

/-- ENDP (R152). -/
def execEndp (w : GenW) (s : State) : Host.Outcome State Fault Refusal := issue (.endp w) s endpBody

/-- TRAP (R153): cause 0x20 with the next program counter, after the loop end, as PCDLV. A back edge that the loop end takes is no kill point
here: the trap is delivered first (log 83). -/
def execTrap (w : GenW) (s : State) : Host.Outcome State Fault Refusal :=
  issue (.trap w) s (fun s v =>
    let (v1, pc, _) := loopEnds 5 v (nextPc v.ctl.pc (hasLit (.trap w)))
    .trap (putWave s v1) { precise 0x20 with next := some pc })

/-- The effect of RFT (R55, R134). -/
def rftBody (s : State) (v : Wave) : Out :=
  if !v.hz.handler then .trap s (precise 0x01)
  else if !targetOk s v (frameReturn v).1 false then .trap s (preciseAt 0x03 (frameReturn v).1)
  else
    let v1 := { returnFromTrap v with issued := v.issued + 1 }
    let v2 := if v1.ctl.stopping then setSt v1 .waiting .stopped else v1
    .over (settleAll (putWave s v2) v.id)

/-- RFT (R154). -/
def execRft (w : GenW) (s : State) : Host.Outcome State Fault Refusal := issue (.rft w) s rftBody

/-- The waves that a YIELD lets go first: the others of its core and priority that are ready (R155). -/
def yieldTo (s : State) (v : Wave) : List (Nat × Nat) :=
  (s.waves.filter (fun x => x.core == v.core && x.prio == v.prio && x.id != v.id && x.ctl.st == .ready)).map (fun x => (x.id, x.issued))

/-- Those of a YIELD's waves that have not issued an instruction since, nor left their core's choice for good. -/
def yieldLeft (s : State) (others : List (Nat × Nat)) : List (Nat × Nat) :=
  others.filter (fun p => match findWave s p.1 with
    | some x => x.issued == p.2 && isLive x && x.ctl.st != .killed && x.ctl.st != .retiring
    | none => false)

/-- YIELD (R155). -/
def execYield (w : GenW) (s : State) : Host.Outcome State Fault Refusal :=
  issue (.yield w) s (fun s v =>
    let wt := Wait.yielded (yieldTo s v) (s.clk + 64)
    .over (modWave (complete s v.id (.yield w) none) v.id (fun x => if x.ctl.st == .ready then setSt x .ready wt else x)))

/-- YIELD_EXPIRY (R155): the yield ends once the others have issued or 64 clk have passed. -/
def execYieldExpiry (wave : Nat) (s : State) : Host.Outcome State Fault Refusal :=
  .next (modWave s wave (fun w => match w.ctl.wait with
    | .yielded others lim => if (yieldLeft s others).isEmpty || decide (lim ≤ s.clk) then setSt w w.ctl.st .idle else w
    | _ => w))

/-- The limit of a NOPRE region in ns (R65). -/
def nopreLimit : Nat := 2000000

/-- The number of a wave state in the row order of R29. -/
def stateCode : WState → Nat
  | .placed => 0 | .ready => 1 | .issuing => 2 | .waiting => 3 | .suspended => 4 | .parked => 5 | .slaved => 6 | .preempted => 7
  | .retiring => 8 | .killed => 9 | .retired => 10

/-- The status word of SRD selector 0 (R156). -/
def statusWord (s : State) (v : Wave) : W64 :=
  let c := getCtx s v.ctx
  w64 (256 * v.hz.held.length + 128 * b2n c.halted + 16 * v.ctl.loops.length + 8 * b2n c.priv + 4 * b2n v.fsw
    + 2 * b2n v.ctl.nopre.isSome + b2n v.hz.handler)

/-- Wave n of a wave's team. -/
def teamWave (s : State) (v : Wave) (n : Nat) : Option Wave :=
  match (getTeam s v.team).waves[n]? with
  | some id => findWave s id
  | none => none

/-- The value of an SRD selector, where its index is in range (R156). -/
def srdValue (s : State) (v : Wave) (sel : Nat) (n : W64) : Option W64 :=
  match sel with
  | 0 => some (statusWord s v)
  | 1 => some (w64 v.hz.slips.length)
  | 2 => some (match v.ctl.nopre with | some t => w64 (t + nopreLimit - s.ns) | none => 0)
  | 3 => some (w64 v.prio)
  | 4 => some (w64 v.depth)
  | 5 => some (w64 v.regs.cnt)
  | 6 => some (v.hz.facc.setWidth 64)
  | 7 => some (w64 v.ctx)
  | 8 => if 15 < n.toNat then none else ((getTeam s v.team).bars[n.toNat]?).map barStatus
  | 9 => some (match teamWave s v n.toNat with | some x => if x.ctl.st == .retired then 0 else x.ctl.pc | none => 0)
  | _ => some (match teamWave s v n.toNat with | some x => w64 (stateCode (if x.id = v.id then .issuing else x.ctl.st)) | none => 10)

/-- SRD (R156). -/
def execSrd (w : GenW) (s : State) : Host.Outcome State Fault Refusal :=
  issueR (.srd w) s (fun s v =>
    match srdValue s v (srdSel w) (scalarOp s v w.hdr.lit w.b) with
    | some x => writeOut s v { s := [(sNum w.dst, x)] } w.hdr.nwb
    | none => (.trap s (precise 0x01), none))

/-- A special register written by SWR: the fields that its map gives as RW (R56, R128, R157, R211). -/
def swrTo (v : Wave) (d : Operand) (x : W64) : Wave :=
  match d with
  | .sp .cc => setCC v (x.setWidth 32)
  | .sp .mstall => { v with regs := { v.regs with mstall := x } }
  | .sp .bflag => { v with regs := { v.regs with bflag := x.setWidth 32 &&& 0xFFFF } }
  | .sp .fault => { v with regs := { v.regs with fault := x &&& 0xCFF7FFFFFFFFFFFF } }
  | _ => v

/-- SWR (R157); with NWB the value goes to the latch alone (R129). -/
def execSwr (w : GenW) (s : State) : Host.Outcome State Fault Refusal :=
  issueR (.swr w) s (fun s v =>
    let x := swrTo v w.dst (scalarOp s v w.hdr.lit w.a)
    if w.hdr.nwb then (.done s, some (match w.dst with | .sp r => .sca (ownSp x r) | _ => .nothing)) else (.done (putWave s x), none))

/-- HALTCTX's return, with 0, once every wave is stopped. -/
def haltReturn (s : State) (v : Wave) : Out × W64 := (if allStopped s v.ctx then .done s else .stay s .halting, 0)

/-- The effect of HALTCTX (R158). -/
def haltBody (s : State) (v : Wave) : Out × W64 :=
  if v.ctl.wait = .halting then haltReturn s v
  else if (getCtx s v.ctx).halted then (.done s, 1)
  else haltReturn (haltCtx s v.ctx (some v.id)) v

/-- HALTCTX (R158). -/
def execHaltctx (w : GenW) (s : State) : Host.Outcome State Fault Refusal := issueScalar (.haltctx w) w.hdr w.dst s haltBody

/-- The result of DRAIN (R159). -/
def drainResult (done failed aborted : Nat) : W64 :=
  w64 (min failed 65535 * 2 ^ 32 + min aborted 65535 * 2 ^ 16 + min done 65535)

/-- The effect of DRAIN (R159): it covers the engine operations of the context that have not ended at its issue. -/
def drainBody (w : GenW) (s : State) (v : Wave) : Out × W64 :=
  match v.ctl.wait with
  | .drain [] d f a => (.done s, drainResult d f a)
  | .drain l d f a => (.stay s (.drain l d f a), 0)
  | _ =>
    let ids := (s.ops.filter (fun o => o.ctx == v.ctx)).map (·.id)
    let s1 : State := if w.opx = 1 then { s with ops := s.ops.map (fun o => if ids.contains o.id then askAbort .cancel o else o) } else s
    (if ids.isEmpty then .done s else .stay s1 (.drain ids 0 0 0), 0)

/-- DRAIN (R159). -/
def execDrain (w : GenW) (s : State) : Host.Outcome State Fault Refusal := issueScalar (.drain w) w.hdr w.dst s (drainBody w)

/-- What a TLBINV covers: an ASID or all, and a byte range or every address (R160). -/
structure InvRange where
  asid : Option Nat
  lo : Nat
  hi : Nat
  deriving DecidableEq, Repr

/-- Whether a page of an ASID is covered. -/
def covers (r : InvRange) (asid lo hi : Nat) : Bool :=
  (match r.asid with | some a => a == asid | none => true) && decide (lo < r.hi) && decide (r.lo < hi)

/-- Whether an ASID is live: a context of it has not ended. -/
def asidLive (s : State) (asid : Nat) : Bool := s.ctxs.any (fun c => c.asid == asid && decide (c.status < 2))

/-- The range of a TLBINV, widened to 4 KiB boundaries. -/
def invRange (s : State) (v : Wave) (w : GenW) : InvRange :=
  let a := (scalarOp s v w.hdr.lit w.a).toNat
  let n := (scalarOp s v w.hdr.lit w.b).toNat
  let lo := a / 4096 * 4096
  let hi := if n = 0 then 0 else (a + n + 4095) / 4096 * 4096
  let own := (getCtx s v.ctx).asid
  let x := (scalarOp s v w.hdr.lit w.c).toNat
  match w.opx.toNat with
  | 0 => { asid := some own, lo := lo, hi := hi }
  | 1 => { asid := some own, lo := 0, hi := 2 ^ 64 }
  | 2 => if asidLive s x then { asid := some x, lo := lo, hi := hi } else { asid := some x, lo := 0, hi := 0 }
  | _ => { asid := none, lo := 0, hi := 2 ^ 64 }

/-- The page through which an address of an ASID is reached, from its first byte to its end: that of its cached translation, else that of the leaf that
a walk finds, else one of 4 KiB. -/
def pageSpan (s : State) (asid va : Nat) : Nat × Nat :=
  let own : Option TlbEntry := match tlbFind s asid va with
    | some e => some e
    | none => match s.ctxs.find? (fun c => c.asid == asid) with
      | some c => match walkFrom s asid va 5 c.ptroot.toNat with | .leaf e => some e | _ => none
      | none => none
  match own with
  | some e => (e.base, e.base + 2 ^ e.size)
  | none => (va / 4096 * 4096, va / 4096 * 4096 + 4096)

/-- Whether an access used a covered translation: one whose page overlaps the range. -/
def usedBy (s : State) (r : InvRange) (asid : Nat) (a : Access) : Bool :=
  a.elems.any (fun e => let p := pageSpan s asid e.addr.toNat; covers r asid p.1 p.2)

/-- The accesses made through covered translations that are not performed: failable ones, held stores, stores whose data is still to be
read, packets to peers of engines, counters and suspended waves, and what engines have still to send to peers, by the number of the operation. -/
def invWait (s : State) (r : InvRange) : Wait :=
  let asidOf (w : Wave) : Nat := (getCtx s w.ctx).asid
  .tlbinv
    (s.waves.flatMap (fun w => (w.hz.slips.filter (fun x => !x.ended && !x.held && (match x.op with
      | .mem a _ _ => usedBy s r (asidOf w) a
      | _ => false))).map (fun x => (w.id, x.tag))))
    (s.waves.flatMap (fun w => (w.hz.held.filter (fun x => usedBy s r (asidOf w) x.acc)).map (fun x => (w.id, x.key))))
    (s.waves.flatMap (fun w => (w.hz.lazies.filter (fun x => match x.target with
      | .store a => usedBy s r (asidOf w) a
      | _ => false)).map (fun x => (w.id, x.slot))))
    ((s.fab.out.filter (fun p => (match p.owner with | .slip _ _ => false | _ => true) && usedBy s r p.space.asid p.acc)).map (·.id)
      ++ (s.ops.filter (fun o => usedBy s r o.asid { oneAccess .store .relaxed 0 .nowhere with elems := o.far })).map (·.id))

/-- Whether a cached host translation goes with the entries that a range removes: every one of an ASID of which every translation is
removed, and those of the host pages that a removed leaf maps. -/
def atsGoes (s : State) (r : InvRange) (asid : Nat) (page : W64) : Bool :=
  (covers r asid 0 (2 ^ 64) && r.lo == 0 && r.hi == 2 ^ 64)
    || s.tlb.any (fun e => e.asid == asid && covers r asid e.base (e.base + 2 ^ e.size) && leafAper e.leaf.toNat == 3
        && decide (leafFrame e.leaf.toNat * 4096 ≤ page.toNat) && decide (page.toNat < leafFrame e.leaf.toNat * 4096 + 2 ^ e.size))

/-- The covered translations and the instruction-cache lines of the pages they cover removed (R160, R351). -/
def invalidate (s : State) (r : InvRange) : State :=
  { dropAts s (atsGoes s r) with
    tlb := s.tlb.filter (fun e => !covers r e.asid e.base (e.base + 2 ^ e.size)),
    icache := s.icache.filter (fun l => !covers r l.asid l.base (l.base + 2 ^ l.size)) }

/-- Those of the awaited accesses that are still not performed. -/
def invLeft (s : State) (sl : List (Nat × W32)) (he lz : List (Nat × Nat)) (pk : List Nat) : Wait :=
  .tlbinv
    (sl.filter (fun p => match findSlip s p.1 p.2 with | some x => !x.ended | none => false))
    (he.filter (fun p => match findWave s p.1 with | some w => w.hz.held.any (fun x => x.key == p.2) | none => false))
    (lz.filter (fun p => match findWave s p.1 with | some w => w.hz.lazies.any (fun x => x.slot == p.2) | none => false))
    (pk.filter (fun i => s.fab.out.any (fun p => p.id == i)
      || s.ops.any (fun o => o.id == i && (!o.far.isEmpty || s.fab.out.any (fun p => p.owner == .engine i)))))

/-- The effect of TLBINV (R160). -/
def tlbinvBody (w : GenW) (s : State) (v : Wave) : Out :=
  match v.ctl.wait with
  | .tlbinv sl he lz pk =>
    let wt := invLeft s sl he lz pk
    if wt = .tlbinv [] [] [] [] then .done s else .stay s wt
  | _ =>
    let r := invRange s v w
    let s1 := invalidate s r
    if invWait s r = .tlbinv [] [] [] [] then .done s1 else .stay s1 (invWait s r)

/-- TLBINV (R160). -/
def execTlbinv (w : GenW) (s : State) : Host.Outcome State Fault Refusal := issue (.tlbinv w) s (tlbinvBody w)

/-- The loads of a queue entry's unfinished lanes tried again (R263): finished lanes get their elements; a check that now fails is the
entry's cause. -/
def finishEntry (s : State) (v : Wave) (e : QEntry) : QEntry :=
  match e.unfinished with
  | none => e
  | some (a, f) =>
    let met := a.elems.map (fun x => (x, resolve s v .load .raw (elemSize a) x.addr))
    match met.find? (fun m => match m.2 with
        | .bad .. => true
        | .ok (.loc _ _) => false
        | .ok _ => true
        | _ => false) with
    | some (x, .bad _ c _) => { e with cause := c, lanes := oneLane x.lane, faddr := x.addr, unfinished := none }
    | some (x, _) => { e with cause := 0x0A, lanes := oneLane x.lane, faddr := x.addr, unfinished := none }
    | none =>
      let got := met.filterMap (fun m => match m.2 with
        | .ok (.loc sp o) => some (m.1.lane, w32 (extTo a.ty 32 (readNat s sp o (elemSize a))), isPoison s sp o)
        | _ => none)
      let left := (met.filter (fun m => match m.2 with | .ok _ => false | _ => true))
      { e with
        vals := got.foldl (fun l g => setAt l g.1 g.2.1) e.vals,
        poison := got.foldl (fun m g => if g.2.2 then m ||| oneLane g.1 else m) e.poison,
        lanes := maskOf (left.map (·.1.lane)),
        unfinished := if left.isEmpty then none else some ({ a with elems := left.map (·.1) }, (firstStop left).getD f) }

/-- Whether a wave is parked by a pop, for an entry whose loads are unfinished (R263). -/
def popParked (s : State) (v : Wave) : Bool :=
  match insAt s v v.ctl.pc with
  | some i => (qRegs i).any (fun q => match (v.queues[q]?).getD [] with | e :: _ => e.unfinished.isSome | [] => false)
  | none => false

/-- A parked wave that REPLAY lets execute its instruction again (R58, R161), for its unfinished lanes; the loads of an entry that has parked a pop
are finished, and the pop then completes for every lane (R263). One whose scope is cancelled never leaves its park (R35). -/
def replayWave (s : State) (v : Wave) : State :=
  if killDue s v then s
  else
  let v1 := { v with
    queues := v.queues.map (fun q => match q with | e :: r => finishEntry s v e :: r | [] => []),
    ctl := { v.ctl with st := .ready, wait := .idle, park := none, again := true, only := if popParked s v then none else v.ctl.only } }
  modCtx (putWave s v1) v.ctx (fun c => { c with records := c.records.filter (fun x => x != v.id) })

/-- The effect of REPLAY (R161). -/
def replayBody (w : GenW) (s : State) (v : Wave) : Out × W64 :=
  let tok := scalarOp s v w.hdr.lit w.a
  match s.waves.find? (fun x => x.ctx == v.ctx && x.ctl.st == .parked && !killDue s x && (match x.ctl.park with | some p => p.token == tok | none => false)) with
  | some x => (.done (replayWave s x), 0)
  | none => (.done s, 1)

/-- REPLAY (R161). -/
def execReplay (w : GenW) (s : State) : Host.Outcome State Fault Refusal := issueScalar (.replay w) w.hdr w.dst s (replayBody w)

/-- NOPRE (R65, R162): it opens a region, and has no effect inside one. -/
def execNopre (w : GenW) (s : State) : Host.Outcome State Fault Refusal :=
  issue (.nopre w) s (fun s v => .done (putWave s { v with ctl := { v.ctl with nopre := some (v.ctl.nopre.getD s.ns) } }))

/-- PRE (R65, R162). -/
def execPre (w : GenW) (s : State) : Host.Outcome State Fault Refusal :=
  issue (.pre w) s (fun s v => .done (putWave s { v with ctl := { v.ctl with nopre := none } }))

/-! ### Records read at issue (R58, R242) -/

/-- Whether a record may not lie at an address (R242): in the cluster shelf (log 96), or on a page with aperture 1, 2 or 3. -/
def recBarred (s : State) (v : Wave) (a : W64) : Bool :=
  match aperOf a with
  | .cshelf _ _ => true
  | .global =>
    let c := getCtx s v.ctx
    (match translate s c.asid c.ptroot a.toNat false with
      | .leaf e => leafAper e.leaf.toNat != 0
      | _ => false)
  | _ => false

/-- Eight bytes that a wave reads at issue at a place of this device; poison there is consumed as a scalar-form read consumes it (R332, R342,
log 96). -/
def readRec (s : State) (v : Wave) (sp : Space) (o : Nat) : Except Out (List Byte) :=
  let no := forbidden s v.core sp o
  if no || isPoison s sp o then
    .error (.done (modWave (if no then noteForbidden s v.core o else s) v.id (fun w => { w with hz := { w.hz with machineCheck := true } })))
  else .ok (memGets (getMem s sp) o 8)

/-- One 8-byte part of a record that an instruction reads at issue (R58, R242). -/
def recPart (s : State) (v : Wave) (a : W64) : Except Out (List Byte) :=
  if recBarred s v a then .error (.trap s (preciseAt 0x0A a))
  else match placeAt s v .load 8 a with
    | .error o => .error o
    | .ok (.loc sp o) => readRec s v sp o
    | .ok _ => .error (.trap s (preciseAt 0x0A a))

/-- The parts of a record in ascending order. -/
def recParts (s : State) (v : Wave) (a : W64) : Nat → Except Out (List Byte)
  | 0 => .ok []
  | n + 1 => match recPart s v a with
    | .error o => .error o
    | .ok l => match recParts s v (a + 8) n with
      | .error o => .error o
      | .ok r => .ok (l ++ r)

/-- A record of `n` 8-byte parts with an alignment. -/
def recAt (s : State) (v : Wave) (a : W64) (align n : Nat) : Except Out (List Byte) :=
  if a.toNat % align ≠ 0 then .error (.trap s (preciseAt 0x08 a)) else recParts s v a n

/-- The read of a record on a peer, as an access. -/
def peerRead (a : W64) (p : BitVec 9) (n : Nat) : Access :=
  { oneAccess .load .relaxed a (.peer p) with
    elems := (List.range n).map (fun i => { lane := 0, piece := i, addr := a + w64 (8 * i), site := .peer p, data := 0, cmp := 0 }) }

/-- A record of `n` parts on a peer: a packet reads it, and the instruction stalls at issue until the answer is there; a failure of the read
is raised precisely (log 96). -/
def peerRecAt (s : State) (v : Wave) (p : BitVec 9) (a : W64) (n : Nat) : Except Out (List Byte) :=
  let bad (c : Nat) : Except Out (List Byte) := .error (.trap s { preciseAt c a with peer := peerWord s p.toNat })
  match v.ctl.peerRec.filter (·.addr == a) with
  | some { fail := some c, .. } => bad c
  | some { got := some l, .. } => .ok (l.flatMap (fun x => natToBytes 8 x.toNat))
  | some _ => .error (.stay s .stall)
  | none =>
    if portShut s v.core then
      .error (.done (modWave (noteForbidden s v.core a.toNat) v.id (fun w => { w with hz := { w.hz with machineCheck := true } })))
    else if !peerUp s p.toNat then bad 0x11
    else if coreRoom s v.core (peerRead a p n) && packetRoom s (peerRead a p n) (getCtx s v.ctx).asid none then
      .error (.stay (sendAll (modWave s v.id (fun w => { w with ctl := { w.ctl with peerRec := some { addr := a, got := none, fail := none } } }))
        (peerRead a p n) (getCtx s v.ctx).asid none (.reader v.id) false) .stall)
    else .error (.stay s .stall)

/-- A record of `n` parts at any generic address (R238), read in ascending order: over a link at once, a refusal raised precisely (R309, log 96),
from a peer by a packet. -/
def anyRecAt (s : State) (v : Wave) (a : W64) (align n : Nat) : Except Out (List Byte) :=
  if a.toNat % align ≠ 0 then .error (.trap s (preciseAt 0x08 a))
  else (List.range n).foldl (fun (b : Except Out (List Byte)) i => match b with
    | .error o => .error o
    | .ok l => match placeAt s v .load 8 (a + w64 (8 * i)) with
      | .error o => .error o
      | .ok (.loc sp o) | .ok (.link sp o) =>
        if linkRefuses s sp o 8 then .error (.trap s (preciseAt 0x10 (a + w64 (8 * i)))) else (readRec s v sp o).map (l ++ ·)
      | .ok (.peer p) => if i = 0 then peerRecAt s v p a n else .ok l
      | .ok .nowhere => .error (.trap s (preciseAt 0x10 a))) (.ok [])

/-! ### Flashback points (R59, R163) -/

/-- Whether a .flash entry is one that MARK accepts: no reserved byte set, no register at or above the wave's count, and a recipe offset that is a
multiple of 64 (log 103). -/
def flashOk (cnt : Nat) (l : List Byte) : Bool :=
  fld l 0x30 16 == 0 && fld l 0x24 4 == 0 && fld l 0x2C 4 % 64 == 0
    && (l.take 16).all (fun b => b == 0xFF || decide (b.toNat < cnt))

/-- The flashback point that a MARK records: its id, the program counter after it, the loop stack with its counters, the generator's
key and counter (R203), and the entries popped (R264). -/
def flashOf (v : Wave) (id : Nat) (i : Instr) : Flash :=
  let (v1, pc, _) := loopEnds 5 v (nextPc v.ctl.pc (hasLit i))
  { id := id, pc := pc, loops := v1.ctl.loops, counters := v1.ctl.loops.map (fun e => (e.reg, sreg v1 e.reg)), key := v.regs.key,
    ctr := v.regs.ctr, pops := v.pops }

/-- Whether a MARK is the entry of an idempotent region of its kernel (R64). -/
def enterIdem (s : State) (v : Wave) (f : Flash) : Option (Flash × W64 × Bool) :=
  let k := (getTeam s v.team).kernel
  if s.regions.any (fun r => r.1 == k.exec && r.2.1 == v.ctl.pc) then some (f, v.ctl.pc, true) else v.ctl.idem

/-- The effect of MARK (R59, R163). -/
def markBody (w : GenW) (s : State) (v : Wave) : Out :=
  let k := (getTeam s v.team).kernel
  match markId w with
  | none => .trap s (precise 0x01)
  | some id =>
    if k.flash = 0 ∨ k.flashN ≤ id then .trap s (precise 0x01)
    else match recAt s v (k.flash + w64 (64 * id)) 1 8 with
      | .error o => o
      | .ok l =>
        if !flashOk v.regs.cnt l then .trap s (precise 0x01)
        else
          let f := flashOf v id (.mark w)
          .done (putWave s { v with ctl := { v.ctl with flash := some f, idem := enterIdem s v f } })

/-- MARK (R163). -/
def execMark (w : GenW) (s : State) : Host.Outcome State Fault Refusal := issue (.mark w) s (markBody w)

end Sys2Proof.Machine
end

