-- ==== Sys2Proof/Machine/Access.lean ====
section
/-! DEFINITION. The access slice (R262 to R268, R286): loops, strided loads into the operand queues, prefetches, and the address
registers. In a wave's own code these opcodes raise 0x01 (R137). -/

namespace Sys2Proof.Machine

/-- An instruction of an access slice: its effect when a slice issues it, 0x01 in a wave's own code (R137). -/
def sliceOp (i : Instr) (s : State) (f : State → Wave → State) : Host.Outcome State Fault Refusal :=
  match s.cur with
  | .slice id => match findWave s id with
    | some v => .next (f s v)
    | none => .refused .noIssuer
  | _ => issue i s (fun s _ => .trap s (precise 0x01))

/-- The value of an operand of a slice: an address register, an immediate or the literal (R262). -/
def sliceVal (v : Wave) (lit : Option W64) : Operand → W64
  | .s n => (v.slice.a[n.toNat]?).getD 0
  | .imm i => i.signExtend 64
  | .lit => lit.getD 0
  | _ => 0

/-- A slice changed, its program counter at the next slot. -/
def sliceStep (s : State) (v : Wave) (i : Instr) (f : Slice → Slice) : State :=
  putWave s { v with slice := f { v.slice with pc := nextPc v.slice.pc (hasLit i) } }

/-- Whether a program counter of a slice lies past the end of its .access section, where the device's objects give that end (R262). -/
def pastAccess (s : State) (w : Wave) (pc : W64) : Bool :=
  s.accEnds.any (fun p => p.1 == (getTeam s w.team).kernel.access && decide (p.2.toNat ≤ pc.toNat))

/-- Where the search for the AEND of a skipped loop has come: the slot after it, or a slot that it has still to read, so deep inside. -/
inductive AendAt
  | found (pc : W64)
  | blocked (pc : W64) (depth : Nat)
  deriving DecidableEq, Repr

/-- The search for the AEND that matches an ALOOP by static nesting (R265): a slot that holds no instruction nests nothing. It stops at a slot
past the section's end or in a line that cannot be fetched now; `fuel` bounds the slots of one search. -/
def afterAend (s : State) (v : Wave) : Nat → Nat → W64 → AendAt
  | 0, depth, pc => .blocked pc depth
  | f + 1, depth, pc =>
    if pastAccess s v pc then .blocked pc depth
    else match fetchXlate s (getCtx s v.ctx) pc, slotIndex pc with
    | .ok e, some n =>
      let i := slotIns (lineBytes s v.core e pc) n
      let next := nextPc pc (match i with | some x => hasLit x | none => false)
      match i with
      | some (.aend _) => if depth = 0 then .found next else afterAend s v f (depth - 1) next
      | some (.aloop _) => afterAend s v f (depth + 1) next
      | _ => afterAend s v f depth next
    | _, _ => .blocked pc depth

/-- A slice that skips a loop from a slot on, as far as it can now. -/
def skipLoop (s : State) (v : Wave) (depth : Nat) (pc : W64) : State :=
  match afterAend s v 65536 depth pc with
  | .found p => putWave s { v with slice := { v.slice with pc := p, skip := none } }
  | .blocked p d => putWave s { v with slice := { v.slice with pc := p, skip := some d } }

/-- ALOOP (R265): a count above 2^32 − 1 or a fifth level is an illegal use; a count of 0 skips the loop. -/
def execAloop (w : GenW) (s : State) : Host.Outcome State Fault Refusal :=
  sliceOp (.aloop w) s (fun s v =>
    let n := (sliceVal v w.hdr.lit w.a).toNat
    let next := nextPc v.slice.pc (hasLit (.aloop w))
    if 2 ^ 32 ≤ n then sliceIllegal s v.id
    else if n = 0 then skipLoop s v 0 next
    else if 4 ≤ v.slice.loops.length then sliceIllegal s v.id
    else sliceStep s v (.aloop w) (fun x => { x with loops := { start := next, count := n, index := 0 } :: x.loops }))

/-- AEND (R265). -/
def execAend (w : GenW) (s : State) : Host.Outcome State Fault Refusal :=
  sliceOp (.aend w) s (fun s v => match v.slice.loops with
    | [] => sliceIllegal s v.id
    | l :: r =>
      if l.index + 1 < l.count then
        putWave s { v with slice := { v.slice with pc := l.start, loops := { l with index := l.index + 1 } :: r } }
      else sliceStep s v (.aend w) (fun x => { x with loops := r }))

/-- The elements of an ALD: one for each lane of k0 (R266). -/
def aldElems (v : Wave) (w : GenW) : List Elem :=
  let a := sliceVal v w.hdr.lit w.a
  let stride := sliceVal v w.hdr.lit w.b
  (lanes (kreg v 0) v.width).map (fun i =>
    { lane := i, piece := 0, addr := a + w64 i * stride, site := .nowhere, data := 0, cmp := 0 })

/-- What an element of an ALD meets: apertures 1, 2 and 3 fail with 0x0A. -/
def aldRes (s : State) (v : Wave) (n : Nat) (e : Elem) : Res :=
  match resolve s v .load .raw n e.addr with
  | .ok (.loc sp o) => .ok (.loc sp o)
  | .ok _ => .bad 53 0x0A none
  | .ats _ => .bad 53 0x0A none
  | .replay kind level en ea cause page => if kind = 0 then .replay kind level en ea cause page else .bad 53 0x0A none
  | r => r

/-- The entry that an ALD pushes: its elements, the first failed check, or a replayable fault with its unfinished lanes. -/
def aldEntry (s : State) (v : Wave) (w : GenW) : State × QEntry :=
  let n := tySize w.hdr.typ
  let met : List Met := (aldElems v w).map (fun e => (e, aldRes s v n e))
  let acc : Access := { kind := .load, ty := w.hdr.typ, order := .relaxed, scope := .w, wb := .none, vector := true, viaHandle := false, elems := [] }
  let zero := List.replicate v.width (0 : W32)
  match minRank met with
  | some r =>
    let t := checkTrap s acc met false r
    (s, { vals := zero, poison := 0, cause := t.cause, lanes := t.lanes, faddr := t.faddr, unfinished := none })
  | none =>
    let good := met.filterMap (fun m => match m.2 with | .ok st => some { m.1 with site := st } | _ => none)
    let left := met.filter (fun m => match m.2 with | .ok _ => false | _ => true)
    let (s1, got) := perform s v.core (getCtx s v.ctx) { acc with elems := good } false
    (s1, { vals := putElems zero (got.map (fun g => (g.lane, w32 (extTo w.hdr.typ 32 g.val.toNat)))), poison := poisonLanes got, cause := 0,
           lanes := maskOf (left.map (·.1.lane)), faddr := 0,
           unfinished := (firstStop left).map (fun f => ({ acc with elems := left.map (·.1) }, f)) })

/-- The queue that a DST names. -/
def qNum : Operand → Nat
  | .q n => n.toNat
  | _ => 0

/-- ALD (R266): an entry pushed; while the queue holds 8 entries, a lock entry is damaged (R333), or as many requests of its core are outstanding as
it may have (R8), the slice waits; an entry to be discarded after a restoration makes no access (R264). -/
def execAld (w : GenW) (s : State) : Host.Outcome State Fault Refusal :=
  sliceOp (.ald w) s (fun s v =>
    let q := qNum w.dst
    let d := (v.slice.discard[q]?).getD 0
    if 0 < d then sliceStep s v (.ald w) (fun x => { x with discard := setAt x.discard q (d - 1) })
    else if 8 ≤ ((v.queues[q]?).getD []).length ∨ locksDamaged s ∨ coreReqs ≤ coreOut s v.core then s
    else
      let (s1, e) := aldEntry s v w
      sliceStep s1 { v with queues := setAt v.queues q (((v.queues[q]?).getD []) ++ [e]) } (.ald w) id)

/-- APF (R266): as PRF, it changes no value that any access returns. -/
def execApf (w : GenW) (s : State) : Host.Outcome State Fault Refusal := sliceOp (.apf w) s (fun s v => sliceStep s v (.apf w) id)

/-- AADV (R267). -/
def execAadv (w : GenW) (s : State) : Host.Outcome State Fault Refusal :=
  sliceOp (.aadv w) s (fun s v =>
    let n := match w.dst with | .s x => x.toNat | _ => 0
    let b := sliceVal v w.hdr.lit w.b
    sliceStep s v (.aadv w) (fun x => { x with a := setAt x.a n (if w.opx = 0 then (x.a[n]?).getD 0 + b else b) }))

/-- AHALT (R268): entries already pushed stay. -/
def execAhalt (w : GenW) (s : State) : Host.Outcome State Fault Refusal :=
  sliceOp (.ahalt w) s (fun s v => putWave s { v with slice := { v.slice with stopped := true } })

end Sys2Proof.Machine
end

