-- ==== Sys2Proof/Machine/Scalar.lean ====
section
/-! DEFINITION. The scalar group (R164 to R169): each instruction on the low n bits of its sources, its result extended to 64 bits
(R101), its flags by the codes of R144. -/

namespace Sys2Proof.Machine

/-- A scalar source at full width (R101). -/
def src (s : State) (v : Wave) (w : GenW) (o : Operand) : Nat := (scalarOp s v w.hdr.lit o).toNat

/-- A value at n bits as its type reads it: signed for i, natural otherwise. -/
def ival (t : Ty) (x : Nat) : Int := if tyIsI t then signed x (tyWidth t) else ((x % 2 ^ tyWidth t : Nat) : Int)

/-- An exact result narrowed to a type: clamped with .sat, wrapped otherwise (R102). -/
def narrow (t : Ty) (sat : Bool) (x : Int) : Nat :=
  let n := tyWidth t
  wrapI (if sat then (if tyIsI t then satI x n else satN x n) else x) n

/-- The result of a scalar instruction, extended to 64 bits (R101), with new flags. -/
def sres (w : GenW) (r : Nat) (cc : W32) : Eff := { s := [(sNum w.dst, w64 (extTo w.hdr.typ 64 r))], cc := some cc }

/-- Whether an exact product, or product and sum, is not representable: in the signed range for i and b, in the natural range for n
(R164). -/
def mulOverflow (t : Ty) (x : Int) : Bool :=
  let n := tyWidth t
  if tyIsN t then satN x n != x else satI x n != x

/-- A value at n bits as a multiplication reads it: natural for n types, signed for i and b (R164). -/
def mval (t : Ty) (x : Nat) : Int := if tyIsN t then ((x % 2 ^ tyWidth t : Nat) : Int) else signed x (tyWidth t)

/-- Quotient, remainder and V of a division (R102). -/
def divRem (t : Ty) (a b : Nat) : Nat × Nat × Bool :=
  let n := tyWidth t
  let x := ival t a
  let y := ival t b
  if y = 0 then (0, a % 2 ^ n, true)
  else if tyIsI t ∧ x = -((2 ^ (n - 1) : Nat) : Int) ∧ y = -1 then (wrapI x n, 0, true)
  else (wrapI (x.tdiv y) n, wrapI (x.tmod y) n, false)

/-- The high half of a product (R102). -/
def mulHigh (t : Ty) (a b : Nat) : Nat := bits (wrapI (ival t a * ival t b) (2 * tyWidth t)) (tyWidth t) (tyWidth t)

/-- A left shift by a natural count (R102). -/
def shiftLeft (n a count : Nat) : Nat := if n ≤ count then 0 else a * 2 ^ count % 2 ^ n

/-- A right shift by a natural count: arithmetic for i types, logical otherwise (R102). -/
def shiftRight (t : Ty) (a count : Nat) : Nat :=
  let n := tyWidth t
  if tyIsI t then wrapI (signed a n / ((2 ^ min count n : Nat) : Int)) n else if n ≤ count then 0 else a % 2 ^ n / 2 ^ count

/-- The lesser of two values of a type, or the greater. -/
def pickLess (t : Ty) (greater : Bool) (a b : Nat) : Nat :=
  let less := decide (ival t a < ival t b)
  (if less != greater then a else b) % 2 ^ tyWidth t

/-- The width of the field that a control operand selects, cut at n, and its position (R169). -/
def fieldOf (n ctl : Nat) : Nat × Nat :=
  let pos := bits ctl 0 8
  let wid := bits ctl 8 8
  (pos, if wid = 0 ∨ n ≤ pos then 0 else min wid (n - pos))

/-- A field extracted (R169). -/
def fieldGet (t : Ty) (a ctl : Nat) : Nat :=
  let n := tyWidth t
  let (pos, w) := fieldOf n ctl
  if w = 0 then 0 else if tyIsI t then wrapI (signed (bits (a % 2 ^ n) pos w) w) n else bits (a % 2 ^ n) pos w

/-- A field replaced (R169). -/
def fieldPut (t : Ty) (a b ctl : Nat) : Nat :=
  let n := tyWidth t
  let (pos, w) := fieldOf n ctl
  if w = 0 then a % 2 ^ n else a % 2 ^ pos + 2 ^ pos * (b % 2 ^ w) + 2 ^ (pos + w) * (a % 2 ^ n / 2 ^ (pos + w))

/-- A scalar instruction of two sources whose flags are zn, with V as given. -/
def scalarZN (i : Instr) (w : GenW) (s : State) (f : Nat → Nat → Nat × Bool) : Host.Outcome State Fault Refusal :=
  issueEff i s (fun s v =>
    let (r, o) := f (src s v w w.a) (src s v w w.b)
    sres w r (ccZN v.regs.cc (tyWidth w.hdr.typ) r o))

/-- SMOV to a scalar register or to %cc (R166). -/
def execSmov (w : GenW) (s : State) : Host.Outcome State Fault Refusal :=
  issueR (.smov w) s (fun s v =>
    let a := src s v w w.a
    if w.dst = .sp .cc then
      if w.hdr.nwb then (.done s, some (.sca (w64 (extTo w.hdr.typ 64 a)))) else (.done (putWave s (setCC v (w32 a))), none)
    else writeOut s v (sres w (a % 2 ^ tyWidth w.hdr.typ) (ccZN v.regs.cc (tyWidth w.hdr.typ) a false)) w.hdr.nwb)

/-- SLI (R166). -/
def execSli (w : GenW) (s : State) : Host.Outcome State Fault Refusal :=
  issueEff (.sli w) s (fun s v => { s := [(sNum w.dst, scalarOp s v w.hdr.lit w.a)] })

/-- SADD (R164). -/
def execSadd (w : GenW) (s : State) : Host.Outcome State Fault Refusal :=
  issueEff (.sadd w) s (fun s v =>
    let a := src s v w w.a
    let b := src s v w w.b
    let r := narrow w.hdr.typ w.sat (ival w.hdr.typ a + ival w.hdr.typ b)
    sres w r (ccAdd v.regs.cc (tyWidth w.hdr.typ) a b r))

/-- SSUB (R164). -/
def execSsub (w : GenW) (s : State) : Host.Outcome State Fault Refusal :=
  issueEff (.ssub w) s (fun s v =>
    let a := src s v w w.a
    let b := src s v w w.b
    let r := narrow w.hdr.typ w.sat (ival w.hdr.typ a - ival w.hdr.typ b)
    sres w r (ccSub v.regs.cc (tyWidth w.hdr.typ) a b r))

/-- SMUL (R164). -/
def execSmul (w : GenW) (s : State) : Host.Outcome State Fault Refusal :=
  scalarZN (.smul w) w s (fun a b =>
    let x := mval w.hdr.typ a * mval w.hdr.typ b
    (narrow w.hdr.typ w.sat x, mulOverflow w.hdr.typ x))

/-- SMULH (R164). -/
def execSmulh (w : GenW) (s : State) : Host.Outcome State Fault Refusal :=
  scalarZN (.smulh w) w s (fun a b => (mulHigh w.hdr.typ a b, false))

/-- SMAD (R164). -/
def execSmad (w : GenW) (s : State) : Host.Outcome State Fault Refusal :=
  issueEff (.smad w) s (fun s v =>
    let t := w.hdr.typ
    let x := mval t (src s v w w.a) * mval t (src s v w w.b) + mval t (src s v w w.c)
    let r := narrow t w.sat x
    sres w r (ccZN v.regs.cc (tyWidth t) r (mulOverflow t x)))

/-- SDIV (R164). -/
def execSdiv (w : GenW) (s : State) : Host.Outcome State Fault Refusal :=
  scalarZN (.sdiv w) w s (fun a b => ((divRem w.hdr.typ a b).1, (divRem w.hdr.typ a b).2.2))

/-- SREM (R164). -/
def execSrem (w : GenW) (s : State) : Host.Outcome State Fault Refusal :=
  scalarZN (.srem w) w s (fun a b => ((divRem w.hdr.typ a b).2.1, (divRem w.hdr.typ a b).2.2))

/-- SAND (R164). -/
def execSand (w : GenW) (s : State) : Host.Outcome State Fault Refusal :=
  scalarZN (.sand w) w s (fun a b => ((a &&& b) % 2 ^ tyWidth w.hdr.typ, false))

/-- SOR (R164). -/
def execSor (w : GenW) (s : State) : Host.Outcome State Fault Refusal :=
  scalarZN (.sor w) w s (fun a b => ((a ||| b) % 2 ^ tyWidth w.hdr.typ, false))

/-- SXOR (R164). -/
def execSxor (w : GenW) (s : State) : Host.Outcome State Fault Refusal :=
  scalarZN (.sxor w) w s (fun a b => ((a ^^^ b) % 2 ^ tyWidth w.hdr.typ, false))

/-- SSHL (R164); the count is read at full width (R101). -/
def execSshl (w : GenW) (s : State) : Host.Outcome State Fault Refusal :=
  scalarZN (.sshl w) w s (fun a b => (shiftLeft (tyWidth w.hdr.typ) a b, false))

/-- SSHR (R164); the count is read at full width (R101). -/
def execSshr (w : GenW) (s : State) : Host.Outcome State Fault Refusal :=
  scalarZN (.sshr w) w s (fun a b => (shiftRight w.hdr.typ a b, false))

/-- SMIN (R164). -/
def execSmin (w : GenW) (s : State) : Host.Outcome State Fault Refusal :=
  scalarZN (.smin w) w s (fun a b => (pickLess w.hdr.typ false a b, false))

/-- SMAX (R164). -/
def execSmax (w : GenW) (s : State) : Host.Outcome State Fault Refusal :=
  scalarZN (.smax w) w s (fun a b => (pickLess w.hdr.typ true a b, false))

/-- SCMP (R165). -/
def execScmp (w : GenW) (s : State) : Host.Outcome State Fault Refusal :=
  issueEff (.scmp w) s (fun s v =>
    let a := src s v w w.a
    let b := src s v w w.b
    { cc := some (ccSub v.regs.cc (tyWidth w.hdr.typ) a b (narrow w.hdr.typ false ((a : Int) - b))) })

/-- STST (R165). -/
def execStst (w : GenW) (s : State) : Host.Outcome State Fault Refusal :=
  issueEff (.stst w) s (fun s v =>
    { cc := some (ccZN v.regs.cc (tyWidth w.hdr.typ) ((src s v w w.a &&& src s v w w.b) % 2 ^ tyWidth w.hdr.typ) false) })

/-- SSEL (R167). -/
def execSsel (w : GenW) (s : State) : Host.Outcome State Fault Refusal :=
  issueEff (.ssel w) s (fun s v =>
    let c := match guardOf w.opx.toNat with | some g => guardHolds g v.regs.cc | none => false
    { s := [(sNum w.dst, w64 (extTo w.hdr.typ 64 (src s v w (if c then w.a else w.b))))] })

/-- A count, zero-extended whatever the type, with its flags (R168). -/
def countRes (v : Wave) (w : GenW) (r : Nat) : Eff := { s := [(sNum w.dst, w64 r)], cc := some (ccZN v.regs.cc (tyWidth w.hdr.typ) r false) }

/-- SCLZ (R168). -/
def execSclz (w : GenW) (s : State) : Host.Outcome State Fault Refusal :=
  issueEff (.sclz w) s (fun s v => countRes v w (leadingZeros (tyWidth w.hdr.typ) (src s v w w.a)))

/-- SPOPC (R168). -/
def execSpopc (w : GenW) (s : State) : Host.Outcome State Fault Refusal :=
  issueEff (.spopc w) s (fun s v => countRes v w (popcount (tyWidth w.hdr.typ) (src s v w w.a)))

/-- SBFE (R169): the field is extended to 64 bits, then written under R101. -/
def execSbfe (w : GenW) (s : State) : Host.Outcome State Fault Refusal :=
  scalarZN (.sbfe w) w s (fun a b => (fieldGet w.hdr.typ a b, false))

/-- SBFI (R169). -/
def execSbfi (w : GenW) (s : State) : Host.Outcome State Fault Refusal :=
  issueEff (.sbfi w) s (fun s v =>
    let r := fieldPut w.hdr.typ (src s v w w.a) (src s v w w.b) (src s v w w.c)
    sres w r (ccZN v.regs.cc (tyWidth w.hdr.typ) r false))

end Sys2Proof.Machine
end

