-- ==== Sys2Proof/Machine/Mask.lean ====
section
/-! DEFINITION. The mask group (R170 to R173): whole mask registers, of which only the bits of lanes below W are ever set (R18). -/

namespace Sys2Proof.Machine

/-- A mask operand: a mask register or %dead as data. -/
def maskOpd (v : Wave) : Operand → Mask
  | .k n => kreg v n.toNat
  | .dead => v.regs.dead
  | _ => 0

/-- The mask register that an operand names. -/
def kNum : Operand → Nat
  | .k n => n.toNat
  | _ => 0

/-- A mask result, its bits at or above W discarded, with flag Z of the whole written mask (R144, R170). -/
def mres (v : Wave) (w : GenW) (m : Mask) : Eff :=
  let x := m &&& maskBelow v.width
  { k := [(kNum w.dst, x)], cc := some (ccZ v.regs.cc (x == 0)) }

/-- A scalar result of a mask instruction with flag Z. -/
def msres (v : Wave) (w : GenW) (x : Nat) (z : Bool) : Eff := { s := [(sNum w.dst, w64 x)], cc := some (ccZ v.regs.cc z) }

/-- KAND (R170). -/
def execKand (w : GenW) (s : State) : Host.Outcome State Fault Refusal :=
  issueEff (.kand w) s (fun _ v => mres v w (maskOpd v w.a &&& maskOpd v w.b))

/-- KOR (R170). -/
def execKor (w : GenW) (s : State) : Host.Outcome State Fault Refusal :=
  issueEff (.kor w) s (fun _ v => mres v w (maskOpd v w.a ||| maskOpd v w.b))

/-- KXOR (R170). -/
def execKxor (w : GenW) (s : State) : Host.Outcome State Fault Refusal :=
  issueEff (.kxor w) s (fun _ v => mres v w (maskOpd v w.a ^^^ maskOpd v w.b))

/-- KANDN (R170). -/
def execKandn (w : GenW) (s : State) : Host.Outcome State Fault Refusal :=
  issueEff (.kandn w) s (fun _ v => mres v w (maskOpd v w.a &&& ~~~ maskOpd v w.b))

/-- KMOV (R170). -/
def execKmov (w : GenW) (s : State) : Host.Outcome State Fault Refusal :=
  issueEff (.kmov w) s (fun _ v => mres v w (maskOpd v w.a))

/-- Word j of a mask. -/
def maskWord (m : Mask) (j : Nat) : Nat := bits m.toNat (32 * j) 32

/-- KSET (R171): one word of the mask, or a range of lanes. -/
def execKset (w : GenW) (s : State) : Host.Outcome State Fault Refusal :=
  issueEff (.kset w) s (fun s v =>
    let a := src s v w w.a
    let b := src s v w w.b
    let m : Mask :=
      if w.opx = 0 then
        let j := b % 32
        let old := kreg v (kNum w.dst)
        (old &&& ~~~ (BitVec.ofNat 1024 ((2 ^ 32 - 1) * 2 ^ (32 * j)))) ||| BitVec.ofNat 1024 (a % 2 ^ 32 * 2 ^ (32 * j))
      else maskBelow (min b v.width) &&& ~~~ maskBelow (min a v.width)
    mres v w m)

/-- KGET (R172). -/
def execKget (w : GenW) (s : State) : Host.Outcome State Fault Refusal :=
  issueEff (.kget w) s (fun s v =>
    let x := maskWord (maskOpd v w.a) (src s v w w.b % 32)
    msres v w x (x == 0))

/-- KPOPC (R173). -/
def execKpopc (w : GenW) (s : State) : Host.Outcome State Fault Refusal :=
  issueEff (.kpopc w) s (fun _ v => msres v w (maskCount (maskOpd v w.a)) (maskOpd v w.a == 0))

/-- The lowest set bit of a mask, below a width. -/
def firstLane (m : Mask) (width : Nat) : Option Nat := (List.range width).find? (fun i => m.getLsbD i)

/-- KFIRST (R173). -/
def execKfirst (w : GenW) (s : State) : Host.Outcome State Fault Refusal :=
  issueEff (.kfirst w) s (fun _ v =>
    msres v w (match firstLane (maskOpd v w.a) v.width with | some i => i | none => 2 ^ 64 - 1) (maskOpd v w.a == 0))

end Sys2Proof.Machine
end

