-- ==== Sys2Proof/Machine/VecInt.lean ====
section
/-! DEFINITION. The vector integer group (R174 to R184): an operation on every element of every lane of act, written at the width of
the type. -/

namespace Sys2Proof.Machine

/-- The lanes of act, in ascending order (R20). -/
def actLanes (v : Wave) (w : GenW) : List Nat := lanes (actOf v w.hdr.msk) v.width

/-- The lane word of a source. -/
def vword (s : State) (v : Wave) (w : GenW) (o : Operand) (lane : Nat) : Nat := laneWord s v w.hdr.lit w.hdr.typ o lane

/-- The first register of a vector destination. -/
def vNum : Operand → Nat
  | .v r => r.toNat
  | _ => 0

/-- Lane words written to a vector destination, a pair for a 64-bit type (R175). -/
def vres (d : Nat) (t : Ty) (l : List (Nat × Nat)) : Eff :=
  if tyWidth t = 64 then
    { v := [(d, l.map (fun p => (p.1, w32 p.2))), (d + 1, l.map (fun p => (p.1, w32 (p.2 / 2 ^ 32))))] }
  else { v := [(d, l.map (fun p => (p.1, w32 p.2)))] }

/-- A lane word whose element j is given by a function. -/
def eachElem (t : Ty) (f : Nat → Nat) : Nat := packElems (tyWidth t) ((List.range (subs t)).map f)

/-- A vector instruction that computes one lane word for each lane of act. -/
def vecLanes (i : Instr) (w : GenW) (s : State) (f : State → Wave → Nat → Nat) : Host.Outcome State Fault Refusal :=
  issueEff i s (fun s v => vres (vNum w.dst) w.hdr.typ ((actLanes v w).map (fun l => (l, f s v l))))

/-- A vector instruction of one source, element by element. -/
def vec1 (i : Instr) (w : GenW) (s : State) (f : Nat → Nat) : Host.Outcome State Fault Refusal :=
  vecLanes i w s (fun s v l =>
    let a := vword s v w w.a l
    eachElem w.hdr.typ (fun j => f (subElem (tyWidth w.hdr.typ) a j)))

/-- A vector instruction of two sources, element by element. -/
def vec2 (i : Instr) (w : GenW) (s : State) (f : Nat → Nat → Nat) : Host.Outcome State Fault Refusal :=
  vecLanes i w s (fun s v l =>
    let n := tyWidth w.hdr.typ
    let a := vword s v w w.a l
    let b := vword s v w w.b l
    eachElem w.hdr.typ (fun j => f (subElem n a j) (subElem n b j)))

/-- A vector instruction of three sources, element by element. -/
def vec3 (i : Instr) (w : GenW) (s : State) (f : Nat → Nat → Nat → Nat) : Host.Outcome State Fault Refusal :=
  vecLanes i w s (fun s v l =>
    let n := tyWidth w.hdr.typ
    let a := vword s v w w.a l
    let b := vword s v w w.b l
    let c := vword s v w w.c l
    eachElem w.hdr.typ (fun j => f (subElem n a j) (subElem n b j) (subElem n c j)))

/-- The shift count of a lane: bits 31:0 of the lane's element or word of B, or of a scalar; %lane counts as the scalar i (R178,
log 18). -/
def shiftCount (s : State) (v : Wave) (w : GenW) (lane : Nat) : Nat := laneWord s v w.hdr.lit .b32 w.b lane

/-- VMOV (R178). -/
def execVmov (w : GenW) (s : State) : Host.Outcome State Fault Refusal := vec1 (.vmov w) w s (fun a => a)

/-- VADD (R178). -/
def execVadd (w : GenW) (s : State) : Host.Outcome State Fault Refusal :=
  vec2 (.vadd w) w s (fun a b => narrow w.hdr.typ w.sat (ival w.hdr.typ a + ival w.hdr.typ b))

/-- VSUB (R178). -/
def execVsub (w : GenW) (s : State) : Host.Outcome State Fault Refusal :=
  vec2 (.vsub w) w s (fun a b => narrow w.hdr.typ w.sat (ival w.hdr.typ a - ival w.hdr.typ b))

/-- VMUL (R178). -/
def execVmul (w : GenW) (s : State) : Host.Outcome State Fault Refusal :=
  vec2 (.vmul w) w s (fun a b => narrow w.hdr.typ w.sat (ival w.hdr.typ a * ival w.hdr.typ b))

/-- VMULH (R178). -/
def execVmulh (w : GenW) (s : State) : Host.Outcome State Fault Refusal := vec2 (.vmulh w) w s (mulHigh w.hdr.typ)

/-- VMAD (R178). -/
def execVmad (w : GenW) (s : State) : Host.Outcome State Fault Refusal :=
  vec3 (.vmad w) w s (fun a b c => narrow w.hdr.typ w.sat (ival w.hdr.typ a * ival w.hdr.typ b + ival w.hdr.typ c))

/-- VAND (R178). -/
def execVand (w : GenW) (s : State) : Host.Outcome State Fault Refusal := vec2 (.vand w) w s (fun a b => a &&& b)

/-- VOR (R178). -/
def execVor (w : GenW) (s : State) : Host.Outcome State Fault Refusal := vec2 (.vor w) w s (fun a b => a ||| b)

/-- VXOR (R178). -/
def execVxor (w : GenW) (s : State) : Host.Outcome State Fault Refusal := vec2 (.vxor w) w s (fun a b => a ^^^ b)

/-- VSHL (R178). -/
def execVshl (w : GenW) (s : State) : Host.Outcome State Fault Refusal :=
  vecLanes (.vshl w) w s (fun s v l =>
    let n := tyWidth w.hdr.typ
    let a := vword s v w w.a l
    let k := shiftCount s v w l
    eachElem w.hdr.typ (fun j => shiftLeft n (subElem n a j) k))

/-- VSHR (R178). -/
def execVshr (w : GenW) (s : State) : Host.Outcome State Fault Refusal :=
  vecLanes (.vshr w) w s (fun s v l =>
    let n := tyWidth w.hdr.typ
    let a := vword s v w w.a l
    let k := shiftCount s v w l
    eachElem w.hdr.typ (fun j => shiftRight w.hdr.typ (subElem n a j) k))

/-- VMIN (R178). -/
def execVmin (w : GenW) (s : State) : Host.Outcome State Fault Refusal := vec2 (.vmin w) w s (pickLess w.hdr.typ false)

/-- VMAX (R178). -/
def execVmax (w : GenW) (s : State) : Host.Outcome State Fault Refusal := vec2 (.vmax w) w s (pickLess w.hdr.typ true)

/-- VABS (R179). -/
def execVabs (w : GenW) (s : State) : Host.Outcome State Fault Refusal :=
  vec1 (.vabs w) w s (fun a => narrow w.hdr.typ w.sat ((ival w.hdr.typ a).natAbs : Nat))

/-- VCLZ (R180). -/
def execVclz (w : GenW) (s : State) : Host.Outcome State Fault Refusal := vec1 (.vclz w) w s (leadingZeros (tyWidth w.hdr.typ))

/-- VPOPC (R180). -/
def execVpopc (w : GenW) (s : State) : Host.Outcome State Fault Refusal := vec1 (.vpopc w) w s (popcount (tyWidth w.hdr.typ))

/-- VBFE (R181); its control is bits 31:0 of the lane's element. -/
def execVbfe (w : GenW) (s : State) : Host.Outcome State Fault Refusal := vec2 (.vbfe w) w s (fieldGet w.hdr.typ)

/-- VBFI (R181). -/
def execVbfi (w : GenW) (s : State) : Host.Outcome State Fault Refusal := vec3 (.vbfi w) w s (fieldPut w.hdr.typ)

/-- VDP4 (R182). -/
def execVdp4 (w : GenW) (s : State) : Host.Outcome State Fault Refusal :=
  issueEff (.vdp4 w) s (fun s v =>
    let sum (l : Nat) : Int :=
      let a := laneWord s v w.hdr.lit w.hdr.typ w.a l
      let b := laneWord s v w.hdr.lit w.ty2 w.b l
      let c := laneWord s v w.hdr.lit .i32 w.c l
      (List.range 4).foldl (fun x j => x + ival w.hdr.typ (subElem 8 a j) * ival w.ty2 (subElem 8 b j)) (signed c 32)
    vres (vNum w.dst) .i32 ((actLanes v w).map (fun l => (l, narrow .i32 w.sat (sum l)))))

/-- PRED of VCMP on integers (R183): 0 eq, 1 ne, 2 lt, 3 le, 4 gt, 5 ge. -/
def intPred (t : Ty) (pred a b : Nat) : Bool :=
  let x := ival t a
  let y := ival t b
  match pred with
  | 0 => x == y
  | 1 => x != y
  | 2 => decide (x < y)
  | 3 => decide (x ≤ y)
  | 4 => decide (y < x)
  | _ => decide (y ≤ x)

/-- The mask that a vector compare writes (R183): a bit for each lane of act; the others are unchanged, or zero with .z. -/
def cmpMask (s : State) (v : Wave) (w : GenW) (p : Nat → Nat → Nat → Bool) : Mask :=
  let t := w.hdr.typ
  let n := tyWidth t
  let act := actOf v w.hdr.msk
  let bit (l : Nat) : Bool :=
    let a := vword s v w w.a l
    let b := vword s v w w.b l
    let q (j : Nat) : Bool := p (w.opx.toNat % 8) (subElem n a j) (subElem n b j)
    if bitAt w.opx.toNat 3 then (List.range (subs t)).any q else (List.range (subs t)).all q
  let new := maskOf ((actLanes v w).filter bit)
  let old : Mask := if bitAt w.opx.toNat 4 then 0 else kreg v (kNum w.dst) &&& ~~~ act
  new ||| old

/-- VCMP (R183). -/
def execVcmp (w : GenW) (s : State) : Host.Outcome State Fault Refusal :=
  issueEff (.vcmp w) s (fun s v => { k := [(kNum w.dst, cmpMask s v w (intPred w.hdr.typ))] })

/-- VSEL (R184). -/
def execVsel (w : GenW) (s : State) : Host.Outcome State Fault Refusal :=
  vecLanes (.vsel w) w s (fun s v l => vword s v w (if (maskOpd v w.c).getLsbD l then w.a else w.b) l)

end Sys2Proof.Machine
end

