-- ==== Sys2Proof/Machine/VecFloat.lean ====
section
/-! DEFINITION. The vector float group (R185 to R193): each element's exact result rounded once under the mode of RM, and conversions. -/

namespace Sys2Proof.Machine

/-- An element after the NEG and ABS modifiers of source k, which act on its sign bit (R109). -/
def signMod (w : GenW) (k : Nat) (f : Fmt) (x : Nat) : Nat :=
  let mag := x % 2 ^ (f.width - 1)
  let sg := !(w.abs.getLsbD k) && bitAt x (f.width - 1)
  withSign f (sg != w.neg.getLsbD k) mag

/-- The value of an element of source k. -/
def felem (w : GenW) (k : Nat) (x : Nat) : FVal := fval (fmtOf w.hdr.typ) (signMod w k (fmtOf w.hdr.typ) x)

/-- A float instruction of one source. -/
def vecF1 (i : Instr) (w : GenW) (s : State) (f : FVal → Nat) : Host.Outcome State Fault Refusal :=
  vec1 i w s (fun a => f (felem w 0 a))

/-- A float instruction of two sources. -/
def vecF2 (i : Instr) (w : GenW) (s : State) (f : FVal → FVal → Nat) : Host.Outcome State Fault Refusal :=
  vec2 i w s (fun a b => f (felem w 0 a) (felem w 1 b))

/-- VFADD (R185). -/
def execVfadd (w : GenW) (s : State) : Host.Outcome State Fault Refusal :=
  vecF2 (.vfadd w) w s (fun a b => roundTo (fmtOf w.hdr.typ) w.rm (fadd w.rm a b))

/-- VFSUB (R185). -/
def execVfsub (w : GenW) (s : State) : Host.Outcome State Fault Refusal :=
  vecF2 (.vfsub w) w s (fun a b => roundTo (fmtOf w.hdr.typ) w.rm (fadd w.rm a (fneg b)))

/-- VFMUL (R185). -/
def execVfmul (w : GenW) (s : State) : Host.Outcome State Fault Refusal :=
  vecF2 (.vfmul w) w s (fun a b => roundTo (fmtOf w.hdr.typ) w.rm (fmul a b))

/-- VFMA (R185). -/
def execVfma (w : GenW) (s : State) : Host.Outcome State Fault Refusal :=
  vec3 (.vfma w) w s (fun a b c => roundTo (fmtOf w.hdr.typ) w.rm (ffma w.rm (felem w 0 a) (felem w 1 b) (felem w 2 c)))

/-- VFMIN (R186). -/
def execVfmin (w : GenW) (s : State) : Host.Outcome State Fault Refusal :=
  vecF2 (.vfmin w) w s (fun a b => roundTo (fmtOf w.hdr.typ) .rn (fminmax false a b))

/-- VFMAX (R186). -/
def execVfmax (w : GenW) (s : State) : Host.Outcome State Fault Refusal :=
  vecF2 (.vfmax w) w s (fun a b => roundTo (fmtOf w.hdr.typ) .rn (fminmax true a b))

/-- PRED of VFCMP (R188): with a NaN every predicate is false but ne. -/
def floatPred (w : GenW) (pred a b : Nat) : Bool :=
  let x := felem w 0 a
  let y := felem w 1 b
  match pred with
  | 0 => feq x y
  | 1 => !feq x y
  | 2 => flt x y
  | 3 => flt x y || feq x y
  | 4 => flt y x
  | _ => flt y x || feq x y

/-- VFCMP (R188). -/
def execVfcmp (w : GenW) (s : State) : Host.Outcome State Fault Refusal :=
  issueEff (.vfcmp w) s (fun s v => { k := [(kNum w.dst, cmpMask s v w (floatPred w))] })

/-- VFCLASS (R189). -/
def execVfclass (w : GenW) (s : State) : Host.Outcome State Fault Refusal := vec1 (.vfclass w) w s (fclass (fmtOf w.hdr.typ))

/-- VRCP (R187). -/
def execVrcp (w : GenW) (s : State) : Host.Outcome State Fault Refusal := vecF1 (.vrcp w) w s (frcpTo (fmtOf w.hdr.typ) w.rm)

/-- VRSQ (R187). -/
def execVrsq (w : GenW) (s : State) : Host.Outcome State Fault Refusal := vecF1 (.vrsq w) w s (frsqTo (fmtOf w.hdr.typ) w.rm)

/-- VSQRT (R187). -/
def execVsqrt (w : GenW) (s : State) : Host.Outcome State Fault Refusal := vecF1 (.vsqrt w) w s (fsqrtTo (fmtOf w.hdr.typ) w.rm)

/-- VDIV (R185). -/
def execVdiv (w : GenW) (s : State) : Host.Outcome State Fault Refusal := vecF2 (.vdiv w) w s (fdivTo (fmtOf w.hdr.typ) w.rm)

/-- VEXP2 (R187). -/
def execVexp2 (w : GenW) (s : State) : Host.Outcome State Fault Refusal := vecF1 (.vexp2 w) w s (fexp2To (fmtOf w.hdr.typ) w.rm)

/-- VLOG2 (R187). -/
def execVlog2 (w : GenW) (s : State) : Host.Outcome State Fault Refusal := vecF1 (.vlog2 w) w s (flog2To (fmtOf w.hdr.typ) w.rm)

/-- VFRND (R190). -/
def execVfrnd (w : GenW) (s : State) : Host.Outcome State Fault Refusal := vecF1 (.vfrnd w) w s (frndTo (fmtOf w.hdr.typ) w.rm)

/-- The value that a conversion reads in an element of source k: of a float type, after NEG and ABS (R109, R176). -/
def cvtSrc (w : GenW) (k : Nat) (x : Nat) : FVal :=
  valOf w.ty2 (if tyIsFloat w.ty2 then signMod w k (fmtOf w.ty2) x else x)

/-- An element replaced in a lane word. -/
def putElem (n word j x : Nat) : Nat := word - 2 ^ (n * j) * subElem n word j + 2 ^ (n * j) * (x % 2 ^ n)

/-- VCVT (R191): one sub-element of the source converted into one of the destination; the others stay. -/
def execVcvt (w : GenW) (s : State) : Host.Outcome State Fault Refusal :=
  issueEff (.vcvt w) s (fun s v =>
    let t := w.hdr.typ
    let d := vNum w.dst
    let one (l : Nat) : Nat :=
      let a := laneWord s v w.hdr.lit w.ty2 w.a l
      let x := cvtTo t w.rm w.nan (cvtSrc w 0 (subElem (tyWidth w.ty2) a (w.opx.toNat % 4)))
      if 32 ≤ tyWidth t then x else putElem (tyWidth t) (vreg v d l).toNat (w.opx.toNat / 4 % 4) x
    vres d t ((actLanes v w).map (fun l => (l, one l))))

/-- VPACK (R192). -/
def execVpack (w : GenW) (s : State) : Host.Outcome State Fault Refusal :=
  issueEff (.vpack w) s (fun s v =>
    let t := w.hdr.typ
    let n := tyWidth t
    let d := vNum w.dst
    let h := if n = 8 then 2 * (w.opx.toNat % 2) else 0
    let cv (k : Nat) (o : Operand) (l : Nat) : Nat := cvtTo t w.rm w.nan (cvtSrc w k (laneWord s v w.hdr.lit w.ty2 o l % 2 ^ 32))
    let one (l : Nat) : Nat := putElem n (putElem n (vreg v d l).toNat h (cv 0 w.a l)) (h + 1) (cv 1 w.b l)
    vres d .b32 ((actLanes v w).map (fun l => (l, one l))))

/-- VUNPK (R193): two sub-elements into a register pair. -/
def execVunpk (w : GenW) (s : State) : Host.Outcome State Fault Refusal :=
  issueEff (.vunpk w) s (fun s v =>
    let n := tyWidth w.ty2
    let lo := if n = 8 then 2 * (w.opx.toNat % 2) else 0
    let d := vNum w.dst
    let cv (l j : Nat) : W32 :=
      w32 (cvtTo w.hdr.typ w.rm false (cvtSrc w 0 (subElem n (laneWord s v w.hdr.lit w.ty2 w.a l) j)))
    { v := [(d, (actLanes v w).map (fun l => (l, cv l lo))), (d + 1, (actLanes v w).map (fun l => (l, cv l (lo + 1))))] })

end Sys2Proof.Machine
end

