-- ==== Sys2Proof/Machine/Cross.lean ====
section
/-! DEFINITION. The cross-lane and data-shaping group (R194 to R206) and the bound registers (R207 to R209). -/

namespace Sys2Proof.Machine

/-- D of %cc set (R194). -/
def setD (cc : W32) (d : Bool) : W32 := if d then cc ||| 0x10 else cc

/-- The lane word that a cross-lane read of lane p gives (R194): zero for a dead lane and for one at or above W. -/
def crossRead (v : Wave) (f : Nat → Nat) (p : Nat) : Nat := if v.width ≤ p ∨ v.regs.dead.getLsbD p then 0 else f p

/-- Whether a cross-lane read of lane p sets D. -/
def crossDead (v : Wave) (p : Nat) : Bool := decide (p < v.width) && v.regs.dead.getLsbD p

/-- Whether a cross-lane read of lane p of a vector operand of `n` registers meets poison, so that the reading lane consumes it (R40, log 100). -/
def crossPoison (v : Wave) (o : Operand) (n p : Nat) : Bool :=
  match o with
  | .v r => decide (p < v.width) && !v.regs.dead.getLsbD p && regPoison v r.toNat n p
  | _ => false

/-- A cross-lane instruction: each lane of act reads one lane of A, or none. -/
def shuffle (i : Instr) (w : GenW) (s : State) (from_ : State → Wave → Nat → Option Nat) : Host.Outcome State Fault Refusal :=
  issueEff i s (fun s v =>
    let ls := actLanes v w
    let d := ls.any (fun l => match from_ s v l with | some p => crossDead v p | none => false)
    let e := vres (vNum w.dst) w.hdr.typ (ls.map (fun l => (l, match from_ s v l with
      | some p => crossRead v (vword s v w w.a) p
      | none => 0)))
    let dies := maskOf (ls.filter (fun l => match from_ s v l with | some p => crossPoison v w.a (regsOf w.hdr.typ) p | none => false))
    { e with cc := some (setD v.regs.cc d), dies := dies })

/-- VSHUF (R195). -/
def execVshuf (w : GenW) (s : State) : Host.Outcome State Fault Refusal :=
  shuffle (.vshuf w) w s (fun s v l => some (laneWord s v w.hdr.lit .b32 w.b l))

/-- VXSH (R196). -/
def execVxsh (w : GenW) (s : State) : Host.Outcome State Fault Refusal :=
  shuffle (.vxsh w) w s (fun s v l =>
    let d := src s v w w.b
    match w.opx.toNat with
    | 0 => some (l ^^^ d)
    | 1 => if l < d then none else some (l - d)
    | _ => some (l + d))

/-- VBCAST (R197). -/
def execVbcast (w : GenW) (s : State) : Host.Outcome State Fault Refusal :=
  shuffle (.vbcast w) w s (fun s v _ => some (src s v w w.b))

/-! ### Reductions and scans (R198) -/

/-- The operation of a reduction on two elements, the lower lane first: 0 add, 1 min, 2 max, 3 and, 4 or, 5 xor. -/
def redOp (t : Ty) (rm : Rm) (op a b : Nat) : Nat :=
  let f := fmtOf .f32
  match op with
  | 0 => if t = .f32 then roundTo f rm (fadd rm (fval f a) (fval f b)) else (a + b) % 2 ^ tyWidth t
  | 1 => if t = .f32 then roundTo f .rn (fminmax false (fval f a) (fval f b)) else pickLess t false a b
  | 2 => if t = .f32 then roundTo f .rn (fminmax true (fval f a) (fval f b)) else pickLess t true a b
  | 3 => a &&& b
  | 4 => a ||| b
  | _ => a ^^^ b

/-- The identity of a reduction. -/
def redIdent (t : Ty) (op : Nat) : Nat :=
  let n := tyWidth t
  match op with
  | 0 => if t = .f32 then 0x80000000 else 0
  | 1 => if t = .f32 then 0x7F800000 else if tyIsI t then 2 ^ (n - 1) - 1 else 2 ^ n - 1
  | 2 => if t = .f32 then 0xFF800000 else if tyIsI t then 2 ^ (n - 1) else 0
  | 3 => 2 ^ n - 1
  | _ => 0

/-- The fixed tree: at each level every element at or above d is combined with the one d below it. `fuel` bounds the levels. -/
def redTree (op : Nat → Nat → Nat) : Nat → Nat → List Nat → List Nat
  | 0, _, t => t
  | n + 1, d, t => if t.length ≤ d then t else redTree op n (2 * d) (t.take d ++ List.zipWith op t (t.drop d))

/-- The smallest power of two at or above a width. -/
def pow2Above (w : Nat) : Nat := if w ≤ 1 then 1 else 2 ^ (Nat.log2 (w - 1) + 1)

/-- The tree's result for a wave: elements of act, the identity elsewhere. -/
def redList (s : State) (v : Wave) (w : GenW) : List Nat :=
  let op := w.opx.toNat % 8
  let act := actOf v w.hdr.msk
  let t0 := (List.range (pow2Above v.width)).map (fun l =>
    if decide (l < v.width) && act.getLsbD l then vword s v w w.a l else redIdent w.hdr.typ op)
  redTree (redOp w.hdr.typ w.rm op) 11 1 t0

/-- A floating-point result, canonical when it is a NaN (R109, log 12). -/
def canonNan (t : Ty) (x : Nat) : Nat := if t = .f32 ∧ fval (fmtOf .f32) x = .nan then (fmtOf .f32).qnan else x

/-- VRED (R198). -/
def execVred (w : GenW) (s : State) : Host.Outcome State Fault Refusal :=
  issueEff (.vred w) s (fun s v =>
    let l := redList s v w
    { s := [(sNum w.dst, w64 (extTo w.hdr.typ 64 (canonNan w.hdr.typ ((l[l.length - 1]?).getD 0))))] })

/-- VSCAN (R198). -/
def execVscan (w : GenW) (s : State) : Host.Outcome State Fault Refusal :=
  issueEff (.vscan w) s (fun s v =>
    let t := redList s v w
    let excl := bitAt w.opx.toNat 3
    let get (l : Nat) : Nat := canonNan w.hdr.typ (
      if excl then (if l = 0 then redIdent w.hdr.typ (w.opx.toNat % 8) else (t[l - 1]?).getD 0) else (t[l]?).getD 0)
    vres (vNum w.dst) w.hdr.typ ((actLanes v w).map (fun l => (l, get l))))

/-! ### Compaction and its inverse, appending, votes (R199 to R202) -/

/-- VCOMP (R199). -/
def execVcomp (w : GenW) (s : State) : Host.Outcome State Fault Refusal :=
  issueEff (.vcomp w) s (fun s v =>
    let sel := lanes (maskOpd v w.b &&& kreg v 0 &&& ~~~ v.regs.dead) v.width
    let dst := actLanes v w
    let cnt := min sel.length dst.length
    let get (r : Nat) : Nat := if r < cnt then vword s v w w.a ((sel[r]?).getD 0) else 0
    let e := vres (vNum w.dst) w.hdr.typ ((List.range dst.length).map (fun r => ((dst[r]?).getD 0, get r)))
    { e with
      extra := [(sNum w.c, w64 cnt)],
      cc := some (withFlags v.regs.cc (cnt == 0) false false (decide (dst.length < sel.length))) })

/-- VEXPD (R200). -/
def execVexpd (w : GenW) (s : State) : Host.Outcome State Fault Refusal :=
  vecLanes (.vexpd w) w s (fun s v l =>
    let act := actOf v w.hdr.msk
    let sel := maskOpd v w.b &&& act
    if sel.getLsbD l then vword s v w w.a (((actLanes v w)[(lanes sel l).length]?).getD 0) else 0)

/-- The counter access of VAPND: an atomic addition of m (R201). -/
def apndAccess (a : W64) (m : Nat) : Access :=
  { kind := .atom .add, ty := .n32, order := .relaxed, scope := match aperOf a with | .cshelf _ _ => .c | _ => .t, wb := .none,
    vector := false, viaHandle := false,
    elems := [{ lane := 0, piece := 0, addr := a, site := .nowhere, data := w64 m, cmp := 0 }] }

/-- VAPND when it selects lanes: the checks of its counter, the addition and its results (R201). -/
def apndGo (w : GenW) (s : State) (v : Wave) (sel : List Nat) : Out × Option Latch :=
  let a := scalarOp s v w.hdr.lit w.a
  let acc := apndAccess a sel.length
  let shelf := match aperOf a with | .shelf _ | .cshelf _ _ => true | _ => false
  if a.toNat % 4 ≠ 0 then (.trap s (preciseAt 0x08 a), none)
  else if !shelf then (.trap s (preciseAt 0x09 a), none)
  else match placeAt s v (.atom .add) 4 a with
    | .error o => (o, none)
    | .ok st =>
      if locksDamaged s then (.stay s .stall, none)
      else match commitAccess s v (opRecOf s v (.vapnd w)) { acc with elems := acc.elems.map (fun e => { e with site := st }) } {} false false, st with
        | .done s1, .loc sp o =>
          let base := readNat s sp o 4
          match findWave s1 v.id with
          | none => (.done s1, none)
          | some v1 =>
            if isPoison s sp o then (.done s1, none)
            else
              let e := vres (vNum w.dst) .n32 ((List.range sel.length).map (fun r => ((sel[r]?).getD 0, (base + r) % 2 ^ 32)))
              writeOut s1 v1 { e with extra := [(sNum w.c, w64 base)], cc := some (ccZ v.regs.cc false) } w.hdr.nwb
        | o, _ => (o, none)

/-- VAPND (R201). -/
def execVapnd (w : GenW) (s : State) : Host.Outcome State Fault Refusal :=
  issueR (.vapnd w) s (fun s v =>
    let sel := lanes (maskOpd v w.b &&& actOf v w.hdr.msk) v.width
    if sel.isEmpty then
      writeOut s v { v := [(vNum w.dst, [])], extra := [(sNum w.c, 0)], cc := some (ccZ v.regs.cc true) } w.hdr.nwb
    else apndGo w s v sel)

/-- VVOTE (R202). -/
def execVvote (w : GenW) (s : State) : Host.Outcome State Fault Refusal :=
  issueEff (.vvote w) s (fun s v =>
    let xs := (actLanes v w).map (fun l => vword s v w w.a l)
    let r : Bool := match w.opx.toNat with
      | 0 => xs.any (· != 0)
      | 1 => xs.all (· != 0)
      | _ => match xs with | [] => true | x :: r => r.all (· == x)
    { s := [(sNum w.dst, w64 (b2n r))], cc := some (ccZ v.regs.cc (!r)) })

/-! ### The generator (R203 to R205) -/

/-- The number that the generator gives a lane (R204). -/
def randOf (key ctr : W64) (width lane : Nat) : W32 :=
  let z0 : W64 := key ^^^ w64 (ctr.toNat * width + lane)
  let z1 := (z0 ^^^ (z0 >>> 30)) * 0xBF58476D1CE4E5B9
  let z2 := (z1 ^^^ (z1 >>> 27)) * 0x94D049BB133111EB
  (z2 ^^^ (z2 >>> 31)).setWidth 32

/-- VRAND (R204). -/
def execVrand (w : GenW) (s : State) : Host.Outcome State Fault Refusal :=
  issueR (.vrand w) s (fun s v =>
    let e : Eff := { v := [(vNum w.dst, (actLanes v w).map (fun l => (l, randOf v.regs.key v.regs.ctr v.width l)))] }
    writeOut s { v with regs := { v.regs with ctr := v.regs.ctr + 1 } } e w.hdr.nwb)

/-- VRSEED (R205). -/
def execVrseed (w : GenW) (s : State) : Host.Outcome State Fault Refusal :=
  issue (.vrseed w) s (fun s v =>
    .done (putWave s { v with regs := { v.regs with key := scalarOp s v w.hdr.lit w.a, ctr := scalarOp s v w.hdr.lit w.b } }))

/-! ### Scaling (R206) -/

/-- VSCA (R206): the lanes of a vector scale are read across lanes. %lane and a bypass latch, whatever its producer wrote, count as vectors: the
model's choice (log 18). -/
def execVsca (w : GenW) (s : State) : Host.Outcome State Fault Refusal :=
  issueEff (.vsca w) s (fun s v =>
    let t := w.hdr.typ
    let n := tyWidth t
    let f32 := fmtOf .f32
    let g := 2 ^ w.opx.toNat
    let vecB := isVec w.b || w.b == .sp .lane
    let bw (l : Nat) : Nat := laneWord s v w.hdr.lit .f32 w.b l
    let scale (l : Nat) : FVal := fval f32 (signMod w 1 f32 (if vecB then crossRead v bw (l / g) else bw l))
    let one (l : Nat) : Nat :=
      let a := vword s v w w.a l
      let c := vword s v w w.c l
      eachElem t (fun j => roundTo (fmtOf t) w.rm (ffma w.rm (felem w 0 (subElem n a j)) (scale l) (felem w 2 (subElem n c j))))
    let ls := actLanes v w
    let e := vres (vNum w.dst) t (ls.map (fun l => (l, one l)))
    { e with
      cc := some (setD v.regs.cc (vecB && ls.any (fun l => crossDead v (l / g)))),
      dies := maskOf (ls.filter (fun l => crossPoison v w.b 1 (l / g))) })

/-! ### Bound registers (R207 to R209) -/

/-- A bound of BSET: bits n - 1:0 of the operand, an immediate converted exactly to FMT. -/
def boundVal (s : State) (v : Wave) (w : GenW) (o : Operand) : Nat :=
  match o with
  | .imm i => immTo w.hdr.typ i.toInt
  | o => src s v w o % 2 ^ tyWidth w.hdr.typ

/-- BSET (R208). -/
def execBset (w : GenW) (s : State) : Host.Outcome State Fault Refusal :=
  issue (.bset w) s (fun s v =>
    let t := w.hdr.typ
    let lo := boundVal s v w w.a
    let hi := boundVal s v w w.b
    if valOf t lo = .nan ∨ valOf t hi = .nan ∨ flt (valOf t hi) (valOf t lo) then .trap s (precise 0x01)
    else
      let b : Bound := { fmt := t, act := tyCode w.ty2, mn := w32 lo, mx := w32 hi }
      .done (modTeam s v.team (fun x => { x with bounds := setAt x.bounds (w.opx.toNat % 16) b })))

/-- BMAP (R209). -/
def execBmap (w : GenW) (s : State) : Host.Outcome State Fault Refusal :=
  issue (.bmap w) s (fun s v =>
    let f := vNum w.a
    let n := src s v w w.b
    if 256 < f + n then .trap s (precise 0x01)
    else
      let keep := v.regs.bmap.filter (fun p => p.1 < f || f + n ≤ p.1)
      let new := if bitAt w.opx.toNat 4 then [] else (List.range n).map (fun k => (f + k, w.opx.toNat % 16))
      .done (putWave s { v with regs := { v.regs with bmap := keep ++ new } }))

end Sys2Proof.Machine
end

