-- ==== Sys2Proof/Machine/Memory.lean ====
section
/-! DEFINITION. The memory group (R219 to R233): the address of every lane, loads and stores, blocks, atomics, compare and swap,
fragments, FENCE, PRF, and the instructions of the managed heap. -/

namespace Sys2Proof.Machine

/-! ### Addresses (R93, R221) -/

/-- The index of a lane: of a vector class bits 31:0 of its element, sign-extended; else the scalar (R221). -/
def memIndex (s : State) (v : Wave) (h : Hdr) (o : Operand) (lane : Nat) : Int :=
  if isVec o then signed (laneWord s v h.lit .b32 o lane) 32 else (scalarOp s v h.lit o).toInt

/-- The address of a lane (R221). -/
def memAddr (base : W64) (idx : Int) (sx : Bool) (size : Nat) (disp : Int) : W64 :=
  base + BitVec.ofInt 64 (idx * (if sx then (size : Int) else 1) + disp * size)

/-- The handle of a base that its access has brought up to date (R93), written once the access is made. -/
def keepHandle (id r : Nat) (upd : Option Handle) (o : Out) : Out :=
  match upd with
  | none => o
  | some h => match o with
    | .done s => .done (modWave s id (fun x => setH x r (some h)))
    | .park s p m => .park (modWave s id (fun x => setH x r (some h))) p m
    | o => o

/-- An access made from a base operand: an address, or a handle under R93. -/
def withBase (s : State) (v : Wave) (h : Hdr) (a : Operand) (store : Bool) (k : W64 → Via → Out) : Out :=
  match a with
  | .h n => match useHandle s v (hreg v n.toNat) store with
    | .stall => .stay s .stall
    | .null => k 0 .null
    | .bad => k (match hreg v n.toNat with | some x => x.base | none => 0) .badHandle
    | .base b lo hi upd => keepHandle v.id n.toNat upd (k b (.handle lo hi))
  | a => k (scalarOp s v h.lit a) .raw

/-! ### Lazy reads (R130) -/

/-- The data operand of a store that is read lazily: its registers as they stand, and whether it is one of another kind, a special or a handle
register. -/
def lazySources (v : Wave) (n : Nat) (o : Operand) : Option (List (Nat × List W32) × List (Nat × W64) × Bool) :=
  match o with
  | .v r => some ((List.range n).map (fun k => (r.toNat + k, (v.regs.v[r.toNat + k]?).getD [])), [], false)
  | .s r => some ([], [(r.toNat, sreg v r.toNat)], false)
  | .sp _ | .h _ => some ([], [], true)
  | _ => none

/-- The lazy read of a store that claims a slot; sources that are no registers are read at issue. -/
def lazyOf (v : Wave) (i : Instr) (n : Nat) (o : Operand) : Option LazyRead :=
  let h := insHdr i
  if h.dsc = 0 then none
  else match lazySources v n o with
    | some (ov, os, whole) => some { slot := h.dsc.toNat, ins := i, oldV := ov, oldS := os, whole := whole, target := .held 0 }
    | none => none

/-! ### The shape of a memory instruction (R221, R222) -/

/-- What a memory instruction does: its operands, form, pieces per lane and results. -/
structure MemOp where
  hdr : Hdr
  a : Operand
  b : Operand
  disp : Int
  sx : Bool
  scope : Scp
  order : Order
  kind : AccKind
  wb : WriteBack
  vec : Bool
  pieces : Nat := 1
  cmp : Wave → Nat → W64 := fun _ _ => 0
  mode : StoreMode := {}

/-- The elements of a memory instruction from a base. -/
def memElems (s : State) (v : Wave) (i : Instr) (m : MemOp) (base : W64) : List Elem :=
  let n := tySize m.hdr.typ
  let ls := if m.vec then lanes (actOf v m.hdr.msk) v.width else [0]
  ls.flatMap (fun l =>
    let a := memAddr base (memIndex s v m.hdr m.b l) m.sx n m.disp
    (List.range m.pieces).map (fun p =>
      { lane := l, piece := p, addr := a + w64 (n * p), site := .nowhere, data := storeData s v i l p, cmp := m.cmp v l }))

/-- A memory instruction's effect. -/
def memBody (i : Instr) (m : MemOp) (s : State) (v : Wave) : Out :=
  withBase s v m.hdr m.a (kWrites m.kind) (fun base via =>
    let viaH := match via with | .raw => false | _ => true
    issueAccess s v (opRecOf s v i)
      { kind := m.kind, ty := m.hdr.typ, order := m.order, scope := m.scope, wb := m.wb, vector := m.vec, viaHandle := viaH,
        elems := memElems s v i m base } via m.mode)

/-- The destination of a load: a vector or a scalar register. -/
def loadDest (d : Operand) : WriteBack :=
  match d with
  | .v r => .vec r.toNat
  | .s r => .sca r.toNat
  | _ => .none

/-! ### Loads and stores (R223 to R225) -/

/-- LD as a memory operation. -/
def ldOp (w : MemW) : MemOp :=
  { hdr := w.hdr, a := w.a, b := w.b, disp := w.disp.toInt, sx := w.hdr.nwb, scope := w.scope, order := w.order, kind := .load,
    wb := loadDest w.dst, vec := isV w.dst }

/-- LD (R223). -/
def execLd (w : MemW) (s : State) : Host.Outcome State Fault Refusal := issue (.ld w) s (memBody (.ld w) (ldOp w))

/-- ST as a memory operation. -/
def stOp (w : MemW) (v : Wave) : MemOp :=
  { hdr := w.hdr, a := w.a, b := w.b, disp := w.disp.toInt, sx := w.hdr.nwb, scope := w.scope, order := w.order, kind := .store,
    wb := .none, vec := anyVec [w.b, w.c],
    mode := { hr := w.dst == .v 1, slot := lazyOf v (.st w) (regsOf w.hdr.typ) w.c } }

/-- ST (R224). -/
def execSt (w : MemW) (s : State) : Host.Outcome State Fault Refusal :=
  issue (.st w) s (fun s v => memBody (.st w) (stOp w v) s v)

/-- LDB as a memory operation: a block of 16 bytes for each lane. -/
def ldbOp (w : MemW) : MemOp :=
  { hdr := w.hdr, a := w.a, b := w.b, disp := w.disp.toInt, sx := w.hdr.nwb, scope := w.scope, order := w.order, kind := .load,
    wb := .block (vNum w.dst), vec := true, pieces := 16 / tySize w.hdr.typ, mode := { block := true } }

/-- LDB (R225). -/
def execLdb (w : MemW) (s : State) : Host.Outcome State Fault Refusal := issue (.ldb w) s (memBody (.ldb w) (ldbOp w))

/-- STB as a memory operation. -/
def stbOp (w : MemW) (v : Wave) : MemOp :=
  { hdr := w.hdr, a := w.a, b := w.b, disp := w.disp.toInt, sx := w.hdr.nwb, scope := w.scope, order := w.order, kind := .store,
    wb := .none, vec := true, pieces := 16 / tySize w.hdr.typ,
    mode := { hr := w.dst == .v 1, slot := lazyOf v (.stb w) 4 w.c, block := true } }

/-- STB (R225). -/
def execStb (w : MemW) (s : State) : Host.Outcome State Fault Refusal :=
  issue (.stb w) s (fun s v => memBody (.stb w) (stbOp w v) s v)

/-! ### Atomics (R226, R227) -/

/-- ATOM and ATOMR as memory operations. -/
def atomOp (w : AtomW) (wb : WriteBack) (vec : Bool) : MemOp :=
  { hdr := w.hdr, a := w.a, b := w.b, disp := w.disp.toInt, sx := w.hdr.nwb, scope := w.scope, order := w.order, kind := .atom w.aop,
    wb := wb, vec := vec }

/-- ATOM (R226). -/
def execAtom (w : AtomW) (s : State) : Host.Outcome State Fault Refusal :=
  issue (.atom w) s (memBody (.atom w) (atomOp w .none (anyVec [w.b, w.c])))

/-- ATOMR (R226). -/
def execAtomr (w : AtomW) (s : State) : Host.Outcome State Fault Refusal :=
  issue (.atomr w) s (memBody (.atomr w) (atomOp w (loadDest w.dst) (isV w.dst)))

/-- CAS as a memory operation: DST holds the expected value. -/
def casOp (w : MemW) : MemOp :=
  { hdr := w.hdr, a := w.a, b := w.b, disp := w.disp.toInt, sx := w.hdr.nwb, scope := w.scope, order := w.order, kind := .cas,
    wb := loadDest w.dst, vec := isV w.dst,
    cmp := fun v l => match w.dst with
      | .v r => w64 ((vreg v r.toNat l).toNat + 2 ^ 32 * (vreg v (r.toNat + 1) l).toNat)
      | .s r => sreg v r.toNat
      | _ => 0 }

/-- CAS (R227). -/
def execCas (w : MemW) (s : State) : Host.Outcome State Fault Refusal := issue (.cas w) s (memBody (.cas w) (casOp w))

/-! ### FENCE and PRF (R79, R80, R228, R229) -/

/-- Whether FENCE.S may end: stores whose data is still to be read, held stores, .hr stores released and not performed and, at .f and .s, failable
stores and atomics are none. -/
def fenceDone (v : Wave) (sc : Scp) : Bool :=
  let wide := sc == .f || sc == .s
  v.hz.held.isEmpty && !(v.hz.lazies.any (fun z => match z.target with | .store _ | .held _ => true | .packets _ => wide | .mma _ => false))
    && !(v.hz.slips.any (fun x => (x.hr || (wide && x.fenced)) && !x.ended))

/-- A wave past a FENCE: its later accesses follow the failable accesses issued before it, for which the FENCE does not wait (R75, R79). -/
def fenced (v : Wave) : Wave :=
  { v with hz := { v.hz with slips := v.hz.slips.map (fun x => match x.op with | .mem _ _ _ => { x with orders := true } | _ => x) } }

/-- The effect of FENCE (R79, R80): the accumulator is written, and cleared at .f and .s. -/
def fenceBody (w : MemW) (s : State) (v : Wave) : Out :=
  if fenceDone v w.scope then
    let v1 := setS v (sNum w.dst) (v.hz.facc.setWidth 64)
    let clear := w.scope == .f || w.scope == .s
    .done (putWave s (fenced { v1 with hz := { v1.hz with facc := if clear then 0 else v1.hz.facc } }))
  else .stay s .fence

/-- FENCE (R228). -/
def execFence (w : MemW) (s : State) : Host.Outcome State Fault Refusal := issue (.fence w) s (fenceBody w)

/-- PRF (R229): it changes no value that any access returns. -/
def execPrf (w : MemW) (s : State) : Host.Outcome State Fault Refusal := issue (.prf w) s (fun s _ => .done s)

/-! ### The managed heap (R230 to R233) -/

/-- The handle register that an operand names. -/
def hNum : Operand → Nat
  | .h n => n.toNat
  | _ => 0

/-- LDH as a memory operation. -/
def ldhOp (w : MemW) : MemOp :=
  { hdr := w.hdr, a := w.a, b := w.b, disp := w.disp.toInt, sx := w.hdr.nwb, scope := w.scope, order := w.order, kind := .load,
    wb := .handle (hNum w.dst), vec := false }

/-- LDH (R230). -/
def execLdh (w : MemW) (s : State) : Host.Outcome State Fault Refusal := issue (.ldh w) s (memBody (.ldh w) (ldhOp w))

/-- STH as a memory operation; it is a lazy reader (R130). -/
def sthOp (w : MemW) (v : Wave) : MemOp :=
  { hdr := w.hdr, a := w.a, b := w.b, disp := w.disp.toInt, sx := w.hdr.nwb, scope := w.scope, order := w.order, kind := .store,
    wb := .none, vec := false, mode := { slot := lazyOf v (.sth w) 1 w.c } }

/-- STH (R231). -/
def execSth (w : MemW) (s : State) : Host.Outcome State Fault Refusal :=
  issue (.sth w) s (fun s v => memBody (.sth w) (sthOp w v) s v)

/-- HMOV (R232): a handle copied, written as its reference word, or resolved from one. -/
def execHmov (w : GenW) (s : State) : Host.Outcome State Fault Refusal :=
  issueR (.hmov w) s (fun s v =>
    match w.opx.toNat with
    | 0 => writeOut s v { h := [(hNum w.dst, match w.a with | .h n => hreg v n.toNat | _ => none)] } w.hdr.nwb
    | 1 => writeOut s v { s := [(sNum w.dst, refWord (hreg v (hNum w.a)))] } w.hdr.nwb
    | _ => match resolveRef s v (scalarOp s v w.hdr.lit w.a) with
      | some q => writeOut s v { h := [(hNum w.dst, q.h)] } w.hdr.nwb
      | none => (.trap s (precise 0x0B), none))

/-- The count of a page in PMAP, with its address. -/
def pmapAt (d : HeapDesc) (page : Nat) : W64 := d.pmap + w64 (2 * ((page - d.rbase.toNat) / 4096))

/-- The pages that an object covers. -/
def objPages (base : W64) (size : Nat) : List Nat :=
  let lo := base.toNat / 4096
  let hi := (base.toNat + size - 1) / 4096
  (List.range (hi + 1 - lo)).map (fun k => (lo + k) * 4096)

/-- The pinned bit of the leaf of a page as the PMAP counts of the pages it maps give it, and the ASID's translations of the page
removed (R96). -/
def setPinned (s : State) (c : Ctx) (d : HeapDesc) (page : Nat) : State :=
  match walkFrom s c.asid page 5 c.ptroot.toNat with
  | .leaf e =>
    let any := (List.range (2 ^ (e.size - 12))).any (fun k =>
      let p := e.base + 4096 * k
      decide (d.rbase.toNat ≤ p) && decide (p < d.rbase.toNat + d.rsize.toNat) && ((ctxNat s c (pmapAt d p) 2).getD 0 != 0))
    let l := e.leaf.toNat
    let n := if any == leafPinned l then l else if any then l + 2 ^ 8 else l - 2 ^ 8
    let s1 := if n = l then s else writeRange s .hbm e.at_ (natToBytes 8 n)
    { s1 with tlb := s1.tlb.filter (fun x => !(x.asid == c.asid && decide (x.base < page + 4096) && decide (page < x.base + 2 ^ x.size))) }
  | _ => s

/-- The counts of an object's pages moved by one, up or down, with their leaves. -/
def countPages (s : State) (c : Ctx) (d : HeapDesc) (pages : List Nat) (up : Bool) : State :=
  pages.foldl (fun x p =>
    let n := (ctxNat x c (pmapAt d p) 2).getD 0
    setPinned (ctxPut x c (pmapAt d p) (natToBytes 2 (if up then n + 1 else n - 1))) c d p) s

/-- Whether a page that an object covers is not counted at all, so that UNPIN would take its PMAP count below zero (R96). -/
def pageEmpty (s : State) (c : Ctx) (d : HeapDesc) (pages : List Nat) : Bool :=
  pages.any (fun p => (ctxNat s c (pmapAt d p) 2).getD 0 == 0)

/-- Whether a page that an object covers is counted to the full, so that PIN would overflow its PMAP count (R96). -/
def pageFull (s : State) (c : Ctx) (d : HeapDesc) (pages : List Nat) : Bool :=
  pages.any (fun p => decide (65535 ≤ (ctxNat s c (pmapAt d p) 2).getD 0))

/-- The size of an object that the catalogue does not know, as PIN enters it: a multiple of 16 up to 2 MiB that the manual does not
state (R88, log 19). -/
def unknownSize (s : State) : Nat × State :=
  let (l, s1) := freeWords s 1
  (16 * (1 + ((l[0]?).getD 0).toNat % 131072), s1)

/-- The effect of PIN on a handle that is not null (R96). -/
def pinGo (w : GenW) (s : State) (v : Wave) (h : Handle) : Out × Option Latch :=
  match useHandle s v (some h) true, heapDesc s (getCtx s v.ctx) h.heap.toNat with
  | .stall, _ => (.stay s .stall, none)
  | .base b _ _ upd, some d =>
    let c := getCtx s v.ctx
    let moved := match upd with | some _ => (catLookup s c d h.base).map (·.size) | none => none
    let fin (s1 : State) : Out × Option Latch :=
      match findWave s1 v.id with
      | none => (.done s1, none)
      | some v1 =>
        let v2 := match upd with | some x => setH v1 (hNum w.a) (some x) | none => v1
        writeOut s1 v2 { s := [(sNum w.dst, b)] } w.hdr.nwb
    match catLookup s c d b with
    | some e =>
      if e.st = 2 then (.stay s .stall, none)
      else if 65535 ≤ e.pins ∨ pageFull s c d (objPages b e.size) then (.trap s (precise 0x0B), none)
      else fin (countPages (putCat s c { e with pins := e.pins + 1 }) c d (objPages b e.size) true)
    | none => match catFree s c d b with
      | none => (.trap s (precise 0x0B), none)
      | some e =>
        let (size, s1) := match moved with | some n => (n, s) | none => unknownSize s
        if pageFull s1 c d (objPages b size) then (.trap s (precise 0x0B), none)
        else fin (countPages (putCat s1 c { e with old := b, new := 0, size := size, pins := 1, st := 1, mcol := 0 }) c d (objPages b size) true)
  | _, _ => (.trap s (precise 0x0B), none)

/-- PIN (R233). -/
def execPin (w : GenW) (s : State) : Host.Outcome State Fault Refusal :=
  issueR (.pin w) s (fun s v => match hreg v (hNum w.a) with
    | none => (.trap s (precise 0x09), none)
    | some h => pinGo w s v h)

/-- The effect of UNPIN on a handle that is not null: each step of PIN reversed, an entry without pins freed (R96, log 19). -/
def unpinGo (s : State) (v : Wave) (h : Handle) : Out :=
  match useHandle s v (some h) false, heapDesc s (getCtx s v.ctx) h.heap.toNat with
  | .base b _ _ _, some d =>
    let c := getCtx s v.ctx
    match catLookup s c d b with
    | some e =>
      if e.pins = 0 ∨ pageEmpty s c d (objPages b e.size) then .trap s (precise 0x0B)
      else
        let e1 := { e with pins := e.pins - 1, st := if e.pins = 1 && e.st == 1 then 0 else e.st }
        .done (countPages (putCat s c e1) c d (objPages b e.size) false)
    | none => .trap s (precise 0x0B)
  | _, _ => .trap s (precise 0x0B)

/-- UNPIN (R233). -/
def execUnpin (w : GenW) (s : State) : Host.Outcome State Fault Refusal :=
  issue (.unpin w) s (fun s v => match hreg v (hNum w.a) with
    | none => .trap s (precise 0x09)
    | some h => unpinGo s v h)

end Sys2Proof.Machine
end

