-- ==== Sys2Proof/Machine/Async.lean ====
section
/-! DEFINITION. What the operations that fail later share (R43 to R46): taking a tag with a slip, the resolution of a slip, counters
that the device increments, and the watch that a change of a counter ends. -/

namespace Sys2Proof.Machine

/-- An operation of an instruction issued with a tag and a slip (R44, R46). -/
def newSlip (s : State) (v : Wave) (i : Instr) (op : SlipOp) : State :=
  let x : Slip := { tag := v.hz.tag, pc := v.ctl.pc, rcd := opRecOf s v i, lanes := actAtIssue v (opRecOf s v i), op := op,
                    orders := false, binds := v.regs.bmap, bounds := (getTeam s v.team).bounds, fenced := false, handler := v.hz.handler,
                    hr := false, held := false, openPark := false, fail := none, ended := false, delivered := false, desched := false }
  modWave s v.id (fun y => { y with hz := { y.hz with tag := y.hz.tag + 1, slips := y.hz.slips ++ [x] } })

/-- Whether a wave has room for one more slip (R46). -/
def slipRoom (v : Wave) : Bool := decide (v.hz.slips.length < 128)

/-- A slip that succeeds: it leaves the file, and the horizon advances. -/
def slipOk (s : State) (wid : Nat) (t : W32) : State := settleAll (modWave s wid (fun w => dropSlip w t)) wid

/-- A slip that fails with a cause, an address and a peer. -/
def slipFail (s : State) (wid : Nat) (t : W32) (cause : Nat) (a : W64) (lanesOf : Mask) (peer : W32 := 0) : State :=
  match findSlip s wid t with
  | some x => if x.ended then s else settleAll (failSlip s wid (addFail x cause a lanesOf peer)) wid
  | none => s

/-- The live context of an ASID, for accesses that the device makes for it (R319, R327). -/
def ctxOfAsid (s : State) (asid : Nat) : Option Ctx := s.ctxs.find? (fun c => c.asid == asid && decide (c.status < 2))

/-- A 64-bit value added at a resolved place by an atomic of the device. -/
def addAt (s : State) (c : Ctx) (a : W64) (sp : Space) (o x : Nat) : State :=
  dirtyAt (writeRange s sp o (natToBytes 8 ((readNat s sp o 8 + x) % 2 ^ 64))) c a

/-- A counter of a wave that the device increments by one with a release (R239, R243): a global one under its context's tables, one of
another aperture as the wave's own access finds it, but for range locks, which bind wave accesses (R86); one that has no place is lost. -/
def bumpCounter (s : State) (v : Wave) (a : W64) : State :=
  let c := getCtx s v.ctx
  if aperOf a = .global then bumpGlobal s c a false
  else match resolve { s with locks := [] } v (.atom .add) .raw 8 a with
    | .ok (.loc sp o) => addAt s c a sp o 1
    | _ => s

end Sys2Proof.Machine
end

