-- ==== Sys2Proof/Machine/Engine.lean ====
section
/-! DEFINITION. Engine operations at issue (R242 to R247, R288 to R296), batches (R244, R248, R249), and counters (R250, R251). -/

namespace Sys2Proof.Machine

/-! ### Records (R288 to R290, R294) -/

/-- A tensor layout record read from its 64 bytes; none where it breaks R288 or R290. -/
def layoutOf (l : List Byte) : Option Layout :=
  let rank := fld l 0 1
  let dims := (List.range 5).map (fun i => fld l (0x10 + 4 * i) 4)
  let strides := (List.range 4).map (fun i => fld l (0x24 + 4 * i) 4)
  let boxes := (List.range 5).map (fun i => fld l (0x34 + 2 * i) 2)
  let used (i : Nat) : Bool := decide (i < rank)
  match tyOf (fld l 1 1) with
  | none => none
  | some t =>
    let ok := decide (1 ≤ rank) && decide (rank ≤ 5) && decide (fld l 1 1 < 16) && fld l 2 2 == 0 && fld l 0x3E 2 == 0
      && (List.range 5).all (fun i =>
        (if used i then (dims[i]?).getD 0 != 0 && (boxes[i]?).getD 0 != 0 else (dims[i]?).getD 0 == 0 && (boxes[i]?).getD 0 == 0)
          && (i == 0 || used i || (strides[i - 1]?).getD 0 == 0))
      && decide ((boxes.take rank).foldl (· * ·) 1 ≤ 2 ^ 32)
    if !ok then none
    else
      let s0 := fld l 4 4
      let first : Int := if s0 = 0 then (tySize t : Int) else signed s0 32
      some { rank := rank, ty := t, base := w64 (fld l 8 8), dim := dims.take rank,
             stride := (first :: strides.map (fun x => signed x 32)).take rank, box := boxes.take rank }

/-- The elements of a record's box. -/
def boxCount (r : Layout) : Nat := r.box.foldl (· * ·) 1

/-- Whether BASE or a stride is not a multiple of the element size (R290). -/
def layoutSkew (r : Layout) : Bool :=
  let n := tySize r.ty
  r.base.toNat % n != 0 || r.stride.any (fun x => x % (n : Int) != 0)

/-- The coordinates of position k of a box, dimension 0 fastest (R289). -/
def coordOf : List Nat → Nat → List Nat
  | [], _ => []
  | b :: r, k => (k % b) :: coordOf r (k / b)

/-- Whether coordinates are in bounds. -/
def inDims (dim c : List Nat) : Bool := (List.zipWith (fun x d => decide (x < d)) c dim).all id

/-- The address of an element (R289). -/
def layoutAddr (r : Layout) (c : List Nat) : W64 :=
  r.base + BitVec.ofInt 64 ((List.zipWith (fun (x : Nat) (s : Int) => (x : Int) * s) c r.stride).foldl (· + ·) 0)

/-- The lowest and the highest byte, exclusive, of a record's in-bounds box elements, before any wrap (R85, R289). -/
def layoutSpan (r : Layout) : Int × Int :=
  let steps := List.zipWith (fun (n : Nat) (s : Int) => ((n : Int) - 1) * s) (List.zipWith min r.box r.dim) r.stride
  let b : Int := r.base.toNat
  (b + (steps.map (min 0)).foldl (· + ·) 0, b + (steps.map (max 0)).foldl (· + ·) 0 + tySize r.ty)

/-- Types that a chain command may use (R294). -/
def chainTy (t : Ty) : Bool := !tyIsB t && t != .i64 && t != .n64

/-- Whether an operation byte of a chain command is legal (R294 to R296). -/
def chainOpOk (src1 : Bool) (b : Nat) : Bool :=
  let op := b / 16
  let sel := b % 4
  bits b 2 2 == 0 && decide (op ≤ 11) && (if 6 ≤ op then sel == 3 else decide (sel ≤ 2) && (sel != 0 || src1))

/-- A chain-command descriptor; none where it breaks R294 or R296. -/
def chainDesc (l : List Byte) : Option Chain :=
  let nops := fld l 0x1F 1
  let ops := (List.range 8).map (fun i => fld l (0x20 + i) 1)
  let src1 := fld l 8 8 != 0
  match tyOf (fld l 0x1C 1), tyOf (fld l 0x1D 1), tyOf (fld l 0x1E 1) with
  | some t0, some t1, some td =>
    let ok := decide (1 ≤ fld l 0x18 4) && decide (fld l 0x18 4 ≤ 2 ^ 28) && decide (1 ≤ nops) && decide (nops ≤ 8)
      && decide (fld l 0x1C 1 < 16) && decide (fld l 0x1D 1 < 16) && decide (fld l 0x1E 1 < 16)
      && chainTy t0 && chainTy td && (if src1 then chainTy t1 else fld l 0x1D 1 == 0) && fld l 0x30 16 == 0
      && (ops.take nops).all (chainOpOk src1) && (ops.drop nops).all (· == 0)
    if ok then
      some { src0 := w64 (fld l 0 8), src1 := w64 (fld l 8 8), dst := w64 (fld l 0x10 8), count := fld l 0x18 4, t0 := t0, t1 := t1, td := td,
             ops := (ops.take nops).map (fun b => (b / 16, b % 4)), k0 := w32 (fld l 0x28 4), k1 := w32 (fld l 0x2C 4) }
    else none
  | _, _, _ => none

/-! ### Ranges and locks (R85) -/

/-- A range of an operation: its lock key and interval, or the cause of its precise trap (R245). -/
def rangeKey (s : State) (v : Wave) (lo hi : Int) : Except Nat (LockKey × Nat × Nat) :=
  let c := getCtx s v.ctx
  let n := (hi - lo).toNat
  if lo < 0 ∨ ((2 ^ 64 : Nat) : Int) < hi then .error 0x09
  else match aperOf (w64 lo.toNat) with
    | .global => if ((2 ^ 57 : Nat) : Int) < hi then .error 0x09 else .ok (.global c.asid, lo.toNat, hi.toNat)
    | .shelf off =>
      if 2 ^ 24 < off + n then .error 0x09
      else if off + n ≤ (getTeam s v.team).shelfSize then .ok (.shelf v.team, off, off + n) else .error 0x05
    | .cshelf r off => match rankTeam s v.ctx (clusterOf v.core) r with
      | none => .error 0x09
      | some t => if 2 ^ 24 < off + n then .error 0x09 else if off + n ≤ t.shelfSize then .ok (.shelf t.id, off, off + n) else .error 0x05
    | .annex off => match slotOfDie c (dieOf v.core) with
      | some d => if off + n ≤ c.annexSize then .ok (.annex v.ctx d, off, off + n) else .error 0x09
      | none => .error 0x09
    | .stack off => if off + n ≤ stackLimit v then .ok (.stack v.id, off, off + n) else .error 0x1A
    | .none => .error 0x09

/-- The lock indices that a die's table has free. -/
def freeLocks (s : State) (die : Nat) : List Nat :=
  (List.range 512).filter (fun i => !(s.locks.any (fun l => l.die == die && l.index == i)))

/-- A range to lock: key, interval, and whether reads are locked too. -/
abbrev Range := LockKey × Nat × Nat × Bool

/-- The entries of an operation registered, one for each range. -/
def addLocks (s : State) (die op : Nat) (rs : List Range) : State :=
  let idx := freeLocks s die
  let new := (List.range rs.length).filterMap (fun i => match rs[i]?, idx[i]? with
    | some (k, lo, hi, both), some j => some ({ die := die, index := j, key := k, lo := lo, hi := hi, both := both, op := op, damaged := false } : Lock)
    | _, _ => none)
  { s with locks := s.locks ++ new }

/-! ### The issue of an operation (R242, R243) -/

/-- The check of a completion block as a 16-byte write (R243). -/
def compCheck (s : State) (v : Wave) (a : W64) : Except Out Unit :=
  if a = 0 then .ok ()
  else if a.toNat % 16 ≠ 0 then .error (.trap s (preciseAt 0x08 a))
  else match placeAt s v .store 8 a with
    | .error o => .error o
    | .ok _ => match placeAt s v .store 8 (a + 8) with
      | .error o => .error o
      | .ok _ => .ok ()

/-- The value of an operand that holds an address, or 0. -/
def addrOpd (s : State) (v : Wave) (w : GenW) (o : Operand) : W64 := scalarOp s v w.hdr.lit o

/-- Operations of a die's copy engines, or of a cluster's chain unit. -/
def unitOps (s : State) (chain : Bool) (core : Nat) : List EngOp :=
  s.ops.filter (fun o => match o.kind with
    | .chain _ => chain && clusterOf o.core == clusterOf core
    | _ => !chain && o.die == dieOf core)

/-- Whether the queue of the unit has room (R292, R296). -/
def unitRoom (s : State) (chain : Bool) (core : Nat) : Bool :=
  decide (((unitOps s chain core).filter (fun o => !o.running)).length < (if chain then 64 else 256))

/-- The copy engine of a die with fewer operations; 0 on a tie (R292). -/
def pickEngine (s : State) (core : Nat) : Nat :=
  let n (e : Nat) : Nat := ((unitOps s false core).filter (fun o => o.engine == e)).length
  if n 1 < n 0 then 1 else 0

/-- An operation joins the open batch of its wave (R244). -/
def joinBatch (v : Wave) (op : Nat) : Wave :=
  { v with batches := v.batches.map (fun b => if b.num = v.batchNo + 1 then { b with live := b.live ++ [op] } else b) }

/-- A new engine operation of a wave. -/
def newOp (s : State) (v : Wave) (kind : EngKind) (comp : W64) : EngOp :=
  { id := s.nextId, kind := kind, wave := v.id, team := v.team, ctx := v.ctx, core := v.core, asid := (getCtx s v.ctx).asid,
    die := dieOf v.core, slot := slotOfDie (getCtx s v.ctx) (dieOf v.core),
    engine := (match kind with | .chain _ => 0 | _ => pickEngine s v.core), tag := v.hz.tag, scope := v.scope, comp := comp,
    running := false, chunk := 0, fetched := [], poison := none, fault := none, abort := none, stage := 0, far := [], farPois := [],
    order := s.nextId }

/-- An operation registered, with its slip, its range locks and its place in the wave's open batch. -/
def engQueued (s : State) (v : Wave) (i : Instr) (kind : EngKind) (comp : W64) (rs : List Range) : State :=
  let s1 := newSlip { s with nextId := s.nextId + 1, ops := s.ops ++ [newOp s v kind comp] } v i (.engine s.nextId)
  modWave (addLocks s1 (dieOf v.core) s.nextId rs) v.id (fun x => joinBatch x s.nextId)

/-- Whether an operation can be handed to its unit: room in the slip file, the unit's queue and the lock table, no damaged entry, and nothing
earlier that it follows as a release (R81). -/
def engRoom (s : State) (v : Wave) (kind : EngKind) (rs : List Range) : Bool :=
  slipRoom v && unitRoom s (match kind with | .chain _ => true | _ => false) v.core
    && decide (rs.length ≤ (freeLocks s (dieOf v.core)).length) && !locksDamaged s && !releaseWaits s v

/-- An operation whose checks have passed, registered, tagged and handed to its engine, or stalled at issue. -/
def engIssue (i : Instr) (kind : EngKind) (comp : W64) (rs : List Range) (s : State) (v : Wave) : Out :=
  if engRoom s v kind rs then .done (engQueued s v i kind comp rs) else .stay s .stall

/-- The record of a COPY or COPYM: read, or how the instruction ends. -/
def layoutRec (s : State) (v : Wave) (a : W64) : Except Out (List Byte) := recAt s v a 64 8

/-- The range of a record with its lock kind, or its trap. -/
def recRange (s : State) (v : Wave) (r : Layout) (both : Bool) : Except Out Range :=
  let (lo, hi) := layoutSpan r
  match rangeKey s v lo hi with
  | .ok (k, a, b) => .ok (k, a, b, both)
  | .error c => .error (.trap s (preciseAt c (BitVec.ofInt 64 lo)))

/-- Types of an index record (R291). -/
def indexTy (t : Ty) : Bool := t == .i16 || t == .n16 || t == .i32 || t == .n32 || t == .i64 || t == .n64

/-- The checks of COPY on its records that raise 0x01 (R245, R291). -/
def copyOk (src : Layout) (idx : Option Layout) (dst : Layout) : Bool :=
  tySize src.ty == tySize dst.ty &&
  match idx with
  | none => boxCount src == boxCount dst
  | some x => indexTy x.ty && (src.box[src.rank - 1]?).getD 0 == 1 && boxCount x * boxCount src == boxCount dst

/-- COPY once its records are read. -/
def copyGo (w : GenW) (s : State) (v : Wave) (src : Layout) (idx : Option Layout) (dst : Layout) : Out :=
  let comp := addrOpd s v w w.c
  let locked := match idx with | some x => x | none => src
  let skew := [some src, idx, some dst].filterMap id |>.find? layoutSkew
  if !copyOk src idx dst then .trap s (precise 0x01)
  else match skew with
    | some r => .trap s (preciseAt 0x08 r.base)
    | none => match recRange s v locked false, recRange s v src false, recRange s v dst true, compCheck s v comp with
      | .error o, _, _, _ => o
      | _, .error o, _, _ => o
      | _, _, .error o, _ => o
      | _, _, _, .error o => o
      | .ok r1, .ok _, .ok r2, .ok _ => engIssue (.copy w) (.copy src idx dst) comp [r1, r2] s v

/-- The effect of COPY (R245): with a second source record the first is the index record (R291). -/
def copyBody (w : GenW) (s : State) (v : Wave) : Out :=
  let b := addrOpd s v w w.b
  let second : Except Out (List Byte) := if b = 0 then .ok [] else layoutRec s v b
  match layoutRec s v (addrOpd s v w w.a), second, layoutRec s v (addrOpd s v w w.dst) with
  | .error o, _, _ => o
  | _, .error o, _ => o
  | _, _, .error o => o
  | .ok l1, .ok l2, .ok ld =>
    match layoutOf l1, (if b = 0 then some none else (layoutOf l2).map some), layoutOf ld with
    | some r1, some none, some d => copyGo w s v r1 none d
    | some r1, some (some r2), some d => copyGo w s v r2 (some r1) d
    | _, _, _ => .trap s (precise 0x01)

/-- COPY (R245). -/
def execCopy (w : GenW) (s : State) : Host.Outcome State Fault Refusal := issue (.copy w) s (copyBody w)

/-- The teams that a rank mask names, with their ranks (R246). -/
def maskTeams (s : State) (v : Wave) (mask : Nat) : List (Nat × Team) :=
  (List.range 16).filterMap (fun j => if bitAt mask j then (rankTeam s v.ctx (clusterOf v.core) j).map (fun t => (j, t)) else none)

/-- The effect of COPYM (R246). -/
def copymBody (w : GenW) (s : State) (v : Wave) : Out :=
  let mask := (addrOpd s v w w.b).toNat
  let off := (addrOpd s v w w.dst).toNat
  let comp := addrOpd s v w w.c
  match layoutRec s v (addrOpd s v w w.a) with
  | .error o => o
  | .ok l => match layoutOf l with
    | none => .trap s (precise 0x01)
    | some src =>
      let n := boxCount src * tySize src.ty
      let ts := maskTeams s v mask
      let bad := ts.filter (fun p => decide (p.2.shelfSize < off + n))
      if 2 ^ 16 ≤ mask then .trap s (precise 0x01)
      else if layoutSkew src then .trap s (preciseAt 0x08 src.base)
      else match recRange s v src false with
        | .error o => o
        | .ok r =>
          if !bad.isEmpty then .trap s { preciseAt 0x05 (w64 off) with lanes := maskOf (bad.map (·.1)) }
          else match compCheck s v comp with
            | .error o => o
            | .ok _ =>
              let kind := EngKind.multi src off (ts.map (·.2.id)) (if bitAt w.opx.toNat 4 then none else some (w.opx.toNat % 16))
              engIssue (.copym w) kind comp (r :: ts.map (fun p => (LockKey.shelf p.2.id, off, off + n, true))) s v

/-- COPYM (R246). -/
def execCopym (w : GenW) (s : State) : Host.Outcome State Fault Refusal := issue (.copym w) s (copymBody w)

/-- A stream of a chain command as a range. -/
def streamRange (s : State) (v : Wave) (a : W64) (t : Ty) (count : Nat) (both : Bool) : Except Out Range :=
  match rangeKey s v a.toNat (a.toNat + count * tySize t : Nat) with
  | .ok (k, x, y) => .ok (k, x, y, both)
  | .error c => .error (.trap s (preciseAt c a))

/-- The streams of a chain command: source 0, source 1 where there is one, destination. -/
def chainStreams (c : Chain) : List (W64 × Ty × Bool) :=
  (c.src0, c.t0, false) :: (if c.src1 = 0 then [] else [(c.src1, c.t1, false)]) ++ [(c.dst, c.td, true)]

/-- Ranges computed in order, the first trap standing. -/
def allRanges : List (Except Out Range) → Except Out (List Range)
  | [] => .ok []
  | .error o :: _ => .error o
  | .ok r :: l => match allRanges l with
    | .error o => .error o
    | .ok rs => .ok (r :: rs)

/-- The effect of CHAIN (R247, R296). -/
def chainBody (w : GenW) (s : State) (v : Wave) : Out :=
  let comp := addrOpd s v w w.c
  match recAt s v (addrOpd s v w w.a) 64 8 with
  | .error o => o
  | .ok l => match chainDesc l with
    | none => .trap s (precise 0x01)
    | some c =>
      match (chainStreams c).find? (fun p => p.1.toNat % tySize p.2.1 != 0) with
      | some p => .trap s (preciseAt 0x08 p.1)
      | none => match allRanges ((chainStreams c).map (fun p => streamRange s v p.1 p.2.1 c.count p.2.2)), compCheck s v comp with
        | .error o, _ => o
        | _, .error o => o
        | .ok rs, .ok _ => engIssue (.chain w) (.chain c) comp rs s v

/-- CHAIN (R247). -/
def execChain (w : GenW) (s : State) : Host.Outcome State Fault Refusal := issue (.chain w) s (chainBody w)

/-! ### Batches (R244, R248, R249) -/

/-- CLOSE (R248): the open batch becomes batch B + 1 and a new one opens. -/
def execClose (w : GenW) (s : State) : Host.Outcome State Fault Refusal :=
  issueR (.close w) s (fun s v =>
    let b := v.batchNo + 1
    let v1 := { v with batchNo := b, batches := v.batches ++ [{ num := b + 1, live := [], failed := false, aborted := false }] }
    writeOut s v1 { s := [(sNum w.dst, b.setWidth 64)] } w.hdr.nwb)

/-- The closed batches that WAITB n waits for. -/
def waitBatches (v : Wave) (n : W32) : List Batch :=
  let m := if n = v.batchNo ∨ tagBefore n v.batchNo then n else v.batchNo
  v.batches.filter (fun b => b.num != v.batchNo + 1 && (b.num == m || tagBefore b.num m))

/-- WAITB (R249). -/
def execWaitb (w : GenW) (s : State) : Host.Outcome State Fault Refusal :=
  issueR (.waitb w) s (fun s v =>
    let n := w32 (scalarOp s v w.hdr.lit w.a).toNat
    let bs := waitBatches v n
    if bs.any (fun b => !b.live.isEmpty) then (.stay s (.waitb n), none)
    else writeOut s v { s := [(sNum w.dst, w64 (2 * b2n (bs.any (·.failed)) + b2n (bs.any (·.aborted))))] } w.hdr.nwb)

/-! ### Counters (R250, R251) -/

/-- CADD (R250). -/
def execCadd (w : GenW) (s : State) : Host.Outcome State Fault Refusal :=
  issue (.cadd w) s (fun s v =>
    let acc : Access :=
      { kind := .atom .add, ty := .n64, order := .release, scope := (scpOf (w.opx.toNat % 8)).getD .d, wb := .none, vector := false,
        viaHandle := false,
        elems := [{ lane := 0, piece := 0, addr := scalarOp s v w.hdr.lit w.a, site := .nowhere, data := scalarOp s v w.hdr.lit w.b, cmp := 0 }] }
    issueAccess s v (opRecOf s v (.cadd w)) acc .raw {})

/-- TRYW's flags: Z for a counter that has reached its target, V for a read that could not be made. -/
def trywFlags (v : Wave) (z bad : Bool) : Wave := { v with regs := { v.regs with cc := withFlags v.regs.cc z false false bad } }

/-- A TRYW that returns, with its flags. -/
def trywEnd (s : State) (v : Wave) (z bad : Bool) : Out := .done (putWave s (trywFlags v z bad))

/-- A value that TRYW has read, held against its target and limit. -/
def trywSeen (s : State) (v : Wave) (x : Nat) (target : W64) (deadline : Nat) : Out :=
  if target.toNat ≤ x then trywEnd s v true false
  else if deadline ≤ s.clk then trywEnd s v false false
  else .stay s (.tryw target deadline (some s.clk))

/-- The reads of peers that earlier TRYWs of a wave have left unanswered: no longer waited for. -/
def forgetReads (s : State) (id : Nat) : State :=
  if s.fab.out.any (fun p => p.owner == .tryw id) then
    { s with fab := { s.fab with out := s.fab.out.map (fun p => if p.owner == .tryw id then { p with owner := .nobody } else p) } }
  else s

/-- TRYW's read of a counter on a peer: a packet, at issue and then when 256 clk have passed since the last answer. -/
def trywPeer (s : State) (v : Wave) (a : W64) (p : BitVec 9) (target : W64) (deadline : Nat) (last : Option Nat) : Out :=
  let acc := peerRead a p 1
  let asid := (getCtx s v.ctx).asid
  let wt := Wait.tryw target deadline last
  if portShut s v.core then trywEnd (noteForbidden s v.core a.toNat) v false true
  else if !peerUp s p.toNat then trywEnd s v false true
  else if s.fab.out.any (fun q => q.owner == .tryw v.id) || (match last with | some l => decide (s.clk < l + 256) | none => false) then .stay s wt
  else if coreRoom s v.core acc && packetRoom s acc asid none then .stay (sendAll s acc asid none (.tryw v.id) false) wt
  else .stay s (match v.ctl.wait with | .tryw .. => wt | _ => .stall)

/-- TRYW's read of its counter, at issue and again while the wave is suspended; with its limit passed since issue it makes none. -/
def trywRead (s : State) (v : Wave) (a target : W64) (deadline : Nat) (last : Option Nat) : Out :=
  if last.isSome ∧ deadline ≤ s.clk then trywEnd s v false false
  else match placeAt s v .load 8 a .acquire with
    | .error (.stay x wt) => .stay x (match v.ctl.wait with | .tryw .. => v.ctl.wait | _ => wt)
    | .error o => o
    | .ok .nowhere => trywEnd s v false true
    | .ok (.peer p) => trywPeer s v a p target deadline last
    | .ok (.loc sp o) | .ok (.link sp o) =>
      if forbidden s v.core sp o then trywEnd (noteForbidden s v.core o) v false true
      else if isPoison s sp o || linkRefuses s sp o 8 then trywEnd s v false true
      else trywSeen s v (readNat s sp o 8) target deadline

/-- The effect of TRYW, at its issue and at each later read (R251). -/
def trywBody (w : GenW) (s : State) (v : Wave) : Out :=
  let a := scalarOp s v w.hdr.lit w.a
  let limit := (scalarOp s v w.hdr.lit w.c).toNat
  match v.ctl.wait with
  | .tryw t d l => trywRead s v a t d l
  | _ =>
    if 4096 < limit then .trap s (precise 0x01)
    else trywRead (forgetReads s v.id) v a (scalarOp s v w.hdr.lit w.b) (s.clk + limit) none

/-- TRYW (R251). -/
def execTryw (w : GenW) (s : State) : Host.Outcome State Fault Refusal := issue (.tryw w) s (trywBody w)

/-- The read of a suspended TRYW made again. -/
def trywAgain (s : State) (v : Wave) : State :=
  match insAt s v v.ctl.pc with
  | some (.tryw g) => finish v (.tryw g) none (trywBody g s v)
  | _ => s

/-- A suspended TRYW at a write that may have reached its counter, or 256 clk later: read again, or returned when its limit has passed. -/
def trywTurn (s : State) (id : Nat) : State :=
  match findWave s id with
  | some v => match v.ctl.wait with
    | .tryw _ _ _ => if killDue s v then killWave s id else trywAgain s v
    | _ => s
  | none => s

/-- Every suspended TRYW as the writes made so far leave it: their reads precede the passage of time (R251). -/
def trywAll (s : State) : State :=
  (s.waves.filter (fun w => match w.ctl.wait with | .tryw .. => true | _ => false)).foldl (fun x w => trywTurn x w.id) s

/-- TRYW_PERIODIC_READ (R251): at least every 256 clk a suspended TRYW reads its counter again. -/
def execTrywPeriodicRead (wave : Nat) (s : State) : Host.Outcome State Fault Refusal := .next (trywTurn s wave)

/-- A TRYW that returns, with its flags; the wave goes on after it. -/
def trywReturn (s : State) (v : Wave) (z bad : Bool) : State :=
  if killDue s v then killWave s v.id
  else match v.ctl.wait, insAt s v v.ctl.pc with
    | .tryw .., some (.tryw g) => finish v (.tryw g) none (trywEnd s v z bad)
    | _, _ => s

/-- TRYW_LIMIT_EXPIRY (R251): the limit has passed since issue, and the first read has been made. -/
def execTrywLimitExpiry (wave : Nat) (s : State) : Host.Outcome State Fault Refusal :=
  match findWave s wave with
  | some v => match v.ctl.wait with
    | .tryw _ d (some _) => if d ≤ s.clk then .next (trywReturn s v false false) else .next s
    | _ => .next s
  | none => .next s

end Sys2Proof.Machine
end

