-- ==== Sys2Proof/Machine/Net.lean ====
section
/-! DEFINITION. Network operations (R238 to R241) and the network's events (R326 to R330): messages and their packets, connection
contexts and their cache, windows, placement, acknowledgement, refusal, parking and retransmission. -/

namespace Sys2Proof.Machine

/-! ### Connection contexts (R328) -/

/-- The host address of a connection context. -/
def connAt (s : State) (conn : Nat) : Nat := s.net.ctxBase.toNat % 2 ^ 63 + 512 * conn

/-- Whether a connection is valid and not dead. -/
def connAlive (s : State) (conn : Nat) : Bool := readNat s .host (connAt s conn + 2) 1 % 4 == 1

/-- The owner of a connection. -/
def connAsid (s : State) (conn : Nat) : Nat := readNat s .host (connAt s conn) 2

/-- `n` bytes of the device-managed part of a connection context, whose layout is the model's (log 95): at 0x20 the next message number, at 0x24
the send window in packets, at 0x28 the packets of the current window that are acknowledged, at 0x30 the serial of the receive state. -/
def connNat (s : State) (conn off n : Nat) : Nat := readNat s .host (connAt s conn + off) n

/-- A field of the device-managed part written. -/
def connPut (s : State) (conn off n x : Nat) : State := writeRange s .host (connAt s conn + off) (natToBytes n x)

/-- The serial of a connection's state, taken when its entry holds none (R328, log 95). -/
def connSerial (s : State) (conn : Nat) : State × Nat :=
  let k := connNat s conn 0x30 8
  if k = 0 then (connPut { s with nextId := s.nextId + 1 } conn 0x30 8 s.nextId, s.nextId) else (s, k)

/-- The send window of a connection in packets (R326): one that no mark has halved holds any message (log 95). -/
def sendWindow (s : State) (conn : Nat) : Nat := if connNat s conn 0x24 4 = 0 then 2 ^ 18 else connNat s conn 0x24 4

/-- A Congestion Experienced mark received halves the send window (R326). -/
def congested (s : State) (conn : Nat) (ce : Bool) : State :=
  if ce then connPut (connPut s conn 0x24 4 (max 1 (sendWindow s conn / 2))) conn 0x28 4 0 else s

/-- One more packet acknowledged: a window that is acknowledged whole grows by one packet (R326). -/
def windowAck (s : State) (conn : Nat) : State :=
  let k := connNat s conn 0x28 4 + 1
  if connNat s conn 0x24 4 = 0 then s
  else if sendWindow s conn ≤ k then connPut (connPut s conn 0x24 4 (min (2 ^ 18) (sendWindow s conn + 1))) conn 0x28 4 0
  else connPut s conn 0x28 4 k

/-- Whether a message has still something to be answered. -/
def msgOpen (m : NetMsg) : Bool := m.failure.isNone && m.parts.any (fun p => !p.acked)

/-- Whether a connection's context must stay cached. -/
def connBusy (s : State) (conn : Nat) : Bool := s.net.msgs.any (fun m => m.conn == conn && m.ready && msgOpen m)

/-- A connection's context brought into the cache of 16,384 entries, the least recently used idle one leaving; none where every entry
is busy (R328). -/
def cacheConn (s : State) (conn : Nat) : Option State :=
  let put (l : List Nat) : State := { s with net := { s.net with cache := l ++ [conn] } }
  if s.net.cache.contains conn then some (put (s.net.cache.filter (· != conn)))
  else if s.net.cache.length < 16384 then some (put s.net.cache)
  else match s.net.cache.find? (fun x => !connBusy s x) with
    | some x => some (put (s.net.cache.filter (· != x)))
    | none => none

/-! ### Descriptors (R238) -/

/-- The first failing address of a range of global bytes and its cause: 0x09 outside the aperture or unmapped, 0x0A without the permission, or on a
peer's page (log 20), 0x0B on a managed page that is not pinned (R88). That it is the cause of the lowest failing address, whatever fails at later
ones, is the model's choice (log 112). `fuel` bounds the pages. -/
def rangeBad (s : State) (c : Ctx) (write : Bool) : Nat → Nat → Nat → Option (Nat × W64)
  | 0, _, _ => none
  | f + 1, a, n =>
    if n = 0 then none
    else if aperOf (w64 a) ≠ .global ∨ 2 ^ 57 ≤ a then some (0x09, w64 a)
    else match translate s c.asid c.ptroot a false with
      | .leaf e =>
        let l := e.leaf.toNat
        if leafAper l = 1 ∨ !(if write then leafW l else leafR l) then some (0x0A, w64 a)
        else if leafManaged l && !leafPinned l then some (0x0B, w64 a)
        else
          let next := e.base + 2 ^ e.size
          rangeBad s c write f next (n - (next - a))
      | _ => some (0x09, w64 a)

/-- A network descriptor's reserved fields and ranges (R238). -/
def netDescOk (op : NetOp) (l : List Byte) : Bool :=
  let len := fld l 0x18 4
  let atomic := op == .atom
  bits (fld l 0 4) 20 12 == 0 && fld l 0x1E 2 == 0 && fld l 0x30 16 == 0
    && (if atomic then (match aopOf (fld l 0x1C 1), tyOf (fld l 0x1D 1) with
          | some o, some t => atomTy o t && len == tySize t && decide (fld l 0x1D 1 < 16)
          | _, _ => false)
        else fld l 0x1C 2 == 0 && fld l 0x20 8 == 0 && decide (1 ≤ len) && decide (len ≤ 2 ^ 30))

/-- The packets of a message: one for each 4,096 bytes (R326). -/
def netParts (id ns len : Nat) : List NetPart :=
  (List.range ((len + 4095) / 4096)).map (fun k =>
    { id := id + k, off := 4096 * k, len := min 4096 (len - 4096 * k), sent := false, acked := false, resent := 0, last := ns, wanted := false, data := [] })

/-- The message that a descriptor describes, with its packets. -/
def newMsg (s : State) (v : Wave) (op : NetOp) (l : List Byte) (parts : List NetPart) : NetMsg :=
  { id := s.nextId, wave := v.id, ctx := v.ctx, asid := (getCtx s v.ctx).asid, tag := v.hz.tag, conn := fld l 0 4, serial := connNat s (fld l 0 4) 0x30 8, op := op,
    win := fld l 4 2, key := BitVec.ofNat 16 (fld l 6 2), roff := w64 (fld l 8 8), laddr := w64 (fld l 0x10 8), len := fld l 0x18 4,
    aop := (aopOf (fld l 0x1C 1)).getD .add, atyp := (tyOf (fld l 0x1D 1)).getD .n64, opnd := w64 (fld l 0x20 8),
    cntr := w64 (fld l 0x28 8), msg := w32 (connNat s (fld l 0 4) 0x20 4), parts := parts, ready := false, failure := none }

/-- A message added to those of the device. -/
def addMsg (s : State) (m : NetMsg) : State := { s with net := { s.net with msgs := s.net.msgs ++ [m] } }

/-- A message changed in place. -/
def modMsg (s : State) (id : Nat) (f : NetMsg → NetMsg) : State :=
  { s with net := { s.net with msgs := s.net.msgs.map (fun m => if m.id = id then f m else m) } }

/-- The packets of a message that have left and are not answered: of an NGET or NATOM its request. -/
def msgPackets (m : NetMsg) : Nat :=
  let n := (m.parts.filter (fun p => p.sent && !p.acked)).length
  if m.op = .put then n else min 1 n

/-- The packets of a connection that have left and are not answered (R326). -/
def inFlight (s : State) (conn : Nat) : Nat :=
  (s.net.msgs.filter (fun m => m.conn == conn && m.failure.isNone)).foldl (fun n m => n + msgPackets m) 0

/-- An NGET or NATOM whose request leaves, once its connection's context is cached and the window has room (R326, R328): the state with the
context cached, and the message. -/
def getLeaving (s : State) (m : NetMsg) : State × NetMsg :=
  match (if m.ready then some s else cacheConn s m.conn) with
  | none => (s, m)
  | some s1 =>
    let go := decide (inFlight s1 m.conn < sendWindow s1 m.conn)
    (s1, { m with ready := true, parts := m.parts.map (fun p => if go then { p with sent := true, last := s.ns } else p) })

/-- The request of an issued NGET or NATOM leaves (R326, R328). -/
def getLeaves (s : State) (m : NetMsg) : State :=
  let (s1, x) := getLeaving s m
  modMsg s1 m.id (fun _ => x)

/-- A message of a wave issued, with its tag; it fails at once with 0x11 when its connection cannot be used (R328, R330), and stands for later
flushes (R240). -/
def sendMsg (s : State) (v : Wave) (i : Instr) (op : NetOp) (l : List Byte) : State :=
  let conn := fld l 0 4
  let parts := netParts (s.nextId + 1) s.ns (fld l 0x18 4)
  let s1 := newSlip { s with nextId := s.nextId + 1 + parts.length } v i (.net s.nextId)
  if !connAlive s conn || connAsid s conn != (getCtx s v.ctx).asid then
    slipFail (addMsg s1 { newMsg s v op l [] with failure := some 0x11 }) v.id v.hz.tag 0x11 0 0
  else
    let (s2, k) := connSerial s1 conn
    let m := { newMsg s v op l parts with serial := k, ready := op == .put && s.net.cache.contains conn }
    let s3 := connPut s2 conn 0x20 4 ((connNat s conn 0x20 4 + 1) % 2 ^ 32)
    if op = .put then addMsg ((cacheConn s3 conn).getD s3) m
    else let (s4, x) := getLeaving s3 m
      addMsg s4 x

/-- The effect of NPUT, NGET and NATOM: the descriptor read and checked, then the message issued. -/
def netBody (i : Instr) (w : GenW) (op : NetOp) (s : State) (v : Wave) : Out :=
  match anyRecAt s v (scalarOp s v w.hdr.lit w.a) 64 8 with
  | .error o => o
  | .ok l =>
    if !netDescOk op l then .trap s (precise 0x01)
    else match rangeBad s (getCtx s v.ctx) (op != .put) (2 ^ 18 + 2) (fld l 0x10 8) (fld l 0x18 4) with
      | some (c, a) => .trap s (preciseAt c a)
      | none => if !slipRoom v then .stay s .stall else .done (sendMsg s v i op l)

/-- NPUT (R239). -/
def execNput (w : GenW) (s : State) : Host.Outcome State Fault Refusal := issue (.nput w) s (netBody (.nput w) w .put)

/-- NGET (R239). -/
def execNget (w : GenW) (s : State) : Host.Outcome State Fault Refusal := issue (.nget w) s (netBody (.nget w) w .get)

/-- NATOM (R239). -/
def execNatom (w : GenW) (s : State) : Host.Outcome State Fault Refusal := issue (.natom w) s (netBody (.natom w) w .atom)

/-! ### The memory of a message (R88, R239, R327) -/

/-- The places of a range of memory under a context's tables, by raw addresses or by the bindery's; none where a byte has no place. -/
def ownerPlaces (s : State) (c : Ctx) (a : W64) (n : Nat) (write : Bool) (raw : Bool := true) : Option (List (Space × Nat)) :=
  (List.range n).mapM (fun k => ((if raw then rawPlace else ctxPlace) s c (a + w64 k) write).map (fun p => (p.1, p.2.1)))

/-- The bytes of a range of memory under a context's tables; none where a byte has no place. -/
def ownerRead (s : State) (c : Ctx) (a : W64) (n : Nat) : Option (List Byte) :=
  (ownerPlaces s c a n false).map (fun l => l.map (fun p => readByte s p.1 p.2))

/-- Whether a byte of a range is poisoned. -/
def ownerPoison (s : State) (c : Ctx) (a : W64) (n : Nat) : Bool :=
  !s.poison.isEmpty && ((ownerPlaces s c a n false).getD []).any (fun p => isPoison s p.1 p.2)

/-- Bytes placed in memory under a context's tables, with the lines that they cover whole freed of poison (R332) and DIRTY of the pages set
(R304); none where a byte has no place. -/
def ownerWrite (s : State) (c : Ctx) (a : W64) (l : List Byte) (raw : Bool := true) : Option State :=
  (ownerPlaces s c a l.length true raw).map (fun ps =>
    let s1 := (List.zip ps l).foldl (fun x q => writeBytes x q.1.1 q.1.2 [q.2]) s
    let s2 := ((ps.map (·.1)).eraseDups).foldl (fun x sp => clearPoison x sp ((ps.filter (fun q => q.1 == sp)).map (·.2))) s1
    (List.range ((a.toNat % 4096 + l.length + 4095) / 4096)).foldl (fun x k =>
      dirtyAt x c (if k = 0 then a else w64 ((a.toNat / 4096 + k) * 4096))) s2)

/-! ### Resolution (R239, R240) -/

/-- The first failure, or success, that a flush of a wave on a connection reports; none while some message is open (R240). That the first
is that of the message which was issued first is the model's choice (log 113). -/
def flushState (s : State) (wave conn : Nat) (ids : List Nat) : Option (Option Nat) :=
  let ms := s.net.msgs.filter (fun m => ids.contains m.id)
  if (readNat s .host (connAt s conn + 2) 1) / 2 % 2 = 1 then some (some 0x11)
  else match ms.find? (fun m => m.failure.isSome && m.wave == wave) with
    | some m => some m.failure
    | none => if ms.any msgOpen then none else some none

/-- The flushes of a connection that can end, ended; `fuel` bounds them. -/
def flushCheck : Nat → State → Nat → State
  | 0, s, _ => s
  | n + 1, s, conn =>
    let hit := s.waves.findSome? (fun w => w.hz.slips.findSome? (fun x => match x.op with
      | .flush c ids => if c = conn ∧ !x.ended then (flushState s w.id c ids).map (fun r => (w.id, x.tag, r)) else none
      | _ => none))
    match hit with
    | some (w, t, none) => flushCheck n (slipOk s w t) conn
    | some (w, t, some c) => flushCheck n (slipFail s w t c 0 0) conn
    | none => s

/-- Every flush of a connection that can end, ended. -/
def flushAll (s : State) (conn : Nat) : State := flushCheck (128 * s.waves.length + 1) s conn

/-- A message whose local work is done: the counter is incremented with a release, and its slip resolves (R239). -/
def msgLocal (s : State) (m : NetMsg) : State :=
  match findWave s m.wave with
  | none => s
  | some v =>
    let s1 := if m.cntr = 0 then s else bumpCounter s v m.cntr
    slipOk s1 m.wave m.tag

/-- A message that fails. -/
def msgFail (s : State) (m : NetMsg) (cause : Nat) : State :=
  flushAll (slipFail (modMsg s m.id (fun x => { x with failure := some cause })) m.wave m.tag cause 0 0) m.conn

/-- Whether some byte of a range lies where the CXL or host link refuses its access (R309). -/
def rangeRefused (s : State) (c : Ctx) (a : W64) (n : Nat) (write : Bool) : Bool :=
  !s.refusals.isEmpty && (List.range n).any (fun k => match leafPlace s c (a + w64 k) write with
    | some (sp, o, _) => linkRefuses s sp o 1
    | none => false)

/-- The cause with which a message fails whose memory cannot be read or written: a link that refuses (R309), else 0x14 (log 94). -/
def lostCause (s : State) (c : Ctx) (a : W64) (n : Nat) (write : Bool) : Nat := if rangeRefused s c a n write then 0x10 else 0x14

/-- Whether some page of a range of bytes lies in the CXL tier or in host memory. -/
def overLinks (s : State) (c : Ctx) (a : W64) (n : Nat) : Bool :=
  (List.range ((a.toNat % 4096 + n + 4095) / 4096)).any (fun k => match leafPlace s c (if k = 0 then a else w64 ((a.toNat / 4096 + k) * 4096)) false with
    | some (sp, _, _) => sp == .cxl || sp == .host
    | none => false)

/-- What the read of an NPUT packet's data gives: host pages to ask for, the cause of a failure, or the data. -/
inductive PartData
  | ask (pages : List W64) | bad (cause : Nat) | data (l : List Byte)
  deriving DecidableEq, Repr

/-- The data of a packet of an NPUT as it leaves (R239). -/
def partData (s : State) (m : NetMsg) (p : NetPart) : PartData :=
  let c := getCtx s m.ctx
  let a := m.laddr + w64 p.off
  if !(ctxAsks s c a p.len false).isEmpty then .ask (ctxAsks s c a p.len false)
  else if ownerPoison s c a p.len then .bad 0x13
  else match ownerRead s c a p.len with
    | some l => .data l
    | none => .bad (lostCause s c a p.len false)

/-- A packet of a message changed in place. -/
def modPart (s : State) (msg part : Nat) (f : NetPart → NetPart) : State :=
  modMsg s msg (fun m => { m with parts := m.parts.map (fun p => if p.id = part then f p else p) })

/-- A message of an identifier. -/
def findMsg (s : State) (id : Nat) : Option NetMsg := s.net.msgs.find? (fun m => m.id == id)

/-- One packet of an NPUT sent, where the window of its connection has room and its data can be read. -/
def putPart (s : State) (msg : Nat) (p : NetPart) : State :=
  match findMsg s msg with
  | none => s
  | some m =>
    if m.failure.isSome || p.sent || decide (sendWindow s m.conn ≤ inFlight s m.conn) then s
    else match partData s m p with
      | .ask ps => askAll s (getCtx s m.ctx) ps
      | .bad c => msgFail (heardAll s (getCtx s m.ctx) (m.laddr + w64 p.off) p.len false) m c
      | .data l => modPart s msg p.id (fun q => { q with sent := true, last := s.ns, data := l })

/-- The data of an NPUT leaves the device as far as it can; with the last of it the operation completes locally (R239). -/
def putLeaves (s : State) (m : NetMsg) : State :=
  match (if m.ready then some s else cacheConn s m.conn) with
  | none => s
  | some s1 =>
    let s2 := m.parts.foldl (fun x p => putPart x m.id p) (modMsg s1 m.id (fun x => { x with ready := true }))
    match findMsg s2 m.id with
    | some x => if x.failure.isNone && x.parts.all (·.sent) then msgLocal s2 x else s2
    | none => s2

/-- NFLUSH (R240): it covers the puts and atomics that the wave has issued on the connection, in the state that its entry holds (R328). -/
def execNflush (w : GenW) (s : State) : Host.Outcome State Fault Refusal :=
  issue (.nflush w) s (fun s v =>
    if !slipRoom v then .stay s .stall
    else
      let x := (scalarOp s v w.hdr.lit w.a).toNat
      let ids := (s.net.msgs.filter (fun m => m.wave == v.id && m.conn == x && m.serial == connNat s x 0x30 8
        && (m.op == .put || m.op == .atom))).map (·.id)
      let s1 := newSlip s v (.nflush w) (.flush x ids)
      if 2 ^ 20 ≤ x ∨ !connAlive s x ∨ connAsid s x ≠ (getCtx s v.ctx).asid then .done (slipFail s1 v.id v.hz.tag 0x11 0 0)
      else .done (flushAll s1 x))

/-! ### Windows (R241, R327) -/

/-- The address of a window's entry in device memory. -/
def winAt (s : State) (win : Nat) : Nat := s.net.winBase.toNat + 32 * win

/-- WREV (R241): placements are made at one moment, so that none under the old generation is in flight. -/
def execWrev (w : GenW) (s : State) : Host.Outcome State Fault Refusal :=
  issueR (.wrev w) s (fun s v =>
    let n := (scalarOp s v w.hdr.lit w.a).toNat
    let at_ := winAt s n
    if 65536 ≤ n ∨ readNat s .hbm (at_ + 0x17) 1 % 2 = 0 ∨ readNat s .hbm (at_ + 0x10) 2 ≠ (getCtx s v.ctx).asid then
      writeOut s v { s := [(sNum w.dst, BitVec.allOnes 64)] } w.hdr.nwb
    else
      let g := (readNat s .hbm (at_ + 0x14) 2 + 1) % 65536
      let s1 := writeRange s .hbm (at_ + 0x14) (natToBytes 2 g)
      writeOut s1 v { s := [(sNum w.dst, w64 g)] } w.hdr.nwb)

/-- The window checks of an arriving operation (R327): the owner's context and the first byte's address. -/
def winCheck (s : State) (p : NetPacket) : Option (Ctx × W64) :=
  let l := memGets s.hbm (winAt s p.win) 32
  let perm := fld l 0x16 1
  let ok := bitAt (fld l 0x17 1) 0 && (BitVec.ofNat 16 (fld l 0x12 2) ^^^ BitVec.ofNat 16 (fld l 0x14 2)) == p.key
    && decide (p.roff + p.total ≤ fld l 8 8)
    && (match p.op with | .get => bitAt perm 0 | .put => bitAt perm 1 | .atom => bitAt perm 2 | .flush => true)
  if ok then (ctxOfAsid s (fld l 0x10 2)).map (fun c => (c, w64 (fld l 0 8 + p.roff))) else none

/-! ### Arrivals (R327, R329, R330) -/

/-- The record of a message being received. -/
def recvOf (s : State) (serial : Nat) (msg : W32) : NetRecv :=
  (s.net.recv.find? (fun r => r.serial == serial && r.msg == msg)).getD { serial := serial, msg := msg, offs := [], bytes := 0, result := none }

/-- A record of a message being received, replaced. -/
def putRecv (s : State) (r : NetRecv) : State :=
  { s with net := { s.net with recv := s.net.recv.filter (fun x => !(x.serial == r.serial && x.msg == r.msg)) ++ [r] } }

/-- An answer that leaves a port. -/
def netReply (s : State) (p : NetPacket) (off status : Nat) (data : List Byte) : State :=
  { s with net := { s.net with replies := s.net.replies ++ [{ conn := p.conn, msg := p.msg, off := off, status := status, data := data }] } }

/-- Bytes that a parked packet takes of the parking buffer: its payload. -/
def parkSize (p : NetPacket) : Nat := p.data.length

/-- A packet held in the parking buffer, or dropped with a nak of status 4 when the buffer is full (R329). -/
def netPark (s : State) (p : NetPacket) : State :=
  if (s.net.parked.map parkSize).foldl (· + ·) (parkSize p) ≤ 2 ^ 18 then { s with net := { s.net with parked := s.net.parked ++ [p] } }
  else netReply s p p.off 4 []

/-- The address, length and kind of access of an arriving packet in its window. -/
def netSpan (p : NetPacket) (a : W64) : W64 × Nat × Bool :=
  match p.op with
  | .put => (a + w64 p.off, p.data.length, true)
  | .get => (a, p.total, false)
  | .atom => (a, tySize p.atyp, true)
  | .flush => (a, 0, false)

/-- An arriving packet whose window checks have passed, performed in the owner's memory; one that has no place there, or whose link refuses it
(R309), is refused. The model's choices: so is a NATOM that is misaligned or meets poison, and an NGET sends poisoned bytes as they are (log 114). -/
def netDo (s : State) (p : NetPacket) (r : NetRecv) (c : Ctx) (a : W64) : State :=
  match p.op with
  | .put => match ownerWrite s c (a + w64 p.off) p.data with
    | some s1 => netReply (putRecv s1 { r with offs := r.offs ++ [p.off], bytes := r.bytes + p.len }) p p.off 0 []
    | none => netReply s p p.off 1 []
  | .get => match ownerRead s c a p.total with
    | some l => (List.range ((p.total + 4095) / 4096)).foldl (fun x k => netReply x p (4096 * k) 0 ((l.drop (4096 * k)).take 4096)) s
    | none => netReply s p p.off 1 []
  | .atom =>
    let n := tySize p.atyp
    match rawPlace s c a true with
    | some (sp, o, e) =>
      if a.toNat % n ≠ 0 ∨ !leafR e.leaf.toNat ∨ isPoison s sp o then netReply s p p.off 1 []
      else
        let old := readNat s sp o n
        let s1 := dirtyAt (writeRange s sp o (natToBytes n (atomNew p.aop p.atyp old p.opnd.toNat))) c a
        netReply (putRecv s1 { r with offs := r.offs ++ [p.off], bytes := r.bytes + n, result := some (w64 old) }) p p.off 0
          (natToBytes 8 old)
    | none => netReply s p p.off 1 []
  | .flush => s

/-- Whether an address lies in a line that a packet has still to commit. -/
def atomPending (s : State) (c : Ctx) (a : W64) : Bool :=
  match rawPlace s c a true with
  | some (sp, o, _) => s.pending.contains (sp, o / 64)
  | none => false

/-- An arriving packet processed: its window checks, its placement at its offset, once, and its answer. One whose window lies on a host page
that is not translated is parked while the host is asked (R307, R327, log 92), and so is a NATOM of a line that a packet has still to commit
(R83). -/
def netPlace (s : State) (p : NetPacket) : State :=
  if !connAlive s p.conn then s
  else
    let (s0, serial) := connSerial (congested s p.conn p.ce) p.conn
    let r := recvOf s0 serial p.msg
    if p.op = .flush then netReply s0 p p.off 0 []
    else if r.offs.contains p.off then netReply s0 p p.off 0 (match r.result with | some x => natToBytes 8 x.toNat | none => [])
    else match winCheck s0 p with
      | none => netReply s0 p p.off 1 []
      | some (c, a) =>
        let (b, n, w) := netSpan p a
        let asks := ctxAsks s0 c b n w
        if !asks.isEmpty then netPark (askAll s0 c asks) { p with ce := false }
        else if p.op = .atom && atomPending s0 c b then netPark s0 { p with ce := false }
        else heardAll (netDo s0 p r c a) c b n w

/-- NET_PACKET_ARRIVAL (R326, R327, R329, R330): a packet that fails its tag is dropped; one whose context is not cached is parked, or
dropped with a nak of status 4 when the buffer is full. -/
def execNetPacketArrival (pkt : NetPacket) (s : State) : Host.Outcome State Fault Refusal :=
  if !pkt.tagOk then .next s
  else if s.net.cache.contains pkt.conn then .next (netPlace ((cacheConn s pkt.conn).getD s) pkt)
  else .next (netPark s pkt)

/-- NET_CONTEXT_FETCH_DONE (R329): the context is cached, and the packets parked for it are processed in their order. -/
def execNetContextFetchDone (conn : Nat) (s : State) : Host.Outcome State Fault Refusal :=
  let mine := s.net.parked.filter (fun p => p.conn == conn)
  if mine.isEmpty then .next s
  else match cacheConn s conn with
    | none => .next s
    | some s1 => .next (mine.foldl netPlace { s1 with net := { s1.net with parked := s1.net.parked.filter (fun p => p.conn != conn) } })

/-! ### Answers (R239, R240, R330) -/

/-- A packet of a message marked as answered. -/
def ackPart (m : NetMsg) (off : Nat) : NetMsg :=
  { m with parts := m.parts.map (fun p => if p.off = off then { p with acked := true, wanted := false } else p) }

/-- The message that an answer is for, in the state that its connection's entry holds (R328). -/
def answered (s : State) (a : NetAnswer) : Option NetMsg :=
  s.net.msgs.find? (fun m => m.conn == a.conn && m.serial == connNat s a.conn 0x30 8 && m.msg == a.msg && m.failure.isNone)

/-- The state as an answer that comes back leaves it before it is matched: a congestion mark counts, whatever it answers (R326). -/
def heardAnswer (s : State) (a : NetAnswer) : State := if connAlive s a.conn then congested s a.conn a.ce else s

/-- The response of an NGET or NATOM placed at LADDR; with its last packet the operation resolves. A response that meets a host page which is
not translated is dropped while the host is asked, and comes again (R307, R330, log 92); one with no place fails its message (R309, log 94). With
the last response the request is acknowledged (R326). -/
def netGot (s : State) (m : NetMsg) (q : NetPart) (data : List Byte) : State :=
  let c := getCtx s m.ctx
  let a := m.laddr + w64 q.off
  let asks := ctxAsks s c a q.len true
  if !asks.isEmpty then askAll s c asks
  else
    let m1 := ackPart m q.off
    let s1 := modMsg s m.id (fun _ => m1)
    match ownerWrite s1 c a (data.take q.len) with
    | some s2 => flushAll (if m1.parts.all (·.acked) then msgLocal (windowAck s2 m.conn) m1 else s2) m.conn
    | none => msgFail (heardAll s1 c a q.len true) m1 (lostCause s1 c a q.len true)

/-- NET_ACK (R239, R240, R326, R330): a packet of NPUT is placed; the response of NGET or NATOM is placed at LADDR, and its operation resolves
with its last packet. -/
def execNetAck (ans : NetAnswer) (s : State) : Host.Outcome State Fault Refusal :=
  let s0 := heardAnswer s ans
  match answered s ans with
  | none => .next s0
  | some m =>
    match m.parts.find? (fun p => p.off == ans.off && p.sent && !p.acked) with
    | none => .next s0
    | some q =>
      match m.op with
      | .put | .flush => .next (flushAll (modMsg (windowAck s0 m.conn) m.id (fun _ => ackPart m ans.off)) m.conn)
      | .get | .atom => .next (netGot s0 m q ans.data)

/-- NET_NAK (R329, R330): a refusal fails the operation with 0x10; after a context miss the packet is resent when 4 µs have passed. -/
def execNetNak (ans : NetAnswer) (s : State) : Host.Outcome State Fault Refusal :=
  let s0 := heardAnswer s ans
  match answered s ans with
  | none => .next s0
  | some m =>
    if !(m.parts.any (fun p => p.off == ans.off && p.sent && !p.acked)) then .next s0
    else if ans.status = 1 then .next (msgFail (modMsg s0 m.id (fun x => ackPart x ans.off)) m 0x10)
    else .next (modMsg s0 m.id (fun x => { x with parts := x.parts.map (fun p =>
      if p.off = ans.off then { p with wanted := true, last := s.ns } else p) }))

/-- A dead connection (R330): DEAD is set, and every unresolved operation on it fails with 0x11. -/
def connDead (s : State) (conn : Nat) : State :=
  let fl := readNat s .host (connAt s conn + 2) 1
  let s1 := if fl / 2 % 2 = 1 then s else writeRange s .host (connAt s conn + 2) (natToBytes 1 (fl + 2))
  let ms := s.net.msgs.filter (fun m => m.conn == conn && m.failure.isNone && msgOpen m)
  flushAll (ms.foldl (fun x m => msgFail x m 0x11) s1) conn

/-- One packet resent, or the connection dead after 16 retransmissions of it. A packet of an NPUT reads its data again. -/
def resend (s : State) (m : NetMsg) (p : NetPart) : State :=
  let again (l : List Byte) : State := modPart s m.id p.id (fun q => { q with resent := q.resent + 1, wanted := false, last := s.ns, data := l })
  if 16 ≤ p.resent then connDead s m.conn
  else if m.op != .put then again p.data
  else match partData s m p with
    | .ask ps => askAll s (getCtx s m.ctx) ps
    | .bad c => msgFail (heardAll s (getCtx s m.ctx) (m.laddr + w64 p.off) p.len false) m c
    | .data l => again l

/-- The message and packet of an identifier. -/
def findPart (s : State) (id : Nat) : Option (NetMsg × NetPart) :=
  s.net.msgs.findSome? (fun m => (m.parts.find? (fun p => p.id == id)).map (fun p => (m, p)))

/-- NET_PARK_RESEND (R329): 4 µs after a nak of status 4 the packet is sent again. -/
def execNetParkResend (pkt : Nat) (s : State) : Host.Outcome State Fault Refusal :=
  match findPart s pkt with
  | some (m, p) => if p.wanted && !p.acked && m.failure.isNone && decide (p.last + 4000 ≤ s.ns) then .next (resend s m p) else .next s
  | none => .next s

/-- NET_RETRANSMIT_TIMEOUT (R330): 40 µs without an acknowledgement resend a packet. -/
def execNetRetransmitTimeout (pkt : Nat) (s : State) : Host.Outcome State Fault Refusal :=
  match findPart s pkt with
  | some (m, p) => if p.sent && !p.acked && m.failure.isNone && decide (p.last + 40000 ≤ s.ns) then .next (resend s m p) else .next s
  | none => .next s

end Sys2Proof.Machine
end

