-- ==== Sys2Proof/Machine/EvBindery.lean ====
section
/-! DEFINITION. The binderies (R94, R95): submission of a batch, its header and its marking, the drain of accesses admitted before the colour
advanced, the move of its objects. -/

namespace Sys2Proof.Machine

/-- The bindery of a die. -/
def getBindery (s : State) (die : Nat) : Bindery := (s.bindery[die]?).getD resetBindery

/-- The bindery of a die changed in place. -/
def modBindery (s : State) (die : Nat) (f : Bindery → Bindery) : State := { s with bindery := setAt s.bindery die (f (getBindery s die)) }

/-- BDY_DOORBELL (R94): FULL is cleared by writing 1; a non-zero BATCH joins the queue of 16, or sets FULL. -/
def execBdyDoorbell (die : Nat) (value : W64) (s : State) : Host.Outcome State Fault Refusal :=
  if 4 ≤ die then .next s
  else
    let s1 := if value.getLsbD 1 then modBindery s die (fun b => { b with full := false }) else s
    let a := w64 (value.toNat / 64 * 64)
    if a = 0 then .next s1
    else if 16 ≤ (getBindery s1 die).queue.length then .next (modBindery s1 die (fun b => { b with full := true }))
    else .next (modBindery s1 die (fun b => { b with queue := b.queue ++ [a] }))

/-- An entry of a batch record. -/
structure BatchEnt where
  idx : Nat
  old : W64
  new : W64
  size : Nat
  deriving DecidableEq, Repr

/-- The header of a batch record: heap, count, reserved byte and counter. -/
structure BatchHead where
  heap : Nat
  count : Nat
  rsvd : Nat
  cntr : W64
  deriving DecidableEq, Repr

/-- The header of the record at an address. -/
def batchHead (s : State) (c : Ctx) (a : W64) : BatchHead :=
  let l := (ctxBytes s c a 16).getD (List.replicate 16 0)
  { heap := fld l 0 1, count := fld l 2 2, rsvd := fld l 1 1, cntr := w64 (fld l 8 8) }

/-- The address of entry i of a record. -/
def batchEntAt (a : W64) (i : Nat) : W64 := a + w64 (16 + 32 * i)

/-- Entry i of a record. -/
def batchEnt (s : State) (c : Ctx) (a : W64) (i : Nat) : BatchEnt :=
  let l := (ctxBytes s c (batchEntAt a i) 32).getD (List.replicate 32 0)
  { idx := i, old := w64 (fld l 0 8), new := w64 (fld l 8 8), size := fld l 0x10 4 }

/-- Whether an address lies on a page with aperture 0. -/
def onHbm (s : State) (c : Ctx) (a : W64) : Bool := match ctxPlace s c a false with | some (.hbm, _, _) => true | _ => false

/-- Whether a counter of a batch can be named: non-zero and 8-byte aligned. -/
def cntrOk (a : W64) : Bool := a != 0 && a.toNat % 8 == 0

/-- Whether a header passes (R94). -/
def headOk (s : State) (c : Ctx) (a : W64) (h : BatchHead) : Bool :=
  onHbm s c a && decide (h.heap < 16) && (heapDesc s c h.heap).isSome && decide (1 ≤ h.count) && decide (h.count ≤ 4096) && h.rsvd == 0 && cntrOk h.cntr
    && (List.range h.count).all (fun i => onHbm s c (batchEntAt a i) && onHbm s c (batchEntAt a i + 31))

/-- A counter incremented by a bindery, with a release at device scope. -/
def bindBump (s : State) (c : Ctx) (a : W64) : State := bumpGlobal s c a false

/-- RESULT of an entry written. -/
def putResult (s : State) (c : Ctx) (a : W64) (i r : Nat) : State := ctxPut s c (batchEntAt a i + 0x14) (natToBytes 4 r)

/-- Whether two byte ranges overlap. -/
def spansMeet (a : W64) (n : Nat) (b : W64) (m : Nat) : Bool := decide (a.toNat < b.toNat + m) && decide (b.toNat < a.toNat + n)

/-- Whether an entry's size, target and ranges are good: the target inside the region, apart from its own source and from the sources and
targets of the entries chosen before it. -/
def entOk (d : HeapDesc) (taken : List BatchEnt) (e : BatchEnt) : Bool :=
  decide (16 ≤ e.size) && decide (e.size ≤ 2 ^ 21) && e.size % 16 == 0
    && decide (d.rbase.toNat ≤ e.new.toNat) && decide (e.new.toNat + e.size ≤ d.rbase.toNat + d.rsize.toNat)
    && !spansMeet e.new e.size e.old e.size
    && taken.all (fun t => !spansMeet e.new e.size t.new t.size && !spansMeet e.new e.size t.old t.size && !spansMeet e.old e.size t.old t.size
      && !spansMeet e.old e.size t.new t.size)

/-- One entry of a batch marked MOVING, or its RESULT written (R94 step 1). -/
def markEnt (c : Ctx) (d : HeapDesc) (a : W64) (x : State × List (Nat × W64) × List BatchEnt) (i : Nat) : State × List (Nat × W64) × List BatchEnt :=
  let (s, mv, taken) := x
  let e := batchEnt s c a i
  if !entOk d taken e then (putResult s c a i 2, mv, taken)
  else
    let go (y : CatEntry) : State × List (Nat × W64) × List BatchEnt :=
      (putCat s c { y with old := e.old, new := 0, size := e.size, pins := 0, st := 2, mcol := 0 }, mv ++ [(i, y.addr)], taken ++ [e])
    match catLookup s c d e.old with
    | some y =>
      if y.pins ≠ 0 then (putResult s c a i 1, mv, taken)
      else if y.st = 1 then go y
      else (putResult s c a i 2, mv, taken)
    | none => match catFree s c d e.old with
      | some y => go y
      | none => (putResult s c a i 2, mv, taken)

/-- MOVED entries that are two advances behind a colour freed (R95). -/
def freeMoved (s : State) (c : Ctx) (d : HeapDesc) (colour : BitVec 2) : State :=
  (List.range d.cent).foldl (fun x i =>
    let e := catEntry x c d i
    if e.st = 3 ∧ BitVec.ofNat 2 e.mcol = colour - 2 then putCat x c { e with old := 0, new := 0, size := 0, pins := 0, st := 0, mcol := 0 } else x) s

/-- The cores whose catalogue caches hold a heap's colour: those on which a wave of the context executes. -/
def colourCores (s : State) (ctx : Nat) : List Nat :=
  ((s.waves.filter (fun (w : Wave) => w.ctx == ctx && isLive w && (getTeam s w.team).saved.isNone)).map (·.core)).eraseDups

/-- COLOUR of a heap advanced by one (R94 step 2); the caches hold the old value until they have seen the new one. -/
def advanceColour (s : State) (c : Ctx) (heap : Nat) (d : HeapDesc) : State :=
  let s1 := ctxPut s c (heapAddr c heap + 0x1C) [(d.colour + 1).setWidth 8]
  let held := (colourCores s c.id).filter (fun k => !(s.colours.any (fun x => x.1 == k && x.2.1 == c.id && x.2.2.1 == heap)))
  freeMoved { s1 with colours := s1.colours ++ held.map (fun k => (k, c.id, heap, d.colour.toNat)) } c d (d.colour + 1)

/-- A batch taken from its queue. -/
def nextBatch (b : Bindery) : Bindery := { b with queue := b.queue.drop 1 }

/-- A header rejected: STATUS 1, and the counter where it can be named. -/
def rejectBatch (s : State) (c : Ctx) (a : W64) (h : BatchHead) : State :=
  let s1 := ctxPut s c (a + 4) (natToBytes 4 1)
  if cntrOk h.cntr then bindBump s1 c h.cntr else s1

/-- BINDERY_BATCH_START (R94, R95): the header of the next batch is checked; its entries are marked MOVING and the colour advances. A batch whose
ASID has no live context is dropped (log 94). -/
def execBinderyBatchStart (die : Nat) (s : State) : Host.Outcome State Fault Refusal :=
  let b := getBindery s die
  match b.batch, b.queue with
  | none, a :: _ =>
    let s1 := modBindery s die nextBatch
    match ctxOfAsid s (Config.batchAsid a) with
    | none => .next s1
    | some c =>
      let h := batchHead s c a
      match headOk s c a h, heapDesc s c h.heap with
      | true, some d =>
        let (s2, mv, _) := (List.range h.count).foldl (markEnt c d a) (s1, [], [])
        let s3 := advanceColour s2 c h.heap d
        .next (modBindery s3 die (fun x => { x with batch := some a, step := 2, moving := mv }))
      | _, _ => .next (rejectBatch s1 c a h)
  | _, _ => .next s

/-- Whether a store or atomic through a handle that is not performed touches an object of a batch. -/
def pendingMove (s : State) (c : Ctx) (a : W64) (mv : List (Nat × W64)) : Bool :=
  let es := mv.map (fun p => batchEnt s c a p.1)
  let hits (x : Access) : Bool := x.viaHandle && kWrites x.kind && x.elems.any (fun e => es.any (fun t => spansMeet e.addr (elemSize x) t.old t.size))
  s.waves.any (fun (w : Wave) => w.ctx == c.id &&
    (w.hz.held.any (fun h => hits h.acc)
      || w.hz.lazies.any (fun z => match z.target with | .store x => hits x | _ => false)
      || w.hz.slips.any (fun y => !y.ended && (match y.op with | .mem x _ _ => hits x | _ => false))))

/-- BINDERY_DRAIN_DONE (R94 step 2): every catalogue cache holds the new colour, and the accesses admitted before it have been performed. -/
def execBinderyDrainDone (die : Nat) (s : State) : Host.Outcome State Fault Refusal :=
  let b := getBindery s die
  match b.batch with
  | none => .next s
  | some a => match ctxOfAsid s (Config.batchAsid a) with
    | none => .next (modBindery s die (fun x => { x with batch := none, step := 0, moving := [] }))
    | some c =>
      let h := batchHead s c a
      if b.step ≠ 2 ∨ s.colours.any (fun x => x.2.1 == c.id && x.2.2.1 == h.heap) ∨ pendingMove s c a b.moving then .next s
      else .next (modBindery s die (fun x => { x with step := 3 }))

/-- Whether a byte of a context's memory lies in a poisoned line. -/
def bytePoison (s : State) (c : Ctx) (a : W64) : Bool := match ctxPlace s c a false with | some (sp, o, _) => isPoison s sp o | none => false

/-- An object copied, old to new; poison moves with its lines (R332). None where it cannot be read or written, as when a link refuses (R309). -/
def moveObject (s : State) (c : Ctx) (e : BatchEnt) : Option State :=
  match ctxBytes s c e.old e.size with
  | none => none
  | some l => (ownerWrite s c e.new l false).map (fun s1 => (List.range e.size).foldl (fun x i =>
      if bytePoison s c (e.old + w64 i) then
        (match ctxPlace x c (e.new + w64 i) true with | some (sp, o, _) => addPoison x sp (o / 64) | none => x)
      else x) s1)

/-- An object of a batch moved (R94 steps 3 and 4): its entry is MOVED, RESULT 0. One that cannot be copied stays where it is: its entry is freed,
RESULT 2 (log 118). -/
def moveEnt (c : Ctx) (batch : W64) (col : Nat) (s : State) (p : W64 × BatchEnt) : State :=
  let e := p.2
  match moveObject s c e with
  | some s1 => putResult (putCat s1 c { addr := p.1, old := e.old, new := e.new, size := e.size, pins := 0, st := 3, mcol := col }) c batch e.idx 0
  | none => putResult (putCat s c { addr := p.1, old := 0, new := 0, size := 0, pins := 0, st := 0, mcol := 0 }) c batch e.idx 2

/-- BINDERY_BATCH_DONE (R94 steps 3 and 4): every object of the batch is copied and its entry is MOVED; then STATUS and the counter. -/
def execBinderyBatchDone (die : Nat) (s : State) : Host.Outcome State Fault Refusal :=
  let b := getBindery s die
  match b.batch with
  | none => .next s
  | some a => match ctxOfAsid s (Config.batchAsid a) with
    | none => .next (modBindery s die (fun x => { x with batch := none, step := 0, moving := [] }))
    | some c =>
      if b.step ≠ 3 then .next s
      else
        let h := batchHead s c a
        let col := match heapDesc s c h.heap with | some d => d.colour.toNat | none => 0
        let es := b.moving.map (fun p => (p.2, batchEnt s c a p.1))
        let s2 := es.foldl (moveEnt c a col) s
        let s3 := bindBump (ctxPut s2 c (a + 4) (natToBytes 4 0)) c h.cntr
        .next (modBindery s3 die (fun x => { x with batch := none, step := 0, moving := [] }))

end Sys2Proof.Machine
end

