-- ==== Sys2Proof/Machine/Wave.lean ====
section
/-! DEFINITION. A wave, a team and a context as they start (R23, R24, R207, R256, R262, R269). -/

namespace Sys2Proof.Machine

/-- The access slice of a wave as it starts (R262, R264). -/
def newSlice (k : Kernel) (discard : List Nat) : Slice :=
  { pc := k.access, a := (List.range 16).map (fun i => (k.args[i]?).getD 0), loops := [], stopped := k.access == 0, discard := discard,
    skip := none }

/-- The scalar registers at wave start: s0 to s15 the arguments, the rest zero (R24). -/
def startS (args : List W64) : List W64 := (List.range 64).map (fun i => if i < 16 then (args[i]?).getD 0 else 0)

/-- The registers at wave start (R19, R24): vector registers hold unspecified values. -/
def startRegs (cnt width lanes : Nat) (args : List W64) (free : Nat) : Regs :=
  { cnt := cnt,
    v := (List.range cnt).map (fun r => (List.range width).map (fun l => Config.freeWord (free + r * width + l))),
    s := startS args, k := maskBelow lanes :: List.replicate 95 0, h := List.replicate 16 none, dead := 0, cc := 0, mstall := 0, bflag := 0,
    fault := 0, key := 0, ctr := 0, bmap := [], poison := [] }

/-- The horizon state at wave start (R24). -/
def startHz : Horizon :=
  { tag := 0, slips := [], held := [], lazies := [], facc := 0, handler := false, overrun := false, timeout := none, machineCheck := false }

/-- The control state at wave start: a wave leaves `placed` at once, to `ready` (R29). -/
def startCtl (pc : W64) : Ctl :=
  { pc := pc, st := .ready, wait := .idle, line := none, chain := false, latches := [], loops := [], flash := none, park := none,
    only := none, again := false, rest := none, needTgt := false, nopre := none, barPhase := List.replicate 16 none, recipe := none, left := false,
    stopping := false, allDead := false, idem := none, fresh := true, preempt := false, peerRec := none }

/-- A wave as it is placed. -/
def newWave (id ctx team idx role core slot cnt prio depth : Nat) (scope : W64) (fsw : Bool) (k : Kernel) (free clk : Nat) : Wave :=
  { id := id, ctx := ctx, team := team, idx := idx, role := role, core := core, slot := slot, width := k.width, prio := prio, depth := depth,
    scope := scope, fsw := fsw, opened := [], regs := startRegs cnt k.width k.lanes k.args free, hz := startHz, ctl := startCtl k.exec,
    batchNo := 0, batches := [{ num := 1, live := [], failed := false, aborted := false }], slice := newSlice k [0, 0, 0, 0],
    queues := [[], [], [], []], popped := [], pops := [0, 0, 0, 0], stack := [], stackTop := 0, lastReady := clk, issued := 0 }

end Sys2Proof.Machine
end

