-- ==== Sys2Proof/Machine/Place.lean ====
section
/-! DEFINITION. Room for work: the footprint of a team and what a core has free (R8, R23, R26), partitions (R341), die slots and annex
allocations (R68, R282), ranks (R67), the choice of a core (R280, R281), and a team as it is placed (R23, R24, R305). -/

namespace Sys2Proof.Machine

/-! ### Footprints (R8, R23) -/

/-- An amount of a core's resources: wave slots, resident lanes, register bytes, shelf bytes. -/
structure Need where
  waves : Nat
  lanes : Nat
  bytes : Nat
  shelf : Nat
  deriving DecidableEq, Repr

/-- What a core holds (R8). -/
def coreHolds : Need := { waves := 16, lanes := 4096, bytes := 524288, shelf := 393216 }

/-- Whether an amount fits beside what is used. -/
def fitsBeside (used n : Need) : Bool :=
  decide (used.waves + n.waves ≤ coreHolds.waves) && decide (used.lanes + n.lanes ≤ coreHolds.lanes)
    && decide (used.bytes + n.bytes ≤ coreHolds.bytes) && decide (used.shelf + n.shelf ≤ coreHolds.shelf)

/-- A team's shape: whether it is a matrix team, its waves' register counts, how many of them lie in the leader half, the registers that
each half holds beside them, W and its shelf bytes. -/
structure Shape where
  pair : Bool
  lead : Nat
  counts : List Nat
  spare : List Nat
  width : Nat
  shelf : Nat
  deriving DecidableEq, Repr

/-- The register counts of a half of a team. -/
def Shape.half (t : Shape) (h : Nat) : List Nat := if h = 0 then t.counts.take t.lead else t.counts.drop t.lead

/-- What a half of a team needs on its core; the shelf counts on the leader only. -/
def Shape.need (t : Shape) (h : Nat) : Need :=
  let c := t.half h
  { waves := c.length, lanes := c.length * t.width, bytes := c.foldl (· + ·) ((t.spare[h]?).getD 0) * t.width * 4, shelf := if h = 0 then t.shelf else 0 }

/-- Whether a team is resident on its core or pair. -/
def resident (t : Team) : Bool := t.saved.isNone

/-- The core of a half of a team. -/
def halfCore (t : Team) (h : Nat) : Nat := if t.pair && h == 1 then t.core + 1 else t.core

/-- The registers that a half of a team holds: those of its waves that have not retired, and those its pool has free (R26, R28). -/
def poolTotal (s : State) (t : Team) (h : Nat) : Nat :=
  (t.pools[h]?).getD 0
    + (s.waves.filter (fun (w : Wave) => w.team == t.id && isLive w && halfOf t w.idx == h)).foldl (fun a w => a + w.regs.cnt) 0

/-- What is used of a core. -/
def coreUsed (s : State) (core : Nat) : Need :=
  let ts := s.teams.filter resident
  let ws := s.waves.filter (fun (w : Wave) => w.core == core && isLive w && resident (getTeam s w.team))
  { waves := ws.length, lanes := ws.foldl (fun a w => a + w.width) 0,
    bytes := ts.foldl (fun a t => [0, 1].foldl (fun b h => if halfCore t h = core ∧ (h = 0 ∨ t.pair) then b + poolTotal s t h * t.kernel.width * 4 else b) a) 0,
    shelf := (ts.filter (fun t => t.core == core)).foldl (fun a t => a + t.shelfSize) 0 }

/-! ### Partitions, retirement, annex (R68, R281, R282, R338, R341) -/

/-- EN and PID of a pair's requester port (R341). -/
def portOf (s : State) (pair : Nat) : Bool × Nat := assoc s.rel.parts pair (true, 0)

/-- Whether a core's requester port belongs to a partition. -/
def inPart (s : State) (part core : Nat) : Bool := (portOf s (pairOf core)).2 == part

/-- Whether a core is retired (R338). -/
def coreGone (s : State) (core : Nat) : Bool := s.rel.cores.contains core

/-- The annex of a die: 48 MiB less the segments retired. -/
def annexOf (s : State) (die : Nat) : Nat := (48 - assoc s.rel.segs die 0) * 2 ^ 20

/-- The annex of a die that contexts hold. -/
def annexHeld (s : State) (die : Nat) : Nat := (s.ctxs.filter (fun c => c.dies.contains (some die))).foldl (fun a c => a + c.annexSize) 0

/-- The lowest die slot of a context that is not mapped and of which no image is saved. -/
def freeSlot (c : Ctx) : Option Nat := (List.range 4).find? (fun d => (c.dies[d]?).getD none == none && !c.images.contains d)

/-- Whether a die holds an allocation of a context, or can make one: for a new team in a free slot, for a saved team in its own. A context whose
annex is larger than the die's has no place there (R338). -/
def annexFits (s : State) (c : Ctx) (die : Nat) (slot : Option Nat) : Bool :=
  match slotOfDie c die with
  | some d => decide (c.annexSize ≤ annexOf s die) && (match slot with | some e => d == e | none => true)
  | none =>
    decide (annexHeld s die + c.annexSize ≤ annexOf s die) &&
    (match slot with
      | some e => (c.dies[e]?).getD none == none
      | none => (freeSlot c).isSome)

/-- A die slot mapped to a die: its image is reloaded, or the allocation reads zero. -/
def mapSlot (s : State) (ctx die slot : Nat) : State :=
  modCtx s ctx (fun c => { c with dies := setAt c.dies slot (some die), images := c.images.filter (fun x => x != slot) })

/-- The annex allocation of a context on a die made, where it has none (R282). -/
def allocAnnex (s : State) (ctx die : Nat) (slot : Option Nat) : State :=
  let c := getCtx s ctx
  match slotOfDie c die, slot, freeSlot c with
  | some _, _, _ => s
  | none, some e, _ => mapSlot s ctx die e
  | none, none, some d =>
    let s1 := mapSlot (setMem s (.annex ctx d) []) ctx die d
    { s1 with poison := s1.poison.filter (fun p => p.1 != .annex ctx d) }
  | none, none, none => s

/-- Whether a team fits on an otherwise empty core of a context's partition that is not retired, with the context's annex (R23). -/
def emptyFits (s : State) (c : Ctx) (t : Shape) (core : Nat) : Bool :=
  let none_ : Need := { waves := 0, lanes := 0, bytes := 0, shelf := 0 }
  inPart s c.part core && !coreGone s core && decide (c.annexSize ≤ annexOf s (dieOf core)) && fitsBeside none_ (t.need 0)
    && (!t.pair || (core % 2 == 0 && !coreGone s (core + 1) && fitsBeside none_ (t.need 1)))

/-- The window of real time that a droop is reported in (R281). -/
def droopWin (s : State) : Nat := s.ns / 10000

/-- Whether a core is skipped for one round of a context's cursor for a droop of the previous window. -/
def droopSkip (s : State) (c : Ctx) (core : Nat) : Bool :=
  s.droops.any (fun d => d.1 == core && d.2 + 1 == droopWin s) && !s.skipped.contains (c.id, core)

/-- Whether a core is a candidate, droops apart (R280). -/
def candidate (s : State) (c : Ctx) (slot : Option Nat) (core : Nat) : Bool :=
  (portOf s (pairOf core)).1 && inPart s c.part core && !coreGone s core && !s.hot.contains core
    && !s.rel.testing.contains (clusterOf core) && !s.rel.testCores.contains core && annexFits s c (dieOf core) slot

/-- Whether a team has room on a core or pair. -/
def roomOn (s : State) (t : Shape) (core : Nat) : Bool :=
  fitsBeside (coreUsed s core) (t.need 0) && (!t.pair || fitsBeside (coreUsed s (core + 1)) (t.need 1))

/-- The cores in the order of a context's cursor. -/
def cursorCores (c : Ctx) : List Nat := (List.range 192).map (fun k => (c.cursor + k) % 192)

/-- Whether a core, or pair, may take a team. -/
def mayTake (s : State) (c : Ctx) (t : Shape) (slot : Option Nat) (ok : Nat → Bool) (core : Nat) : Bool :=
  ok core && candidate s c slot core && (!t.pair || (core % 2 == 0 && candidate s c slot (core + 1))) && roomOn s t core

/-- The core that a placement step chooses for a team (R280): the droop skip is waived when it alone leaves the team without one
(R281). -/
def findCore (s : State) (c : Ctx) (t : Shape) (slot : Option Nat) (ok : Nat → Bool) : Option Nat :=
  let l := (cursorCores c).filter (mayTake s c t slot ok)
  match l.find? (fun x => !droopSkip s c x && !(t.pair && droopSkip s c (x + 1))) with
  | some x => some x
  | none => l.head?

/-- A context's cursor moved past the core or pair chosen (R280); the cores skipped for a droop on the way have had their round. -/
def moveCursor (s : State) (ctx core : Nat) (pair : Bool) : State :=
  let c := getCtx s ctx
  let seen := (cursorCores c).takeWhile (fun x => x != core)
  let done := (core :: seen).filter (droopSkip s c)
  let s1 : State := { s with skipped := s.skipped ++ done.map (fun x => (ctx, x)) }
  modCtx s1 ctx (fun x => { x with cursor := (core + (if pair then 2 else 1)) % 192 })

/-! ### A team placed (R23, R24, R67) -/

/-- The clusters whose ranks a team of a context holds: its own, or, saved, the one it will be restored to where that is known. -/
def rankCluster (c : Ctx) (t : Team) : Option Nat :=
  match t.saved with
  | none => some (clusterOf t.core)
  | some (cl, d) => ((c.dies[d]?).getD none).map (fun die => 3 * die + cl % 3)

/-- The lowest rank in a cluster that no other team of the context holds (R67). -/
def freeRank (s : State) (c : Ctx) (cluster : Nat) : Nat :=
  let held := (s.teams.filter (fun t => t.ctx == c.id && rankCluster c t == some cluster)).map (·.rank)
  ((List.range (held.length + 1)).find? (fun r => !held.contains r)).getD 0

/-- The lowest free wave slots of a core. -/
def freeSlots (s : State) (core n : Nat) : List Nat :=
  let used := (s.waves.filter (fun (w : Wave) => w.core == core && isLive w && resident (getTeam s w.team))).map (·.slot)
  ((List.range 16).filter (fun k => !used.contains k)).take n

/-- The wave slots of a team's waves, by half. -/
def teamSlots (s : State) (t : Shape) (core : Nat) : List (Nat × Nat) :=
  (freeSlots s core (t.half 0).length).map (fun k => (core, k)) ++ (freeSlots s (core + 1) (t.half 1).length).map (fun k => (core + 1, k))

/-- The role number of a wave, by a role map (R25). -/
def roleOf (roles : List Role) (i : Nat) : Nat := (indexOf? (fun (r : Role) => decide (r.first ≤ i) && decide (i ≤ r.last)) roles).getD 0

/-- A team placed on a core, with its waves (R23, R24, R207, R256). -/
def placeTeam (s : State) (c : Ctx) (kind : TeamKind) (index : Nat) (t : Shape) (roles : List Role) (k : Kernel) (prio depth : Nat)
    (scope : W64) (fsw : Bool) (core : Nat) : State :=
  let s1 := moveCursor (allocAnnex s c.id (dieOf core) none) c.id core t.pair
  let id := s1.nextId
  let n := t.counts.length
  let slots := teamSlots s1 t core
  let waves : List Wave := (List.range n).map (fun i =>
    let (co, sl) := (slots[i]?).getD (core, 0)
    let before := ((t.counts.take i).foldl (· + ·) 0) * t.width
    newWave (id + 1 + i) c.id id i (roleOf roles i) co sl ((t.counts[i]?).getD 8) prio depth scope fsw k (s1.free + before) s1.clk)
  let team : Team :=
    { id := id, ctx := c.id, kind := kind, index := index, core := core, pair := t.pair, rank := freeRank s1 (getCtx s1 c.id) (clusterOf core),
      prio := prio, kernel := k, shelfSize := t.shelf, shelf := [], waves := waves.map (·.id), pools := [0, 0], claims := [[], []],
      bars := List.replicate 16 (newBarrier n), bounds := List.replicate 16 newBound, saved := none, imageKept := true, order := id }
  let s2 : State := { s1 with
    teams := s1.teams ++ [team], waves := s1.waves ++ waves, nextId := id + 1 + n,
    free := s1.free + (t.counts.foldl (· + ·) 0) * t.width }
  modCtx s2 c.id (fun x => { x with since := some (x.since.getD s.ns) })

/-! ### Task descriptors (R252) -/

/-- A task descriptor. -/
structure TaskDesc where
  entry : W64
  scope : W64
  width : Nat
  regs : Nat
  shelf : Nat
  lanes : Nat
  args : List W64
  deriving DecidableEq, Repr

/-- A task descriptor of 192 bytes; none where a field is outside its range or a reserved byte is set. -/
def taskDesc (l : List Byte) : Option TaskDesc :=
  let d : TaskDesc :=
    { entry := w64 (fld l 0 8), scope := w64 (fld l 8 8), width := fld l 0x10 2, regs := fld l 0x12 2,
      shelf := fld l 0x14 4, lanes := fld l 0x18 2, args := (List.range 16).map (fun i => w64 (fld l (0x40 + 8 * i) 8)) }
  if d.width % 32 = 0 ∧ 32 ≤ d.width ∧ d.width ≤ 1024 ∧ d.regs % 8 = 0 ∧ 8 ≤ d.regs ∧ d.regs ≤ 256 ∧ d.shelf % 256 = 0 ∧ d.shelf ≤ 393216
      ∧ 1 ≤ d.lanes ∧ d.lanes ≤ d.width ∧ fld l 0x1A 38 = 0 then some d
  else none

/-- The shape of a task: one wave. -/
def taskShape (d : TaskDesc) : Shape := { pair := false, lead := 1, counts := [d.regs], spare := [0, 0], width := d.width, shelf := d.shelf }

/-- The kernel that a task descended from a kernel runs (R252): its sections and policy, with the task's own entry. -/
def taskKernel (k : Kernel) (d : TaskDesc) (fromFsw : Bool) : Kernel :=
  { k with exec := d.entry, width := d.width, lanes := d.lanes, args := d.args, fromFsw := fromFsw }

end Sys2Proof.Machine
end

