-- ==== Sys2Proof/Machine/Task.lean ====
section
/-! DEFINITION. Tasks and scopes (R31 to R39, R252 to R255), named barriers (R256, R257), GIVE and CLAIM (R27, R28, R258), HWAIT, WAITT
and ELECT (R259 to R261), and the acceptance of a task. -/

namespace Sys2Proof.Machine

/-! ### SPAWN (R31, R252) -/

/-- Whether a scope or an ancestor of it is cancelled. -/
def underCancel (c : Ctx) (r : ScopeRec) : Bool := c.scopes.any (fun x => x.cancelled && inSubtree c 17 r.slot x.slot)

/-- Whether the child of a task descriptor fits on some core of a cluster (R23). -/
def taskFits (s : State) (c : Ctx) (cluster : Nat) (d : TaskDesc) : Bool :=
  (List.range 16).any (fun k => emptyFits s c (taskShape d) (16 * cluster + k))

/-- The status of SPAWN (R31), the first that applies in the order 5, 1, 2, 3, 4. -/
def spawnStatus (s : State) (v : Wave) (d : TaskDesc) (scope : W64) : Nat :=
  let c := getCtx s v.ctx
  match findScope c scope with
  | none => 5
  | some r =>
    if underCancel c r then 1
    else if 8 ≤ v.depth then 2
    else if 2048 ≤ (s.tasks.filter (fun t => t.cluster == clusterOf v.core)).length then 3
    else if !taskFits s c (clusterOf v.core) d then 4
    else 0

/-- The kernel of a wave's team. -/
def kernelOf (s : State) (v : Wave) : Kernel := (getTeam s v.team).kernel

/-- The task of a SPAWN that takes status 0, with its slip. -/
def spawnTask (s : State) (v : Wave) (i : Instr) (d : TaskDesc) (scope : W64) : State :=
  let t : Task :=
    { id := s.nextId, ctx := v.ctx, cluster := clusterOf v.core, scope := scope, kernel := taskKernel (kernelOf s v) d (v.fsw || (kernelOf s v).fromFsw),
      cnt := d.regs, shelf := d.shelf, depth := v.depth + 1, prio := v.prio, wave := v.id, tag := v.hz.tag, accepted := false,
      order := s.nextId, since := s.ns }
  newSlip { s with nextId := s.nextId + 1, tasks := s.tasks ++ [t] } v i (.spawn t.id)

/-- The effect of SPAWN: the descriptor read and checked, the status written, the task handed over. -/
def spawnBody (w : GenW) (s : State) (v : Wave) : Out × Option Latch :=
  match recAt s v (scalarOp s v w.hdr.lit w.a) 64 24 with
  | .error o => (o, none)
  | .ok l => match taskDesc l with
    | none => (.trap s (precise 0x01), none)
    | some d =>
      let scope := if d.scope = 0 then v.scope else d.scope
      let st := spawnStatus s v d scope
      let wr (x : State) : Out × Option Latch :=
        match findWave x v.id with
        | some y => writeOut x y { s := [(sNum w.dst, w64 st)] } w.hdr.nwb
        | none => (.done x, none)
      if st ≠ 0 then wr s
      else if !slipRoom v then (.stay s .stall, none)
      else wr (spawnTask s v (.spawn w) d scope)

/-- SPAWN (R252). -/
def execSpawn (w : GenW) (s : State) : Host.Outcome State Fault Refusal := issueR (.spawn w) s (spawnBody w)

/-! ### Scopes that are freed (R33) -/

/-- Whether nothing of a scope's subtree is left: its waves have retired, its operations have ended, no task of it is queued, and it has
no child scope. -/
def scopeIdle (s : State) (c : Ctx) (slot : Nat) : Bool :=
  s.waves.all (fun (w : Wave) => w.ctx != c.id || !isLive w || !idInSubtree c w.scope slot)
    && s.ops.all (fun o => o.ctx != c.id || !idInSubtree c o.scope slot)
    && s.tasks.all (fun t => t.ctx != c.id || !idInSubtree c t.scope slot)
    && !(c.scopes.any (fun r => r.parent == some slot))

/-- Whether a scope that is not cancelled has no more use: its opener has retired, or its grid has ended. -/
def scopeDone (s : State) (r : ScopeRec) : Bool :=
  match r.grid, r.opener with
  | some g, _ => !(s.grids.any (fun x => x.id == g && !x.ended))
  | none, some w => match findWave s w with | some x => !isLive x | none => true
  | none, none => false

/-- A scope's record removed: its identifier is free. -/
def dropScope (s : State) (ctx slot : Nat) : State :=
  modCtx s ctx (fun c => { c with scopes := c.scopes.filter (fun r => r.slot != slot) })

/-- Scopes that are not cancelled, whose subtree has quiesced and that have no more use, freed one after another (R33). -/
def freeScopes : Nat → State → Nat → State
  | 0, s, _ => s
  | f + 1, s, ctx =>
    let c := getCtx s ctx
    match c.scopes.find? (fun r => !r.cancelled && scopeDone s r && scopeIdle s c r.slot) with
    | some r => freeScopes f (dropScope s ctx r.slot) ctx
    | none => s

/-- Every scope of a context that R33 lets go, freed. -/
def freeAll (s : State) (ctx : Nat) : State := freeScopes ((getCtx s ctx).scopes.length + 1) s ctx

/-! ### The acceptance of a task (R31) -/

/-- The cause with which a task's entry is not executable (R31). -/
def entryCause (s : State) (c : Ctx) (pc : W64) : Option Nat :=
  match fetchXlate s c pc with
  | .ok _ => none
  | .error (.trap cause _) => some cause
  | .error (.park _ _ _ cause) => some cause

/-- TASK_ACCEPT (R31): the pool accepts the task and the slip resolves, or the SPAWN fails because the entry is not executable; a scope whose last
work the task was is freed (R33). -/
def execTaskAccept (task : Nat) (s : State) : Host.Outcome State Fault Refusal :=
  match s.tasks.find? (fun t => t.id == task) with
  | none => .next s
  | some t =>
    if t.accepted then .next s
    else match entryCause s (getCtx s t.ctx) t.kernel.exec with
      | some cause => .next (freeAll (slipFail { s with tasks := s.tasks.filter (fun x => x.id != task) } t.wave t.tag cause t.kernel.exec 0) t.ctx)
      | none => .next (slipOk { s with tasks := s.tasks.map (fun x => if x.id = task then { x with accepted := true } else x) } t.wave t.tag)

/-! ### CSCOPE, CANCEL, KPOLL (R33, R253 to R255) -/

/-- The lowest free scope slot of a context, among the 65,536. -/
def freeScope (c : Ctx) : Option Nat :=
  if 65536 ≤ c.scopes.length then none
  else (List.range (c.scopes.length + 1)).find? (fun n => !(c.scopes.any (fun r => r.slot == n)))

/-- A scope opened in a free slot (R33): its generation is one more than the slot's last. -/
def openScope (s : State) (ctx slot depth : Nat) (parent : Option Nat) (counter : W64) (opener grid : Option Nat) : State × W64 :=
  let c := getCtx s ctx
  let last := assoc c.gens slot 0
  let gen := if last = 2 ^ 32 - 1 then 1 else last + 1
  let r : ScopeRec := { slot := slot, gen := gen, parent := parent, depth := depth, counter := counter, cancelled := false, quiesced := false,
                        opener := opener, grid := grid }
  (modCtx s ctx (fun x => { x with scopes := x.scopes ++ [r], gens := assocPut x.gens slot (some gen) }), scopeId r)

/-- The effect of CSCOPE: a child of %scope, or, in the fault-service wave, a root (R305). -/
def cscopeBody (w : GenW) (s : State) (v : Wave) : Out × Option Latch :=
  let ctr := scalarOp s v w.hdr.lit w.a
  let c := getCtx s v.ctx
  let parent := if v.fsw then none else findScope c v.scope
  let depth := match parent with | some r => r.depth + 1 | none => 1
  let res (x : State) (id : W64) : Out × Option Latch :=
    writeOut x v { s := [(sNum w.dst, id)], cc := some (ccZN v.regs.cc 64 id.toNat false) } w.hdr.nwb
  if ctr.toNat % 8 ≠ 0 then (.trap s (preciseAt 0x08 ctr), none)
  else if 16 < depth then res s 0x8000000000000001
  else match freeScope c with
    | none => res s 0x8000000000000002
    | some slot =>
      let (s1, id) := openScope s v.ctx slot depth (parent.map (·.slot)) ctr (some v.id) none
      res s1 id

/-- CSCOPE (R253). -/
def execCscope (w : GenW) (s : State) : Host.Outcome State Fault Refusal := issueR (.cscope w) s (cscopeBody w)

/-- The effect of CANCEL (R35). -/
def cancelBody (w : GenW) (s : State) (v : Wave) : Out × Option Latch :=
  let res (x : State) (st : Nat) : Out × Option Latch :=
    match findWave x v.id with
    | some y => writeOut x y { s := [(sNum w.dst, w64 st)] } w.hdr.nwb
    | none => (.done x, none)
  match findScope (getCtx s v.ctx) (scalarOp s v w.hdr.lit w.a) with
  | none => res s 2
  | some r => if r.cancelled then res s 1 else res (cancelMark s v.ctx r.slot) 0

/-- CANCEL (R254). -/
def execCancel (w : GenW) (s : State) : Host.Outcome State Fault Refusal := issueR (.cancel w) s (cancelBody w)

/-- What KPOLL writes: imm 0 names the issuing wave's %scope (R255). -/
def kpollValue (s : State) (v : Wave) (w : GenW) : Nat :=
  let id := if w.a = .imm 0 then v.scope else scalarOp s v w.hdr.lit w.a
  match findScope (getCtx s v.ctx) id with
  | some r => if r.cancelled then 1 else 0
  | none => 2

/-- KPOLL (R255). -/
def execKpoll (w : GenW) (s : State) : Host.Outcome State Fault Refusal :=
  issueEff (.kpoll w) s (fun s v =>
    { s := [(sNum w.dst, w64 (kpollValue s v w))], cc := some (ccZ v.regs.cc (kpollValue s v w == 0)) })

/-! ### Barriers (R256, R257) -/

/-- A barrier of a wave's team. -/
def barOf (s : State) (v : Wave) (n : Nat) : Barrier := ((getTeam s v.team).bars[n]?).getD (newBarrier 0)

/-- The arrival of a wave at a barrier with the landings it expects: its phase is noted, and the phase completes when it can. -/
def arrive (s : State) (v : Wave) (n land : Nat) : State :=
  let b := barOf s v n
  let s1 := modTeam s v.team (fun t => { t with bars := setAt t.bars n { b with arrived := b.arrived ||| waveBit v.idx, bal := b.bal + land } })
  barCheck (modWave s1 v.id (fun x => { x with ctl := { x.ctl with barPhase := setAt x.ctl.barPhase n (some b.phase) } })) v.team n

/-- BARS and BARA: their checks, the stall of a wave already arrived, that of an arrival, a release at scope .t, until the wave's earlier stores whose
data is still to be read have been made (R75, R130, R256), the arrival; BARS waits for its phase. -/
def barBody (w : GenW) (wait : Bool) (s : State) (v : Wave) : Out :=
  let n := (scalarOp s v w.hdr.lit w.a).toNat
  let land := (scalarOp s v w.hdr.lit w.b).toNat
  if 16 ≤ n ∨ 2 ^ 16 ≤ land then .trap s (precise 0x01)
  else if (barOf s v n).arrived &&& waveBit v.idx ≠ 0 ∨ releaseWaits s v then .stay s .stall
  else
    let ph := (barOf s v n).phase
    let s1 := arrive s v n land
    if wait && (barOf s1 v n).phase == ph then .leave s1 (.bars n ph) else .done s1

/-- BARS (R257). -/
def execBars (w : GenW) (s : State) : Host.Outcome State Fault Refusal := issue (.bars w) s (barBody w true)

/-- BARA (R257). -/
def execBara (w : GenW) (s : State) : Host.Outcome State Fault Refusal := issue (.bara w) s (barBody w false)

/-- The effect of BARW: it waits while the phase of the wave's latest arrival is the barrier's present one. -/
def barwBody (w : GenW) (s : State) (v : Wave) : Out :=
  let n := (scalarOp s v w.hdr.lit w.a).toNat
  if 16 ≤ n then .trap s (precise 0x01)
  else match (v.ctl.barPhase[n]?).getD none with
    | none => .done s
    | some ph => if (barOf s v n).phase = ph then .stay s (.barw n ph) else .done s

/-- BARW (R257). -/
def execBarw (w : GenW) (s : State) : Host.Outcome State Fault Refusal := issue (.barw w) s (barwBody w)

/-! ### GIVE and CLAIM (R26 to R28, R258) -/

/-- Whether an issued instruction of a wave still reads or writes a register of a range (R27): sources of lazy reads and of packets whose
retransmission would read them again (R320), loads that have not returned, MMAs in flight: the leader's sources until they have been read, the twin's
until the retirement (R216). -/
def rangeBusy (s : State) (v : Wave) (lo n : Nat) : Bool :=
  let inR (r : Nat) : Bool := decide (lo ≤ r) && decide (r < lo + n)
  (pendingRegs v).any (fun r => r.1 == 0 && inR r.2)
    || v.hz.lazies.any (fun z => z.oldV.any (fun p => inR p.1))
    || s.fab.out.any (fun p => (match p.owner with | .slip w _ => w == v.id | _ => false) && p.srcs.any inR)
    || s.mmas.any (fun m =>
      let d := (m.d, fragRegs m.shape 2)
      let ac := [(m.a, fragRegs m.shape 0), (m.c, fragRegs m.shape 2)]
      (m.leader == v.id && (rangeRegs (d :: (if m.lazyLeft then (m.b, fragRegs m.shape 1) :: ac else []))).any (fun r => inR r.2))
        || (m.twin == v.id && (rangeRegs (d :: ac)).any (fun r => inR r.2)))

/-- A wave's range changed: registers above it are lost, new ones read zero. -/
def setCount (v : Wave) (c : Nat) : Wave :=
  { v with regs := { v.regs with
      cnt := c, v := (v.regs.v.take c) ++ List.replicate (c - v.regs.v.length) (List.replicate v.width 0),
      poison := v.regs.poison.filter (fun p => decide (p.1 < c)) } }

/-- The free registers of a wave's half moved by a function. -/
def modPool (s : State) (v : Wave) (f : Nat → Nat) : State :=
  modTeam s v.team (fun t => let h := halfOf t v.idx; { t with pools := setAt t.pools h (f ((t.pools[h]?).getD 0)) })

/-- The CLAIM queue of a wave's half. -/
def claimQueue (s : State) (v : Wave) : List Nat := ((getTeam s v.team).claims[halfOf (getTeam s v.team) v.idx]?).getD []

/-- Whether a half's pool has `n` free registers. -/
def poolHas (s : State) (v : Wave) (n : Nat) : Bool := decide (n ≤ ((getTeam s v.team).pools[halfOf (getTeam s v.team) v.idx]?).getD 0)

/-- Registers taken from the pool by a wave, which leaves the queue. -/
def takeRegs (s : State) (v : Wave) (n : Nat) : State :=
  let s1 := claimLeave (modPool s v (fun p => p - n)) v
  modWave s1 v.id (fun x => setCount x (x.regs.cnt + n))

/-- Waiting CLAIMs of a wave's half served in the order they issued (R28); one whose scope is cancelled never leaves its wait (R35).
`fuel` bounds them. -/
def serveClaims : Nat → State → Wave → State
  | 0, s, _ => s
  | f + 1, s, v =>
    match claimQueue s v with
    | [] => s
    | id :: _ => match findWave s id with
      | none => s
      | some x => match x.ctl.wait with
        | .claim n =>
          if poolHas s x n && !killDue s x then
            match insAt s x x.ctl.pc with
            | some i => serveClaims f (finish x i none (.done (takeRegs s x n))) v
            | none => s
          else s
        | _ => s

/-- The effect of GIVE: it waits until nothing issued uses the range, then releases it. -/
def giveBody (w : GenW) (s : State) (v : Wave) : Out :=
  let n := (scalarOp s v w.hdr.lit w.a).toNat
  if n = 0 then .done s
  else if n % 8 ≠ 0 ∨ v.regs.cnt < n + 8 then .trap s (precise 0x01)
  else if rangeBusy s v (v.regs.cnt - n) n then .stay s (.give n)
  else .done (serveClaims 16 (modPool (modWave s v.id (fun x => setCount x (x.regs.cnt - n))) v (fun p => p + n)) v)

/-- GIVE (R258). -/
def execGive (w : GenW) (s : State) : Host.Outcome State Fault Refusal := issue (.give w) s (giveBody w)

/-- GIVE_RELEASE (R27): a waiting GIVE whose registers nothing uses any more releases them and completes. -/
def execGiveRelease (wave : Nat) (s : State) : Host.Outcome State Fault Refusal :=
  match findWave s wave with
  | none => .next s
  | some v => match v.ctl.wait, insAt s v v.ctl.pc with
    | .give _, some (.give g) => .next (finish v (.give g) none (giveBody g s v))
    | _, _ => .next s

/-- The effect of CLAIM: the registers at once, or a place in the queue. -/
def claimBody (w : GenW) (s : State) (v : Wave) : Out :=
  let n := (scalarOp s v w.hdr.lit w.a).toNat
  if n = 0 then .done s
  else if n % 8 ≠ 0 ∨ 256 < v.regs.cnt + n then .trap s (precise 0x01)
  else
    let q := claimQueue s v
    if (q.isEmpty || q.head? == some v.id) && poolHas s v n then .done (takeRegs s v n)
    else if q.contains v.id then .stay s (.claim n)
    else .stay (modTeam s v.team (fun t => let h := halfOf t v.idx; { t with claims := setAt t.claims h (((t.claims[h]?).getD []) ++ [v.id]) })) (.claim n)

/-- CLAIM (R258). -/
def execClaim (w : GenW) (s : State) : Host.Outcome State Fault Refusal := issue (.claim w) s (claimBody w)

/-! ### HWAIT, WAITT, ELECT (R48, R130, R259 to R261) -/

/-- The effect of HWAIT: the tag is taken at its issue. -/
def hwaitBody (w : GenW) (s : State) (v : Wave) : Out :=
  let t := match v.ctl.wait with
    | .hwait x => x
    | _ => waitTag v (w32 (scalarOp s v w.hdr.lit w.a).toNat)
  if passed v t then .done s else .stay s (.hwait t)

/-- HWAIT (R259). -/
def execHwait (w : GenW) (s : State) : Host.Outcome State Fault Refusal := issue (.hwait w) s (hwaitBody w)

/-- The effect of WAITT. -/
def waittBody (w : GenW) (s : State) (v : Wave) : Out :=
  let m := (scalarOp s v w.hdr.lit w.a).toNat
  if bitAt m 0 then .trap s (precise 0x01)
  else if (List.range 7).any (fun j => bitAt m (j + 1) && slotHeld v (j + 1)) then .stay s .waitt else .done s

/-- WAITT (R260). -/
def execWaitt (w : GenW) (s : State) : Host.Outcome State Fault Refusal := issue (.waitt w) s (waittBody w)

/-- ELECT (R261). -/
def execElect (w : GenW) (s : State) : Host.Outcome State Fault Refusal :=
  issueEff (.elect w) s (fun _ v => mres v w (match firstLane (actOf v w.hdr.msk) v.width with | some i => oneLane i | none => 0))

end Sys2Proof.Machine
end

