-- ==== Sys2Proof/Machine/EvWave.lean ====
section
/-! DEFINITION. The events of waves, slips and scopes: kill (R35), retirement (R30, R41), machine checks (R40), quiescence of scopes
(R33, R39), the resolution of a slip (R43, R46), trap delivery (R53), fault records (R305, R306), NOPRE overruns (R65). -/

namespace Sys2Proof.Machine

/-! ### Counters of the device (R39, R278, R350) -/

/-- A counter of a context incremented by one with a release: a global address under the context's tables; an address of another
aperture as the wave that named it finds it. -/
def bumpFor (s : State) (c : Ctx) (opener : Option Nat) (a : W64) : State :=
  if aperOf a = .global then bumpGlobal s c a true
  else match opener.bind (findWave s) with
    | some v => bumpCounter s v a
    | none => lostIncrement s a

/-! ### Scopes that quiesce (R33, R39) -/

/-- SCOPE_QUIESCE_ACK (R39): a cancelled scope whose subtree has quiesced is acknowledged once and freed; a grid whose root it is can
end (R278). -/
def execScopeQuiesceAck (ctx slot : Nat) (s : State) : Host.Outcome State Fault Refusal :=
  let c := getCtx s ctx
  match c.scopes.find? (fun r => r.slot == slot) with
  | none => .next s
  | some r =>
    if r.cancelled && scopeIdle s c slot && decide (c.status < 2) then
      let s1 := if r.counter = 0 then s else bumpFor s c r.opener r.counter
      let s2 := dropScope s1 ctx slot
      let s3 : State := match r.grid with
        | some g => { s2 with grids := s2.grids.map (fun x => if x.id = g then { x with ended := true } else x) }
        | none => s2
      .next (freeAll s3 ctx)
    else .next s

/-! ### Kill and retirement -/

/-- WAVE_KILL (R35): a wave of a cancelled scope that waits at a kill point, is parked, or is saved, is killed. -/
def execWaveKill (wave : Nat) (s : State) : Host.Outcome State Fault Refusal :=
  match findWave s wave with
  | none => .next s
  | some w =>
    let at_ := match w.ctl.st with
      | .parked | .preempted => true
      | .waiting | .suspended => killableWait w
      | _ => false
    if killDue s w && at_ then .next (killWave s wave) else .next s

/-- Whether a retiring or killed wave can retire: its horizon has reached its last tag, its held stores have drained, and nothing it has
issued still uses its registers (R29, R41). -/
def retireReady (s : State) (w : Wave) : Bool :=
  (w.ctl.st == .retiring || w.ctl.st == .killed) && w.hz.slips.isEmpty && w.hz.held.isEmpty && w.hz.lazies.isEmpty
    && !(s.mmas.any (fun m => m.leader == w.id || m.twin == w.id)) && !(atBoundary w && (pendingTrap w).isSome)

/-- A team whose waves have all retired gives back its core (R41). -/
def endTeam (s : State) (team : Nat) : State :=
  let t := getTeam s team
  let ws := s.waves.filter (fun (w : Wave) => w.team == team)
  if ws.isEmpty || ws.any isLive then s
  else
    let s1 : State := { s with
      waves := s.waves.filter (fun (w : Wave) => w.team != team),
      teams := s.teams.filter (fun x => x.id != team),
      poison := s.poison.filter (fun p => p.1 != .shelf team && ws.all (fun w => p.1 != .stack w.id)),
      grids := match t.kind with
        | .grid g => s.grids.map (fun x => if x.id = g then { x with live := x.live - 1 } else x)
        | _ => s.grids }
    modCtx s1 t.ctx (fun c => { c with since := if s1.teams.any (fun x => x.ctx == c.id && resident x) then c.since else none })

/-- A wave that retires: its registers return to the pool, its slot and lanes to its core; a halting wave ends its context (R158). -/
def retireWave (s : State) (w : Wave) : State :=
  let w1 : Wave := { w with
    regs := { w.regs with cnt := 0, v := [] }, stack := [], queues := [[], [], [], []], popped := [],
    ctl := { w.ctl with st := .retired, wait := .idle }, slice := { w.slice with stopped := true } }
  let s1 := modPool (putWave s w1) w (fun p => p + w.regs.cnt)
  let s2 := if w.fsw then modCtx s1 w.ctx (fun c => { c with fswWave := none }) else s1
  let s3 := serveClaims 16 s2 w
  let s4 := if (getCtx s3 w.ctx).haltWave = some w.id then endCtx s3 w.ctx else haltCheck s3 w.ctx
  freeAll (endTeam s4 w.team) w.ctx

/-- WAVE_RETIRE (R30, R41). -/
def execWaveRetire (wave : Nat) (s : State) : Host.Outcome State Fault Refusal :=
  let s1 := settleAll s wave
  match findWave s1 wave with
  | some w => if retireReady s1 w then .next (retireWave s1 w) else .next s1
  | none => .next s

/-- WAVE_STATE_MACHINE_CHECK (R40, R331, R336): 0x30 becomes pending, and an uncorrected record goes to the cluster's bank. -/
def execWaveStateMachineCheck (wave : Nat) (s : State) : Host.Outcome State Fault Refusal :=
  match findWave s wave with
  | none => .next s
  | some w => match w.ctl.st with
    | .killed | .retired | .preempted => .next s
    | _ =>
      let s1 := rowRecord s (some (.row w.core)) (clusterOf w.core) 3 5 none none (miscOf w.core w.slot)
      .next (modWave s1 wave (fun x => { x with hz := { x.hz with machineCheck := true } }))

/-! ### Slips (R43, R46, R309) -/

/-- The lanes of elements, among a mask, that the CXL tier holds, or not. -/
def tierLanes (els : List Elem) (m : Mask) (tier : Bool) : Mask :=
  maskOf ((els.filter (fun e => m.getLsbD e.lane && (match e.site with | .link .cxl _ => tier | _ => !tier))).map (·.lane))

/-- The part of an access over a link ends: performed, with poison in the data that came back, or failed on some lanes: those of the CXL tier with
0x10 (R309), those of the host link with 0x11 when the link says so, else 0x10. -/
def linkEnds (s : State) (w : Wave) (x : Slip) (a : Access) (got : List Got) (r : Reply) : State :=
  let part := linkPart a got
  let c := getCtx s w.ctx
  let (pm, bad, cause) : Mask × Mask × Nat := match r with
    | .done m => (if a.kind == .store then 0 else m, 0, 0)
    | .failed cause m => (0, m, if cause = 0x11 then 0x11 else 0x10)
  let skip := if kAtomic a.kind then pm ||| bad else bad
  let (s1, g) := perform s w.core c { a with elems := part.filter (fun e => !skip.getLsbD e.lane) } true
  let g1 := g.map (fun q => if pm.getLsbD q.lane then { q with poison := true } else q)
  let lost : List Got := if kAtomic a.kind then (part.filter (fun e => pm.getLsbD e.lane)).map (fun e =>
    { lane := e.lane, piece := e.piece, val := 0, poison := true }) else []
  let fails (y : Slip) (cause : Nat) (m : Mask) : Slip := if m = 0 then y else addFail y cause 0 m 0
  let s2 := modSlip s1 w.id x.tag (fun y =>
    let z : Slip := { y with op := .mem a (got ++ g1 ++ lost) false }
    fails (fails z 0x10 (tierLanes part bad true)) cause (tierLanes part bad false))
  settleAll s2 w.id

/-- Whether the part of an access over a link waits: for an earlier access of its wave (R75), or, of an acquire load or an atomic, for the commit
of a line (R83). -/
def linkWaits (s : State) (w : Wave) (tag : W32) (a : Access) (got : List Got) : Bool :=
  waitsBehind s w (some tag) (linkPart a got) || (!s.pending.isEmpty && (kAtomic a.kind || acquires a) && (linkPart a got).any (inPending s))

/-- Whether a link refuses an access or lets it time out. -/
def replyFails : Reply → Bool
  | .failed _ _ => true
  | .done _ => false

/-- SLIP_RESOLVE (R46): the part of an access over a link ends; the data of an NPUT leaves, or is refused by the link that it lies over (R309); a
request that has waited for its connection context or the window is sent; a flush with nothing left resolves. -/
def execSlipResolve (wave : Nat) (tag : W32) (reply : Reply) (s : State) : Host.Outcome State Fault Refusal :=
  match findWave s wave, findSlip s wave tag with
  | some w, some x =>
    if x.ended ∨ x.held then .next s
    else match x.op with
      | .mem a got true => if lazyLeft w tag ∨ linkWaits s w tag a got then .next s else .next (linkEnds s w x a got reply)
      | .mem _ _ false => .next (settleAll s wave)
      | .net m => match s.net.msgs.find? (fun y => y.id == m) with
        | some y =>
          if y.failure.isSome ∨ y.parts.all (·.sent) then .next s
          else if y.op = .put then .next (if replyFails reply && overLinks s (getCtx s y.ctx) y.laddr y.len then msgFail s y 0x10 else putLeaves s y)
          else .next (getLeaves s y)
        | none => .next s
      | .flush conn _ => .next (flushAll s conn)
      | .engine _ | .spawn _ => .next s
  | _, _ => .next s

/-! ### Traps and fault records -/

/-- TRAP_DELIVERY (R53, R352): the pending trap that comes first is taken at the wave's boundary; a wave that waits at a kill point and is to be
killed there never leaves that wait (R35). -/
def execTrapDelivery (wave : Nat) (s : State) : Host.Outcome State Fault Refusal :=
  match findWave s wave with
  | some w =>
    if killableWait w && killDue s w then .next (killWave s wave)
    else if atBoundary w then (match pendingTrap w with
      | some t => .next (takeTrap s wave t)
      | none => .next s)
    else .next s
  | none => .next s

/-- The 64 bytes of a fault record (R306). -/
def recordBytes (p : Park) : List Byte :=
  natToBytes 8 p.token.toNat ++ natToBytes 8 p.vaddr.toNat ++ natToBytes 8 p.pc.toNat ++ natToBytes 1 p.kind ++ natToBytes 1 p.level
    ++ natToBytes 1 p.access ++ natToBytes 1 p.prist ++ natToBytes 2 p.asid ++ natToBytes 2 p.nlanes ++ natToBytes 8 p.entry.toNat
    ++ natToBytes 8 p.eaddr.toNat ++ natToBytes 16 0

/-- The fault queue of a context's service wave: base, records, and the addresses of the counts (R305). -/
def faultQueue (s : State) (c : Ctx) : Option (W64 × Nat × W64 × W64) :=
  match c.fswWave.bind (findWave s) with
  | some v =>
    let a := (kernelOf s v).args
    some ((a[0]?).getD 0, ((a[1]?).getD 0).toNat, (a[2]?).getD 0, (a[3]?).getD 0)
  | none => none

/-- FAULT_RECORD_WRITE (R305): the record of the wave whose park is the oldest unwritten one goes to the ring, when it has room. -/
def execFaultRecordWrite (wave : Nat) (s : State) : Host.Outcome State Fault Refusal :=
  match findWave s wave with
  | none => .next s
  | some w =>
    let c := getCtx s w.ctx
    match w.ctl.park, faultQueue s c with
    | some p, some (base, n, prod, cons) =>
      let asks := ctxAsks s c prod 8 true ++ ctxAsks s c cons 8 false
      if p.written ∨ c.records.head? ≠ some wave ∨ n = 0 then .next s
      else if !asks.isEmpty then .next (askAll s c asks)
      else match ctxNat s c prod 8, ctxNat s c cons 8 with
        | some k, some l =>
          let at_ := base + w64 (64 * (k % n))
          if !(ctxAsks s c at_ 64 true).isEmpty then .next (askAll s c (ctxAsks s c at_ 64 true))
          else if (k + 2 ^ 64 - l) % 2 ^ 64 < n then
            let s1 := ctxPut s c (base + w64 (64 * (k % n))) (recordBytes p)
            let s2 := ctxPut s1 c prod (natToBytes 8 ((k + 1) % 2 ^ 64))
            let s3 := modWave s2 wave (fun x => { x with ctl := { x.ctl with park := some { p with written := true } } })
            .next (modCtx s3 w.ctx (fun c => { c with records := c.records.filter (fun x => x != wave) }))
          else .next s
        | _, _ => .next (heardAll (heardAll s c prod 8 true) c cons 8 false)
    | _, _ => .next s

/-- NOPRE_OVERRUN (R65): 2 ms after its NOPRE a region closes, and 0x19 becomes pending. -/
def execNopreOverrun (wave : Nat) (s : State) : Host.Outcome State Fault Refusal :=
  match findWave s wave with
  | some w => match w.ctl.nopre with
    | some t =>
      if t + nopreLimit ≤ s.ns then
        .next (putWave s { w with ctl := { w.ctl with nopre := none }, hz := { w.hz with overrun := true } })
      else .next s
    | none => .next s
  | none => .next s

end Sys2Proof.Machine
end

