-- ==== Sys2Proof/Machine/EvEngine.lean ====
section
/-! DEFINITION. The engines at work (R85 to R87, R242 to R247, R289 to R297): an operation's start, its 4 KiB chunks, its completion and
its abort. -/

namespace Sys2Proof.Machine

/-! ### Where an engine reads and writes (R242, R246) -/

/-- What an engine meets at an address: a place, a peer, a host page to ask for, or a fault (cause 0x14). -/
inductive EngAt
  | at_ (sp : Space) (o : Nat)
  | peer (id : BitVec 9)
  | ask (page : W64)
  | bad
  deriving DecidableEq, Repr

/-- The home of a team: the index of its cluster in the die and the die slot of its context (R68). -/
def teamHome (c : Ctx) (t : Team) : Nat × Option Nat :=
  match t.saved with
  | some (cl, d) => (cl % 3, some d)
  | none => (clusterOf t.core % 3, slotOfDie c (dieOf t.core))

/-- The team that holds a rank in the cluster of an operation's own team. -/
def rankMate (s : State) (c : Ctx) (o : EngOp) (r : Nat) : Option Team :=
  s.teams.find? (fun t => t.ctx == c.id && t.rank == r && teamHome c t == teamHome c (getTeam s o.team))

/-- Where an engine finds `n` bytes of a global address: a fault is not replayable (R242). -/
def engGlobal (s : State) (c : Ctx) (a : W64) (write : Bool) : EngAt :=
  match translate s c.asid c.ptroot a.toNat write with
  | .leaf e =>
    let l := e.leaf.toNat
    if !(if write then leafW l else leafR l) then .bad
    else if leafManaged l && !leafPinned l then .bad
    else match leafAper l with
      | 0 => .at_ .hbm (frameAddr e a.toNat)
      | 1 => .peer (BitVec.ofNat 9 (leafPeer l))
      | 2 => if frameAddr e a.toNat < s.cxltSize * 2 ^ 30 then .at_ .cxl (frameAddr e a.toNat) else .bad
      | _ =>
        let page := w64 (frameAddr e a.toNat / 4096 * 4096)
        match hostPage s c.asid page write with
        | .at_ f => .at_ .host (f + frameAddr e a.toNat % 4096)
        | .refused => .bad
        | .unknown => .ask page
  | _ => .bad

/-- Where an engine operation finds `n` bytes of an address. -/
def engAt (s : State) (o : EngOp) (a : W64) (n : Nat) (write : Bool) : EngAt :=
  let c := getCtx s o.ctx
  match aperOf a with
  | .global => engGlobal s c a write
  | .shelf off => if off + n ≤ (getTeam s o.team).shelfSize then .at_ (.shelf o.team) off else .bad
  | .cshelf r off => match rankMate s c o r with
    | some t => if off + n ≤ t.shelfSize then .at_ (.shelf t.id) off else .bad
    | none => .bad
  | .annex off => match o.slot with
    | some d => if off + n ≤ c.annexSize then .at_ (.annex o.ctx d) off else .bad
    | none => .bad
  | .stack off => if off + n ≤ 2 ^ 20 then .at_ (.stack o.wave) off else .bad
  | .none => .bad

/-- An engine operation changed in place. -/
def modOp (s : State) (id : Nat) (f : EngOp → EngOp) : State := { s with ops := s.ops.map (fun o => if o.id = id then f o else o) }

/-- The packets of an engine operation that are not answered. -/
def opPackets (s : State) (id : Nat) : List OutPkt := s.fab.out.filter (fun p => p.owner == .engine id)

/-! ### Sources (R289, R291, R295, R297) -/

/-- What a source gives: a value with the first poisoned line it came from, the places of forbidden pairings, and the first address read over a
link; an element of a peer that is still to be fetched; a host page to ask for; or a fault. -/
inductive Src
  | val (x : Nat) (poison : Option (Nat × W64)) (forb : List Nat) (far : Option W64)
  | fetch (a : W64) (t : Ty) (id : BitVec 9)
  | ask (page : W64)
  | bad (a : W64) (cause : Nat) (peer : W32)
  deriving DecidableEq, Repr

/-- Whether a space lies beyond the CXL or host link. -/
def isLinkSpace : Space → Bool
  | .cxl | .host => true
  | _ => false

/-- An element of a type read by an engine. -/
def readSrc (s : State) (o : EngOp) (t : Ty) (a : W64) : Src :=
  match engAt s o a (tySize t) false with
  | .at_ sp off =>
    let no := forbidden s o.core sp off
    .val (readNat s sp off (tySize t)) (if no || isPoison s sp off then some (off / 64 * 64, a) else none) (if no then [off] else [])
      (if isLinkSpace sp then some a else none)
  | .peer p =>
    if portShut s o.core then .val 0 (some (a.toNat / 64 * 64, a)) [a.toNat] none
    else match o.fetched.find? (fun x => x.1 == a) with
    | some (_, x, pois) => .val (x.toNat % 2 ^ tyWidth t) (if pois then some (a.toNat / 64 * 64, a) else none) [] none
    | none => if peerUp s p.toNat then .fetch a t p else .bad a 0x11 (peerWord s p.toNat)
  | .ask p => .ask p
  | .bad => .bad a 0x14 0

/-- Element k of a record's box, zero bits where it is out of bounds. -/
def readBox (s : State) (o : EngOp) (r : Layout) (k : Nat) : Src :=
  let c := coordOf r.box k
  if inDims r.dim c then readSrc s o r.ty (layoutAddr r c) else .val 0 none [] none

/-- Two sources joined by a function of their values. -/
def joinSrc (a b : Src) (f : Nat → Nat → Nat) : Src :=
  match a, b with
  | .val x p l u, .val y q m v => .val (f x y) (p.orElse (fun _ => q)) (l ++ m) (u.orElse (fun _ => v))
  | .val .., r => r
  | r, _ => r

/-- The value of an index element as an integer. -/
def indexVal (t : Ty) (x : Nat) : Int := if tyIsI t then signed x (tyWidth t) else (x : Int)

/-- Element k of a gather (R291): the index as it stood at the start of the chunk, then the gathered element. -/
def gatherSrc (s0 s : State) (o : EngOp) (src ix : Layout) (k : Nat) : Src :=
  let m := boxCount src
  match readBox s0 o ix (k / m) with
  | .val x p l u =>
    let v := indexVal ix.ty x
    let c := coordOf src.box (k % m)
    let c1 := setAt c (src.rank - 1) v.toNat
    if 0 ≤ v ∧ inDims src.dim c1 then
      joinSrc (.val 0 p l u) (readSrc s o src.ty (layoutAddr src c1)) (fun _ y => y)
    else .val 0 p l u
  | r => r

/-- The 32-bit float that a chain command computes with (R295). -/
def chainF32 (t : Ty) (x : Nat) : Nat := roundTo (fmtOf .f32) .rn (valOf t x)

/-- One operation of a chain command. -/
def chainOp (c : Chain) (op : Nat) (w o : Nat) : Nat :=
  let f := fmtOf .f32
  let v (x : Nat) : FVal := fval f x
  match op with
  | 0 => roundTo f .rn (fadd .rn (v w) (v o))
  | 1 => roundTo f .rn (fadd .rn (v w) (fneg (v o)))
  | 2 => roundTo f .rn (fmul (v w) (v o))
  | 3 => roundTo f .rn (fminmax false (v w) (v o))
  | 4 => roundTo f .rn (fminmax true (v w) (v o))
  | 5 => roundTo f .rn (ffma .rn (v w) (v c.k0.toNat) (v o))
  | 6 => frcpTo f .rn (v w)
  | 7 => frsqTo f .rn (v w)
  | 8 => fexp2To f .rn (v w)
  | 9 => flog2To f .rn (v w)
  | 10 => roundTo f .rn (fneg (v w))
  | _ => if v w == .nan then roundTo f .rn .nan else w % 2 ^ 31

/-- The result of a chain command for one element (R295). -/
def chainElem (c : Chain) (x y : Nat) : Nat :=
  let w := c.ops.foldl (fun w p => chainOp c p.1 w (match p.2 with
    | 0 => chainF32 c.t1 y
    | 1 => c.k0.toNat
    | 2 => c.k1.toNat
    | _ => 0)) (chainF32 c.t0 x)
  cvtTo c.td .rn false (fval (fmtOf .f32) w)

/-- Element k of a chain command's destination stream. -/
def chainSrc (s : State) (o : EngOp) (c : Chain) (k : Nat) : Src :=
  let at_ (b : W64) (t : Ty) : Src := readSrc s o t (b + w64 (k * tySize t))
  joinSrc (at_ c.src0 c.t0) (if c.src1 = 0 then .val 0 none [] none else at_ c.src1 c.t1) (chainElem c)

/-- Element k of the destination traversal of an operation; `s0` is the state at the start of the chunk. -/
def engSrc (s0 s : State) (o : EngOp) (k : Nat) : Src :=
  match o.kind with
  | .copy src none _ => readBox s o src k
  | .copy src (some ix) _ => gatherSrc s0 s o src ix k
  | .multi src _ _ _ => readBox s o src k
  | .chain c => chainSrc s o c k

/-! ### Destinations -/

/-- The element type and the number of elements of an operation's destination traversal. -/
def engShape (o : EngOp) : Ty × Nat :=
  match o.kind with
  | .copy _ _ dst => (dst.ty, boxCount dst)
  | .multi src _ _ _ => (src.ty, boxCount src)
  | .chain c => (c.td, c.count)

/-- The number of chunks of an operation (R242). -/
def engChunks (o : EngOp) : Nat := ((engShape o).2 * tySize (engShape o).1 + 4095) / 4096

/-- The positions of chunk j. -/
def chunkElems (o : EngOp) (j : Nat) : List Nat :=
  let per := 4096 / tySize (engShape o).1
  (List.range per).filterMap (fun i => if per * j + i < (engShape o).2 then some (per * j + i) else none)

/-- The address that an element goes to, where its place is not fixed by a team's shelf. -/
def engDst (o : EngOp) (k : Nat) : Option W64 :=
  match o.kind with
  | .copy _ _ dst => let c := coordOf dst.box k; if inDims dst.dim c then some (layoutAddr dst c) else none
  | .multi _ _ _ _ => none
  | .chain c => some (c.dst + w64 (k * tySize c.td))

/-- The shelves, with the offset, that an element of a COPYM lands in. -/
def engShelves (s : State) (o : EngOp) (k : Nat) : List (Space × Nat) :=
  match o.kind with
  | .multi src off teams _ => (teams.filter (fun t => s.teams.any (fun x => x.id == t))).map (fun t => (Space.shelf t, off + k * tySize src.ty))
  | _ => []

/-! ### A chunk -/

/-- What a chunk has done so far: the state, the bytes written, the lines to be poisoned, the elements for peers with the lines there that take
poison, and what stopped it. -/
structure ChunkAcc where
  s : State
  written : List (Space × Nat)
  lines : List (Space × Nat)
  far : List Elem
  farPois : List Nat
  poison : Option (Nat × Nat × W64)
  fault : Option EngFault

/-- DIRTY of the leaf under which an engine has written an address (R304). -/
def dirtyOp (s : State) (o : EngOp) (a : Option W64) : State :=
  match a with
  | some a => dirtyAt s (getCtx s o.ctx) a
  | none => s

/-- One element written at a place, for an address if it has one; a forbidden pairing drops it (R342). -/
def putElem1 (b : ChunkAcc) (o : EngOp) (n : Nat) (sp : Space) (off : Nat) (a : Option W64) (x : Nat) (pois : Bool) : ChunkAcc :=
  if forbidden b.s o.core sp off then { b with s := noteForbidden b.s o.core off }
  else
    { b with
      s := dirtyOp (writeBytes b.s sp off (natToBytes n x)) o a,
      written := b.written ++ (List.range n).map (fun i => (sp, off + i)),
      lines := if pois then b.lines ++ [(sp, off / 64)] else b.lines }

/-- A chunk that has met its first fault. -/
def chunkFault (b : ChunkAcc) (off : Nat) (a : W64) (cause : Nat) (peer : W32) : ChunkAcc :=
  { b with fault := some { off := off, addr := a, cause := cause, peer := peer } }

/-- A value written to the destination of element k. -/
def chunkPut (o : EngOp) (b : ChunkAcc) (k x : Nat) (pois stop : Bool) : ChunkAcc :=
  let n := tySize (engShape o).1
  match engDst o k with
  | none => (engShelves b.s o k).foldl (fun c q => putElem1 c o n q.1 q.2 none x pois) b
  | some a => match engAt b.s o a n true with
    | .at_ sp off => if stop && isLinkSpace sp then chunkFault b (k * n) a 0x10 0 else putElem1 b o n sp off (some a) x pois
    | .peer id =>
      if portShut b.s o.core then { b with s := noteForbidden b.s o.core a.toNat }
      else if peerUp b.s id.toNat then
        { b with
          far := b.far ++ [{ lane := 0, piece := k, addr := a, site := .peer id, data := w64 x, cmp := 0 }],
          farPois := if pois then b.farPois ++ [a.toNat / 64] else b.farPois }
      else chunkFault b (k * n) a 0x11 (peerWord b.s id.toNat)
    | _ => chunkFault b (k * n) a 0x14 0

/-- Element k moved: its source read, its destination written; at the first fault the rest of the chunk is left out. `refused` names an element
whose access over a link is refused or times out (R309). -/
def chunkElem (s0 : State) (o : EngOp) (refused : Option Nat) (b : ChunkAcc) (k : Nat) : ChunkAcc :=
  let n := tySize (engShape o).1
  let stop := refused == some k
  if b.fault.isSome ∨ (engDst o k = none ∧ engShelves b.s o k = []) then b
  else match engSrc s0 b.s o k with
    | .val x p forb far =>
      let b1 : ChunkAcc := { b with
        s := forb.foldl (fun a i => noteForbidden a o.core i) b.s,
        poison := match b.poison, p with
          | none, some (l, a) => some (k * n, l, a)
          | q, _ => q }
      match stop, far with
      | true, some a => chunkFault b1 (k * n) a 0x10 0
      | _, _ => chunkPut o b1 k x p.isSome stop
    | .bad a cause peer => chunkFault b (k * n) a cause peer
    | _ => chunkFault b (k * n) ((engDst o k).getD 0) 0x14 0

/-- What a chunk has still to ask for before it can run: host pages, and elements of peers. -/
def chunkNeeds (s : State) (o : EngOp) (ks : List Nat) : List W64 × List Elem :=
  ks.foldl (fun (b : List W64 × List Elem) k =>
    let n := tySize (engShape o).1
    let b1 : List W64 := match engDst o k with
      | some a => match engAt s o a n true with | .ask p => b.1 ++ [p] | _ => b.1
      | none => b.1
    if engDst o k = none ∧ engShelves s o k = [] then (b1, b.2)
    else match engSrc s s o k with
      | .ask p => (b1 ++ [p], b.2)
      | .fetch a t id =>
        if b.2.any (fun e => e.addr == a) then (b1, b.2)
        else (b1, b.2 ++ [{ lane := 0, piece := k, addr := a, site := .peer id, data := w64 (tySize t), cmp := 0 }])
      | _ => (b1, b.2)) ([], [])

/-- An access of an engine operation to a peer. -/
def engAccess (kind : AccKind) (t : Ty) (els : List Elem) : Access :=
  { kind := kind, ty := t, order := .relaxed, scope := .s, wb := .none, vector := false, viaHandle := false, elems := els }

/-- The types that elements fetched from peers have, by their size. -/
def fetchTy : Nat → Ty
  | 1 => .n8 | 2 => .n16 | 4 => .n32 | _ => .n64

/-- Reads of the elements that a chunk needs from peers, one access for each size, and each only when its packets have room (R318). -/
def sendFetches (s : State) (o : EngOp) (els : List Elem) : State :=
  [1, 2, 4, 8].foldl (fun x n =>
    let l := els.filter (fun e => e.data == w64 n)
    let acc := engAccess .load (fetchTy n) l
    if l.isEmpty || !packetRoom x acc o.asid none then x else sendAll x acc o.asid none (.engine o.id) false) s

/-- The landings of a COPYM on its teams' barriers, once every byte of a team has been written (R246, R256). -/
def signalLandings (s : State) (o : EngOp) : State :=
  match o.kind with
  | .multi _ _ teams (some n) => teams.foldl (fun x t =>
      barCheck (modTeam x t (fun y => { y with bars := match y.bars[n]? with | some b => setAt y.bars n { b with bal := b.bal - 1 } | none => y.bars })) t n) s
  | _ => s

/-- The lines of a chunk's writes: those covered whole lose their poison, those that received derived bytes take it (R297, R332). -/
def chunkPoison (b : ChunkAcc) : State :=
  let sps := (b.written.map (·.1)).eraseDups
  let s1 := sps.foldl (fun x sp => clearPoison x sp ((b.written.filter (fun q => q.1 == sp)).map (·.2))) b.s
  b.lines.eraseDups.foldl (fun x q => addPoison x q.1 q.2) s1

/-- The packets made since a state mark the poisoned lines that they carry (R297). -/
def markPoison (s0 s : State) (lines : List Nat) : State :=
  if lines.isEmpty then s
  else { s with fab := { s.fab with out := s.fab.out.map (fun p =>
    if s0.nextId ≤ p.id then
      { p with poison := ((p.acc.elems.map (fun e => e.addr.toNat / 64)).eraseDups.filter (fun l => lines.contains l)).map (· % 64) }
    else p) } }

/-- The failure of elements of an engine operation on a peer: a fault at the first of them with the cause of R321. The first failure gives the
cause (R53), the lowest traversal offset the address. -/
def engFails (o : EngOp) (els : List Elem) (cause : Nat) (peer : W32) : EngOp :=
  match els with
  | [] => o
  | e :: r =>
    let low := r.foldl (fun (b : Elem) x => if x.piece < b.piece then x else b) e
    let off := low.piece * tySize (engShape o).1
    match o.fault with
    | some f => if off < f.off then { o with fault := some { f with off := off, addr := low.addr } } else o
    | none => { o with fault := some { off := off, addr := low.addr, cause := cause, peer := peer } }

/-- The elements of an operation that have still to leave for a peer, failed with a cause. -/
def farFails (cause p : Nat) (peer : W32) (o : EngOp) : EngOp :=
  let at_ (e : Elem) : Bool := e.site == .peer (BitVec.ofNat 9 p)
  if o.far.any at_ then { engFails o (o.far.filter at_) cause peer with far := o.far.filter (fun e => !at_ e) } else o

/-- The elements of an operation that have still to leave for peers: each packet for which its space has room leaves (R318); those whose peer
is down by then fail (R321). -/
def sendFar (s0 : State) (o0 : EngOp) : State :=
  let o := ((peersOf (engAccess .store (engShape o0).1 o0.far)).filter (fun p => !peerUp s0 p)).foldl
    (fun x p => farFails 0x11 p (peerWord s0 p) x) o0
  let s := modOp s0 o.id (fun x => { x with far := o.far, fault := o.fault })
  let acc := engAccess .store (engShape o).1 o.far
  let (s1, left) := ((peersOf acc).flatMap (packetsTo acc)).foldl (fun (b : State × List Elem) els =>
    let a := engAccess .store (engShape o).1 els
    if packetRoom b.1 a o.asid none then
      let s2 := els.foldl (fun y e => dirtyPeer y (getCtx y o.ctx) e) b.1
      (markPoison s2 (sendAll s2 a o.asid none (.engine o.id) false) o.farPois, b.2)
    else (b.1, b.2 ++ els)) (s, [])
  modOp s1 o.id (fun x => { x with far := left, farPois := if left.isEmpty then [] else x.farPois })

/-- The host's refusals that the faults of an operation have met, forgotten (log 92). -/
def heardFault (s : State) (o : EngOp) (f : Option EngFault) : State :=
  match f with
  | some f => heardAll (heardAll s (getCtx s o.ctx) f.addr 1 false) (getCtx s o.ctx) f.addr 1 true
  | none => s

/-- One chunk of an operation carried out. -/
def runChunk (s : State) (o : EngOp) (refused : Option Nat) : State :=
  let b := (chunkElems o o.chunk).foldl (chunkElem s o refused)
    { s := s, written := [], lines := [], far := [], farPois := [], poison := o.poison, fault := none }
  let o1 := { o with chunk := o.chunk + 1, fetched := [], poison := b.poison, fault := b.fault, far := b.far, farPois := b.farPois }
  let s1 := modOp (heardFault (chunkPoison b) o b.fault) o.id (fun _ => o1)
  let s2 := if b.far.isEmpty then s1 else sendFar s1 o1
  if b.fault.isNone && o.chunk + 1 == engChunks o then signalLandings s2 o else s2

/-- ENGINE_CHUNK (R242, R292, R296, R309): the next 4 KiB of traversal offsets of a running operation, once what it needs from the host and
from peers is there and what it has for peers has left. -/
def execEngineChunk (c : ChunkMove) (s : State) : Host.Outcome State Fault Refusal :=
  match s.ops.find? (fun o => o.id == c.op) with
  | none => .next s
  | some o =>
    if !o.far.isEmpty then .next (sendFar s o)
    else if !o.running ∨ o.abort.isSome ∨ o.fault.isSome ∨ engChunks o ≤ o.chunk ∨ (opPackets s c.op).any (fun p => p.kind == 1) then .next s
    else match chunkNeeds s o (chunkElems o o.chunk) with
      | ([], []) => .next (runChunk s o c.refused)
      | ([], els) => .next (sendFetches s o els)
      | (pages, _) => .next (pages.foldl (fun x p => askHost x o.asid p) s)

/-! ### Start (R87, R292, R296) -/

/-- Whether a range of an operation conflicts with a lock of an earlier one that is live (R87). -/
def lockConflict (s : State) (o : EngOp) : Bool :=
  (s.locks.filter (fun l => l.op == o.id)).any (fun l => s.locks.any (fun m =>
    m.op != o.id && m.key == l.key && decide (m.lo < l.hi) && decide (l.lo < m.hi) && (m.both || l.both)
      && s.ops.any (fun x => x.id == m.op && decide (x.order < o.order))))

/-- ENGINE_OP_START (R87): an operation waits until the locks it conflicts with are released and its engine has room. -/
def execEngineOpStart (op : Nat) (s : State) : Host.Outcome State Fault Refusal :=
  match s.ops.find? (fun o => o.id == op) with
  | none => .next s
  | some o =>
    let chain := match o.kind with | .chain _ => true | _ => false
    let busy := ((unitOps s chain o.core).filter (fun x => x.running && x.engine == o.engine)).length
    if o.running ∨ o.abort.isSome ∨ (if chain then 8 else 16) ≤ busy ∨ lockConflict s o then .next s
    else .next (modOp s op (fun x => { x with running := true }))

/-! ### The end of an operation (R243, R244, R159) -/

/-- How an operation ends for its slip, its batch and those that drain it. -/
inductive OpEnd
  | ok | failed (cause : Nat) (a : W64) (peer : W32) | aborted
  deriving DecidableEq, Repr

/-- A batch that an operation leaves as it ends. -/
def leaveBatch (op : Nat) (e : OpEnd) (b : Batch) : Batch :=
  if b.live.contains op then
    { b with live := b.live.filter (· != op), failed := b.failed || (match e with | .failed .. => true | _ => false),
             aborted := b.aborted || e == .aborted }
  else b

/-- A DRAIN that covers an operation counts its end by its STATUS code (R159). -/
def countDrain (op code : Nat) (w : Wave) : Wave :=
  match w.ctl.wait with
  | .drain l d f a =>
    if l.contains op then
      let l1 := l.filter (· != op)
      { w with ctl := { w.ctl with wait := match code with
          | 0 | 1 => .drain l1 (d + 1) f a
          | 2 => .drain l1 d (f + 1) a
          | _ => .drain l1 d f (a + 1) } }
    else w
  | _ => w

/-- The locks of an operation released (R87). -/
def dropLocks (s : State) (op : Nat) : State := { s with locks := s.locks.filter (fun l => l.op != op) }

/-- An operation gone with a STATUS code, its slip resolved. -/
def endOp (s : State) (o : EngOp) (code : Nat) (e : OpEnd) : State :=
  let s1 := dropLocks s o.id
  let s2 : State := { s1 with
    ops := s1.ops.filter (fun x => x.id != o.id),
    waves := s1.waves.map (fun (w : Wave) =>
      let w1 := countDrain o.id code w
      if w.id = o.wave then { w1 with batches := w1.batches.map (leaveBatch o.id e) } else w1) }
  match e with
  | .failed cause a peer => slipFail s2 o.wave o.tag cause a 0 peer
  | _ => slipOk s2 o.wave o.tag

/-- STATUS of a completion block (R243). -/
def statusOf (offset code : Nat) : W64 := w64 (offset % 2 ^ 40 * 2 ^ 24 + code)

/-- How a completion block takes its writes: done, waiting for a peer or for a host page, or unwritable. -/
inductive BlockRes
  | done (s : State) | wait (s : State) | bad (s : State)

/-- A local completion block written: STATUS, then for codes 0 and 1 the counter (R81, R243). A write of a forbidden pairing is recorded and
dropped (R342); a block that its link refuses cannot be written (R309). -/
def blockLocal (s : State) (o : EngOp) (status : W64) (credit : Bool) (sp : Space) (off : Nat) : BlockRes :=
  if forbidden s o.core sp off then
    let s1 := noteForbidden s o.core (off + 8)
    .done (if credit then noteForbidden s1 o.core off else s1)
  else if isPoison s sp off || linkRefuses s sp off 16 then .bad s
  else if credit && s.pending.contains (sp, off / 64) then .wait s
  else
    let s1 := writeRange s sp (off + 8) (natToBytes 8 status.toNat)
    .done (dirtyOp (if credit then addOne s1 sp off else s1) o (some o.comp))

/-- A completion block on a peer: STATUS goes as a write, the counter as an atomic after it; a refusal leaves stage 9. The stages of an
abort are counted from 10. Through a closed port both are recorded and dropped (R341, R342). -/
def blockPeer (s : State) (o : EngOp) (status : W64) (credit : Bool) (id : BitVec 9) (base : Nat) : BlockRes :=
  let put (kind : AccKind) (a d : W64) (stage : Nat) : BlockRes :=
    let acc := engAccess kind .n64 [{ lane := 0, piece := 0, addr := a, site := .peer id, data := d, cmp := 0 }]
    if !peerUp s id.toNat then .bad s
    else if packetRoom s acc o.asid none then .wait (sendAll (modOp (dirtyAt s (getCtx s o.ctx) a) o.id (fun x => { x with stage := stage })) acc o.asid none (.engine o.id) false)
    else .wait s
  if portShut s o.core then
    let s1 := noteForbidden s o.core (o.comp + 8).toNat
    .done (if credit then noteForbidden s1 o.core o.comp.toNat else s1)
  else if o.stage = base + 9 then .bad s
  else if o.stage = 0 then put .store (o.comp + 8) status (base + 1)
  else if o.stage = base + 1 ∧ credit then put (.atom .add) o.comp 1 (base + 2)
  else .done s

/-- The completion block of an operation that ends. -/
def blockWrite (s : State) (o : EngOp) (status : W64) (credit : Bool) (base : Nat) : BlockRes :=
  if o.comp = 0 then .done s
  else match engAt s o o.comp 8 true with
    | .at_ sp off => match engAt s o (o.comp + 8) 8 true with
      | .at_ .. => blockLocal s o status credit sp off
      | _ => .bad s
    | .peer id => blockPeer s o status credit id base
    | .ask p => .wait (askHost s o.asid p)
    | .bad => .bad (heardAll s (getCtx s o.ctx) o.comp 16 true)

/-- An operation's end carried as far as it can be: the block, then the operation is gone. -/
def finishOp (s : State) (o : EngOp) (offset code : Nat) (e : OpEnd) (base : Nat) : State :=
  match blockWrite (dropLocks s o.id) o (statusOf offset code) (code < 2) base with
  | .done s1 => endOp s1 o code e
  | .bad s1 => endOp s1 o 2 (.failed 0x14 o.comp 0)
  | .wait s1 => s1

/-- The bank of an engine: its die's, or its cluster's for a chain unit (R335). -/
def engBank (o : EngOp) : Nat := match o.kind with | .chain _ => clusterOf o.core | _ => 12 + o.die

/-- The deferred record of an operation that read poison (R297); it is written once, before the completion block. -/
def poisonRecord (s : State) (o : EngOp) : State :=
  match o.poison, o.stage with
  | some (_, line, _), 0 => if s.locks.any (fun l => l.op == o.id) || o.comp == 0 then errRecord s (engBank o) 2 3 (some (w64 line)) none (miscOf o.core 0) else s
  | _, _ => s

/-- Whether an operation that is to be aborted ends as it would without: a fault has stopped it, or its last chunk is written, before the next
chunk boundary (R159). -/
def pastAbort (o : EngOp) : Bool := o.abort == some .cancel && o.running && (o.fault.isSome || decide (engChunks o ≤ o.chunk))

/-- ENGINE_OP_COMPLETE (R87, R243, R244, R297): every chunk is written, or a fault has stopped the operation, and no peer has still to
answer. -/
def execEngineOpComplete (op : Nat) (s : State) : Host.Outcome State Fault Refusal :=
  match s.ops.find? (fun o => o.id == op) with
  | none => .next s
  | some o =>
    if !o.running ∨ (o.abort.isSome ∧ o.stage = 0 ∧ !pastAbort o) ∨ 10 ≤ o.stage ∨ !(opPackets s op).isEmpty ∨ !o.far.isEmpty ∨ (o.fault.isNone ∧ o.chunk < engChunks o) then .next s
    else
      let s1 := poisonRecord s o
      match o.fault, o.poison with
      | some f, _ => .next (finishOp s1 o f.off 2 (.failed f.cause f.addr f.peer) 0)
      | none, some (off, _, a) => .next (finishOp s1 o off 1 (if o.comp = 0 then .failed 0x13 a 0 else .ok) 0)
      | none, none => .next (finishOp s1 o 0 0 .ok 0)

/-! ### Abort (R35, R158, R333) -/

/-- Destination bytes beyond the last whole chunk are unspecified: each place there that the operation may write takes free bytes (log 10). -/
def loseRest (s : State) (o : EngOp) : State :=
  let n := tySize (engShape o).1
  let free (x : State) (sp : Space) (off : Nat) (a : Option W64) : State :=
    if forbidden x o.core sp off then x
    else dirtyOp { writeBytes x sp off ((List.range n).map (fun i => Config.freeByte (x.free + i))) with free := x.free + n } o a
  (List.range ((engShape o).2 - o.chunk * (4096 / n))).foldl (fun x i =>
    let k := o.chunk * (4096 / n) + i
    match engDst o k with
    | some a => match engAt x o a n true with
      | .at_ sp off => free x sp off (some a)
      | _ => x
    | none => (engShelves x o k).foldl (fun y q => free y q.1 q.2 none) x) s

/-- ENGINE_OP_ABORT (R35, R158, R159, R333): at a chunk boundary, with no packet unanswered, an operation that is to be aborted, and does not end
before that boundary, ends with code
3, or with code 2 and cause 0x14 for a lost lock; its locks are released and nothing is credited. Poison that it has read is recorded (R297). -/
def execEngineOpAbort (op : Nat) (s : State) : Host.Outcome State Fault Refusal :=
  match s.ops.find? (fun o => o.id == op) with
  | none => .next s
  | some o => match o.abort with
    | none => .next s
    | some why =>
      if pastAbort o ∨ !(opPackets s op).isEmpty ∨ !o.far.isEmpty ∨ (1 ≤ o.stage ∧ o.stage < 10) then .next s
      else
        let at_ := min (o.chunk * 4096) ((engShape o).2 * tySize (engShape o).1)
        let s1 := poisonRecord (if o.running ∧ o.stage = 0 then loseRest s o else s) o
        match why with
        | .cancel => .next (finishOp s1 o 0 3 .aborted 10)
        | .lock => .next (finishOp s1 o at_ 2 (.failed 0x14 ((engDst o (o.chunk * (4096 / tySize (engShape o).1))).getD 0) 0) 10)

end Sys2Proof.Machine
end

