-- ==== Sys2Proof/Machine/Save.lean ====
section
/-! DEFINITION. What waits for a core (R279, R283), pre-emption and evacuation (R60, R61, R63, R64, R283, R284), and the restoration of a
team (R59, R62, R63, R64, R68). The events PREEMPTION and TEAM_RESTORE. -/

namespace Sys2Proof.Machine

/-! ### Pending entries (R279, R283) -/

/-- What an entry places: a queued task, the next team of a launch, or a saved team. -/
inductive EntryRef
  | task (t : Task) | grid (g : Grid) | saved (t : Team)
  deriving DecidableEq, Repr

/-- A pending entry with what orders it (R279). -/
structure Pend where
  ctx : Nat
  prio : Nat
  task : Bool
  order : Nat
  ref : EntryRef
  deriving DecidableEq, Repr

/-- Whether an entry comes before another (R279). -/
def pendBefore (a b : Pend) : Bool :=
  decide (b.prio < a.prio) || (a.prio == b.prio && ((a.task && !b.task) || (a.task == b.task && decide (a.order < b.order))))

/-- Entries in their order. -/
def insertPend (x : Pend) : List Pend → List Pend
  | [] => [x]
  | y :: r => if pendBefore x y then x :: y :: r else y :: insertPend x r

/-- Whether a context takes part in placement: it is active and not halted (R158). -/
def placeable (s : State) (ctx : Nat) : Bool := (getCtx s ctx).status == 0 && !(getCtx s ctx).halted && s.ctxs.any (fun c => c.id == ctx)

/-- Whether a launch has a team to place: it is pending, and its root scope is not cancelled (log 21). -/
def gridOpen (s : State) (g : Grid) : Bool :=
  g.pending && decide (g.next < g.teams) && !g.ended &&
    (match g.root with
      | some slot => !((getCtx s g.ctx).scopes.any (fun r => r.slot == slot && r.cancelled))
      | none => true)

/-- Whether a saved team waits on its own; a saved service wave returns with another saved team of its context (R305). -/
def savedWaits (s : State) (t : Team) : Bool :=
  t.saved.isSome &&
    (t.kind != .service || s.teams.any (fun x => x.ctx == t.ctx && resident x)
      || !(s.teams.any (fun x => x.ctx == t.ctx && x.id != t.id)))

/-- The pending entries in the order of R279. -/
def pendings (s : State) : List Pend :=
  let ts : List Pend := (s.tasks.filter (fun t => t.accepted && placeable s t.ctx)).map (fun t =>
    { ctx := t.ctx, prio := t.prio, task := true, order := t.order, ref := .task t })
  let gs : List Pend := (s.grids.filter (fun g => gridOpen s g && placeable s g.ctx)).map (fun g =>
    { ctx := g.ctx, prio := g.prio, task := false, order := g.order, ref := .grid g })
  let vs : List Pend := (s.teams.filter (fun t => savedWaits s t && placeable s t.ctx)).map (fun t =>
    { ctx := t.ctx, prio := t.prio, task := false, order := t.order, ref := .saved t })
  (ts ++ gs ++ vs).foldl (fun l x => insertPend x l) []

/-- The register count of a wave by a role map (R25). -/
def roleCount (roles : List Role) (i : Nat) : Nat :=
  match roles.find? (fun r => decide (r.first ≤ i) && decide (i ≤ r.last)) with
  | some r => r.cnt
  | none => 8

/-- The shape of a launch's teams. -/
def gridShape (g : Grid) : Shape :=
  { pair := g.pair, lead := if g.pair then g.waves / 2 else g.waves, counts := (List.range g.waves).map (roleCount g.roles), spare := [0, 0],
    width := g.kernel.width, shelf := g.shelf }

/-- The waves of a saved team's half that have not retired. -/
def halfWaves (s : State) (t : Team) (h : Nat) : List Wave :=
  s.waves.filter (fun (w : Wave) => w.team == t.id && isLive w && halfOf t w.idx == h)

/-- The shape that a saved team comes back with: its waves that have not retired, and the registers of its pools. -/
def savedShape (s : State) (t : Team) : Shape :=
  let a := halfWaves s t 0
  { pair := t.pair, lead := a.length, counts := (a ++ halfWaves s t 1).map (fun w => w.regs.cnt), spare := t.pools, width := t.kernel.width,
    shelf := t.shelfSize }

/-- The cores on which a saved team may be restored as its cluster index asks (R68). -/
def savedOk (t : Team) (core : Nat) : Bool :=
  match t.saved with
  | some (cl, _) => clusterOf core % 3 == cl % 3
  | none => false

/-- The die slot of a saved team (R68). -/
def savedSlot (t : Team) : Option Nat := t.saved.map (·.2)

/-! ### The save (R60, R61, R63, R64) -/

/-- The idempotent region that a team is inside: some wave has passed its entry and not every wave has passed its end (R64). -/
def insideIdem (s : State) (t : Team) : Option W64 :=
  let ws := s.waves.filter (fun (w : Wave) => w.team == t.id && isLive w)
  let left (start : W64) (x : Wave) : Bool := match x.ctl.idem with | some (_, a, inside) => a == start && !inside | none => false
  match ws.findSome? (fun w => match w.ctl.idem with | some (_, start, true) => some start | _ => none) with
  | some start => some start
  | none => ws.findSome? (fun w => match w.ctl.idem with
    | some (_, start, _) => if ws.all (left start) then none else some start
    | none => none)

/-- A wave that is saved as it is, since it executes nothing more: killed or retired, or retiring past every trap (R40, R55). -/
def savedAsIs (w : Wave) : Bool :=
  w.ctl.st == .killed || w.ctl.st == .retired || (w.ctl.st == .retiring && (w.ctl.left || w.ctl.allDead))

/-- The flashback point of the MARK at the program counter of a wave, if its word is one that its table holds (R59). -/
def markHere (s : State) (v : Wave) : Option Flash :=
  match insAt s v v.ctl.pc with
  | some (.mark g) => match markId g with
    | some id => if id < (getTeam s v.team).kernel.flashN then some (flashOf v id (.mark g)) else none
    | none => none
  | _ => none

/-- The wave as it stands after the BARW it waits at. -/
def pastBar (s : State) (w : Wave) : Wave :=
  match insAt s w w.ctl.pc with
  | some i => let (w1, pc, _) := loopEnds 5 w (nextPc w.ctl.pc (hasLit i)); { w1 with ctl := { w1.ctl with pc := pc } }
  | none => w

/-- The point and the wait that a wave is saved with: the MARK after the BARS or BARW it waits at, or its flashback point (R63). -/
def savePoint (s : State) (w : Wave) : Option Flash × Wait :=
  match w.ctl.wait with
  | .bars n p => match markHere s w with | some f => (some f, .bars n p) | none => (w.ctl.flash, .idle)
  | .barw n p => match markHere s (pastBar s w) with | some f => (some f, .bars n p) | none => (w.ctl.flash, .idle)
  | _ => (w.ctl.flash, .idle)

/-- A wave saved (R60, R61): latches, queues and waits are gone, a park is abandoned. -/
def saveWave (s : State) (w : Wave) : Wave :=
  if savedAsIs w then w
  else
    let (f, wt) := savePoint s w
    { w with
      ctl := { w.ctl with
        st := .preempted, wait := wt, preempt := false, flash := f, line := none, latches := [], park := none, only := none, again := false,
        rest := none, recipe := if w.hz.handler then w.ctl.recipe else none, stopping := false },
      queues := [[], [], [], []], popped := [],
      hz := { w.hz with slips := w.hz.slips.map (fun x => { x with openPark := false }) } }

/-- A team saved: it leaves its core and becomes a pending entry (R283). -/
def saveTeam (s : State) (team : Nat) : State :=
  let t := getTeam s team
  let c := getCtx s t.ctx
  let idem := insideIdem s t
  let s1 : State := { s with
    waves := s.waves.map (fun (w : Wave) => if w.team = team then saveWave s w else w), nextId := s.nextId + 1,
    teams := s.teams.map (fun x => if x.id = team then
      { x with saved := some (clusterOf x.core, (slotOfDie c (dieOf x.core)).getD 0), imageKept := idem.isNone, order := s.nextId, claims := [[], []] }
      else x) }
  let s2 := modCtx s1 t.ctx (fun c => { c with records := c.records.filter (fun x => !t.waves.contains x), sealed := true })
  t.waves.foldl settleAll s2

/-- Whether a wave is inside a line whose CHAIN bit is set (R123); a parked one is saved all the same, its park abandoned (R60). -/
def midChain (w : Wave) : Bool := w.ctl.chain && w.ctl.line == some (lineAddr w.ctl.pc) && w.ctl.st != .parked

/-- Whether a wave can be saved now: no NOPRE region, no chained line, nothing of it in flight that is not failable, no held store. -/
def canSaveWave (s : State) (w : Wave) : Bool :=
  savedAsIs w ||
    (w.ctl.nopre.isNone && !midChain w && w.hz.lazies.isEmpty && w.hz.held.isEmpty && w.ctl.st != .slaved && w.ctl.st != .issuing
      && !(s.mmas.any (fun m => m.leader == w.id || m.twin == w.id))
      && (match w.ctl.wait with | .mmaCheck _ | .stopped | .halting => false | _ => true))

/-- Whether a team can be saved now. -/
def canSave (s : State) (t : Team) : Bool :=
  resident t && s.waves.all (fun (w : Wave) => w.team != t.id || canSaveWave s w)

/-- A wave with its park abandoned, and with it the instruction that it has been let execute again (R60). -/
def dropPark (w : Wave) : Wave :=
  { w with
    hz := { w.hz with slips := w.hz.slips.map (fun x => { x with openPark := false }) },
    ctl := { w.ctl with st := if w.ctl.st = .parked then .ready else w.ctl.st, park := none, only := none, again := false } }

/-- The step of R60 in which failures that would discard held stores are delivered before the save, for one wave: its park is abandoned first, and
one that waits at a kill point and is to be killed is killed there (R35). -/
def deliverOne (s : State) (id : Nat) : State :=
  match findWave s id with
  | none => s
  | some w =>
    if w.hz.held.isEmpty || w.ctl.nopre.isSome then s
    else if (w.ctl.st == .parked || killableWait w) && killDue s w then killWave s id
    else match (if atBoundary (dropPark w) then pendingTrap (dropPark w) else none) with
    | some x => takeTrap (modCtx (putWave s (dropPark w)) w.ctx (fun c => { c with records := c.records.filter (fun y => y != id) })) id x
    | none => s

/-- A failure that would discard held stores is delivered before the save (R60). -/
def deliverHeld (s : State) (t : Team) : State := t.waves.foldl deliverOne s

/-- The bytes that a wave takes of a save area (R284). -/
def waveArea (w : Wave) : Nat := if isLive w then 40960 + 64 * w.width + (w.stackTop + 4095) / 4096 * 4096 else 0

/-- The bytes that a team takes of a save area; a team inside an idempotent region saves no shelf (R64, R284). -/
def teamArea (s : State) (t : Team) : Nat :=
  let keeps := if t.saved.isSome then t.imageKept else (insideIdem s t).isNone
  4096 + (if keeps then t.shelfSize else 0) + (s.waves.filter (fun (w : Wave) => w.team == t.id)).foldl (fun a w => a + waveArea w) 0

/-- The area that saving a whole context needs (R284). -/
def areaNeeded (s : State) (c : Ctx) : Nat :=
  (s.teams.filter (fun t => t.ctx == c.id)).foldl (fun a t => a + teamArea s t) 0
    + ((List.range 4).filter (fun d => ((c.dies[d]?).getD none).isSome || c.images.contains d)).length * c.annexSize

/-- Whether the save area of a context holds what it must (R284). -/
def areaFits (s : State) (c : Ctx) : Bool := c.saveAt != 0 && decide (areaNeeded s c ≤ c.saveSize)

/-- The annex allocations of a context with no resident team are saved and released (R282). -/
def releaseAnnex (s : State) (ctx : Nat) : State :=
  if s.teams.any (fun t => t.ctx == ctx && resident t) then s
  else modCtx s ctx (fun c => { c with
    images := (List.range 4).filter (fun d => ((c.dies[d]?).getD none).isSome || c.images.contains d),
    dies := [none, none, none, none], since := none })

/-- The waves of a team stop issuing, unless one of them is inside a NOPRE region, for which the team waits (R60, R65). -/
def stopIssue (s : State) (t : Team) : State :=
  if s.waves.any (fun (w : Wave) => w.team == t.id && !savedAsIs w && w.ctl.nopre.isSome) then s
  else { s with waves := s.waves.map (fun (w : Wave) => if w.team = t.id ∧ !savedAsIs w then { w with ctl := { w.ctl with preempt := true } } else w) }

/-- The teams of a context are saved, those of one cluster together once each of them can be (R68); the service wave with the last of the others,
or, at an evacuation, like any other (R305). The waves of teams that cannot be saved yet issue nothing more, and the teams follow later. -/
def saveTeams (s : State) (ctx : Nat) (evac : Bool) : State :=
  let alone := !(s.teams.any (fun t => t.ctx == ctx && resident t && t.kind != .service))
  let s0 := (s.teams.filter (fun t => t.ctx == ctx && resident t && (evac || alone || t.kind != .service))).foldl stopIssue s
  let s1 := (s0.teams.filter (fun t => t.ctx == ctx && resident t)).foldl deliverHeld s0
  let go (a : State) (l : List Team) : State := if l.all (fun t => canSave a (getTeam a t.id)) then l.foldl (fun x t => saveTeam x t.id) a else a
  let ts := s1.teams.filter (fun t => t.ctx == ctx && resident t && t.kind != .service)
  let s2 := ((ts.map (fun t => clusterOf t.core)).eraseDups.map (fun k => ts.filter (fun t => clusterOf t.core == k))).foldl go s1
  let last := !(s2.teams.any (fun t => t.ctx == ctx && resident t && t.kind != .service))
  let svc := s2.teams.filter (fun t => t.ctx == ctx && resident t && t.kind == .service)
  let s3 := if evac || last then go (svc.foldl stopIssue s2) svc else s2
  releaseAnnex s3 ctx

/-! ### Restoration (R59, R61 to R64, R68) -/

/-- A free mask. -/
def freeMask (n : Nat) : Mask := (List.range 32).foldl (fun m i => (m <<< 32) ||| (Config.freeWord (n + i)).setWidth 1024) 0

/-- A free handle register. -/
def freeHandle (n : Nat) : Option Handle :=
  let x := Config.freeWord n
  if x.getLsbD 31 then some { heap := x.setWidth 4, col := (x >>> 4).setWidth 2, base := freeW64 (n + 1) &&& 0xFFFFFFFFFFF0, moving := x.getLsbD 6 }
  else none

/-- Free words that the restoration of a wave may use. -/
def restoreFree (w : Wave) : Nat := w.regs.cnt * w.width + 4096

/-- The registers of a wave that returns at a .flash entry: the live ones as saved, k0 as saved, every other free (R61). -/
def liveRegs (w : Wave) (l : List Byte) (free : Nat) : Regs :=
  let live := ((l.take 16).filter (fun b => b != 0xFF)).map (·.toNat)
  let base := free + w.regs.cnt * w.width
  { w.regs with
    v := (List.range w.regs.cnt).map (fun r =>
      if live.contains r then (w.regs.v[r]?).getD []
      else (List.range w.width).map (fun i => Config.freeWord (free + r * w.width + i))),
    s := (List.range 64).map (fun i => if bitAt (fld l 0x10 8) i then sreg w i else freeW64 (base + 2 * i)),
    k := (List.range 96).map (fun i => if i == 0 || bitAt (fld l 0x18 16) i then kreg w i else (freeMask (base + 128 + 32 * i) &&& maskBelow w.width)),
    h := (List.range 16).map (fun i => if bitAt (fld l 0x28 2) i then hreg w i else freeHandle (base + 3200 + 4 * i)),
    poison := w.regs.poison.filter (fun p => live.contains p.1) }

/-- The control state of a wave that returns. -/
def backCtl (w : Wave) (pc : W64) (st : WState) : Ctl :=
  { startCtl pc with
    st := st, flash := w.ctl.flash, barPhase := w.ctl.barPhase, left := w.ctl.left, allDead := w.ctl.allDead, idem := w.ctl.idem, fresh := false }

/-- A wave that returns with no flashback point: the entry state of R24 beside what is saved (R59, R61). -/
def backAtEntry (k : Kernel) (w : Wave) (free : Nat) : Wave :=
  let r := startRegs w.regs.cnt w.width k.lanes k.args free
  { w with
    regs := { w.regs with v := r.v, s := r.s, k := r.k, h := r.h, key := 0, ctr := 0, poison := [] },
    ctl := { backCtl w k.exec .ready with fresh := true }, slice := newSlice k [0, 0, 0, 0], pops := [0, 0, 0, 0] }

/-- A wave that returns at a flashback point: registers, loop stack, the recipe, then the instruction after the MARK; a wave that waited
at a barrier goes on waiting (R62, R63). -/
def backAtFlash (s : State) (c : Ctx) (k : Kernel) (w : Wave) (f : Flash) (free : Nat) : Wave :=
  let l := (ctxBytes s c (k.flash + w64 (64 * f.id)) 64).getD (List.replicate 64 0)
  let n := fld l 0x2A 2
  let w1 := { w with regs := { liveRegs w l free with key := f.key, ctr := f.ctr } }
  let w2 := f.counters.foldl (fun x p => setS x p.1 p.2) w1
  let st : WState := match w.ctl.wait with | .bars _ _ => .waiting | _ => .ready
  let ctl := backCtl w (if n = 0 then f.pc else k.recipe + w64 (fld l 0x2C 4)) st
  { w2 with
    ctl := { ctl with wait := w.ctl.wait, loops := f.loops, recipe := if n = 0 then none else some (f.pc, n) },
    slice := newSlice k f.pops, pops := f.pops }

/-- A wave that returns: one pre-empted in handler mode enters its handler again from the first slot (R55). -/
def backWave (s : State) (c : Ctx) (k : Kernel) (w : Wave) (free : Nat) : Wave :=
  if w.ctl.st ≠ .preempted then w
  else
    let x := match w.ctl.flash with
      | some f => backAtFlash s c k w f free
      | none => backAtEntry k w free
    if w.hz.handler then { x with ctl := { x.ctl with pc := k.trapPc, st := .ready, wait := .idle, recipe := w.ctl.recipe } } else x

/-- Where a wave of a team saved inside the region of a start resumes: the region's entry MARK when it has reached it, else its own point
(R64). -/
def idemPoint (region : Option W64) (w : Wave) : Wave :=
  match (match w.ctl.idem with | some x => if some x.2.1 = region then some x else none | none => none) with
  | some (f, start, _) => { w with ctl := { w.ctl with flash := some f, wait := .idle, idem := some (f, start, true), barPhase := List.replicate 16 none } }
  | none => { w with ctl := { w.ctl with wait := .idle, idem := none, barPhase := List.replicate 16 none } }

/-- A barrier of a team whose barrier state was discarded: waves that have been killed stay out of its count. -/
def freshBar (n : Nat) (b : Barrier) : Barrier := { newBarrier (n - popcount 16 b.removed.toNat) with removed := b.removed }

/-- The waves of a saved team whose scope is cancelled are killed in their saved state, without being restored (R35). -/
def killSaved (s : State) (team : Nat) : State :=
  (getTeam s team).waves.foldl (fun a id => match findWave a id with
    | some w => if w.ctl.st == .preempted && killDue a w then killWave a id else a
    | none => a) s

/-- A team restored on a core, or pair (R62, R64, R68). -/
def restoreTeam (s0 : State) (team core : Nat) : State :=
  let s := killSaved s0 team
  let t := getTeam s team
  let s1 := moveCursor (allocAnnex s t.ctx (dieOf core) (savedSlot t)) t.ctx core t.pair
  let c := getCtx s1 t.ctx
  let slots := teamSlots s1 (savedShape s t) core
  let order := halfWaves s t 0 ++ halfWaves s t 1
  let s2 := (List.range order.length).foldl (fun (a : State) i => match order[i]? with
    | some w0 => match findWave a w0.id with
      | some w =>
        let (co, sl) := (slots[i]?).getD (core, 0)
        let x := if t.imageKept then w else idemPoint (insideIdem s t) w
        let y := { backWave a c t.kernel x a.free with core := co, slot := sl }
        { putWave a y with free := a.free + restoreFree w }
      | none => a
    | none => a) s1
  let s3 := modTeam s2 team (fun x => { x with
    core := core, saved := none, imageKept := true, shelf := if x.imageKept then x.shelf else [],
    bars := if x.imageKept then x.bars else x.bars.map (freshBar x.waves.length) })
  barCheckAll (modCtx s3 t.ctx (fun x => { x with
    since := some (x.since.getD s.ns), sealed := x.sealed && s3.teams.any (fun y => y.ctx == x.id && y.saved.isSome) })) team

/-- The teams that were saved from the cluster of a saved team with it, and come back with it (R68); the service wave returns by a rule of its own
(R305). -/
def mates (s : State) (t : Team) : List Team :=
  if t.kind == .service then []
  else s.teams.filter (fun x => x.ctx == t.ctx && x.id != t.id && x.kind != .service
    && x.saved.map (fun p => (p.1 % 3, p.2)) == t.saved.map (fun p => (p.1 % 3, p.2)))

/-- Saved teams restored one after another on cores of a cluster; none where one of them finds no room. -/
def restoreAll (cluster : Nat) : List Team → State → Option State
  | [], s => some s
  | t :: r, s => match findCore s (getCtx s t.ctx) (savedShape s t) (savedSlot t) (fun k => clusterOf k == cluster) with
    | some k => restoreAll cluster r (restoreTeam s t.id k)
    | none => none

/-- A saved team restored on a core and with it, on the core's cluster, the teams saved from its cluster (R68). -/
def restoreGroup (s : State) (t : Team) (core : Nat) : Option State := restoreAll (clusterOf core) (mates s t) (restoreTeam s t.id core)

/-- Whether a saved team may return on a core: its cluster index is that of the team's, and the teams that return with it find room (R68). -/
def mayReturn (s : State) (t : Team) (core : Nat) : Bool := savedOk t core && ((mates s t).isEmpty || (restoreGroup s t core).isSome)

/-! ### PREEMPTION (R60, R283) -/

/-- The core that an entry's team can be placed on now (R280). -/
def pendCore (s : State) (e : Pend) : Option Nat :=
  let c := getCtx s e.ctx
  match e.ref with
  | .task t => findCore s c { pair := false, lead := 1, counts := [t.cnt], spare := [0, 0], width := t.kernel.width, shelf := t.shelf } none
      (fun k => clusterOf k == t.cluster)
  | .grid g => findCore s c (gridShape g) none (fun _ => true)
  | .saved t => findCore s c (savedShape s t) (savedSlot t) (mayReturn s t)

/-- The highest priority of a context's resident teams, the service wave apart unless it is alone. -/
def topPrio (s : State) (ctx : Nat) : Option Nat :=
  let ts := s.teams.filter (fun t => t.ctx == ctx && resident t)
  (ts.filter (fun t => t.kind != .service || ts.length == 1)).foldl (fun (b : Option Nat) t =>
    some (match b with | some x => max x t.prio | none => t.prio)) none

/-- Whether a team or task of another context, of equal or higher priority, waits for a core (R283). -/
def otherWaits (s : State) (ctx prio : Nat) : Bool :=
  (pendings s).any (fun e => e.ctx != ctx && decide (prio ≤ e.prio) && (pendCore s e).isNone)

/-- Whether a pre-emption or evacuation of a context is under way: teams of it have stopped issuing, or only its service team is left. -/
def saving (s : State) (ctx : Nat) : Bool :=
  s.waves.any (fun (w : Wave) => w.ctx == ctx && w.ctl.preempt)

/-- PREEMPTION (R60, R283, R284): a context whose slice has ended, for whose cores another waits, is saved as far as it can be; one that is
being saved is saved on. -/
def execPreemption (ctx : Nat) (s : State) : Host.Outcome State Fault Refusal :=
  let c := getCtx s ctx
  if c.halted then .next s
  else if saving s ctx then .next (saveTeams s ctx false)
  else match c.since, topPrio s ctx with
  | some t, some p =>
    if c.slice ≠ 0 ∧ t + c.slice * 1000 ≤ s.ns ∧ areaFits s c ∧ otherWaits s ctx p then .next (saveTeams s ctx false)
    else .next s
  | _, _ => .next s

/-! ### Evacuation (R337, R339, R284) -/

/-- The fault-log entry of an evacuation that cannot save a context: CAUSE 0x19, FLAGS EVENT, OPA 1. -/
def evacEntry : List Byte :=
  natToBytes 4 0x19 ++ natToBytes 4 4 ++ List.replicate 56 0 ++ natToBytes 8 1 ++ List.replicate 184 0

/-- A context evacuated from its cores: saved, or ended as a halt with no issuing wave. -/
def evacuate (s : State) (ctx : Nat) : State :=
  let c := getCtx s ctx
  if c.halted then s
  else if areaFits s c then saveTeams s ctx true
  else haltCheck (haltCtx (flogWrite s ctx evacEntry) ctx none) ctx

/-! ### TEAM_RESTORE (R62, R68) -/

/-- The saved service wave of a context restored beside a team, on a core that it finds (R305). -/
def restoreService (s : State) (ctx : Nat) : State :=
  match s.teams.find? (fun t => t.ctx == ctx && t.kind == .service && t.saved.isSome) with
  | some t => match findCore s (getCtx s ctx) (savedShape s t) (savedSlot t) (savedOk t) with
    | some core => restoreTeam s t.id core
    | none => s
  | none => s

/-- A saved team put on a core, with those saved from its cluster and the service wave of its context; a context whose save key is gone ends instead (R346). -/
def bringBack (s : State) (t : Team) (core : Nat) : State :=
  if (getCtx s t.ctx).sealed ∧ !s.rel.keys then haltCheck (haltCtx s t.ctx none) t.ctx
  else
    let s1 := (restoreGroup s t core).getD s
    if t.kind = .service then s1 else restoreService s1 t.ctx

/-- TEAM_RESTORE (R62, R68): the saved team that the order of R279 puts first among those that can be placed resumes on a core with room. -/
def execTeamRestore (team core : Nat) (s : State) : Host.Outcome State Fault Refusal :=
  match (pendings s).find? (fun e => (pendCore s e).isSome) with
  | some e => match e.ref with
    | .saved t =>
      if t.id = team ∧ mayTake s (getCtx s t.ctx) (savedShape s t) (savedSlot t) (mayReturn s t) core then .next (bringBack s t core) else .next s
    | _ => .next s
  | none => .next s

end Sys2Proof.Machine
end

