-- ==== Sys2Proof/Machine/Launch.lean ====
section
/-! DEFINITION. Contexts, launch queues and placement (R269 to R282): reading and checking a launch packet, dependences, the placement
step, the end of a grid and of a context. -/

namespace Sys2Proof.Machine

/-! ### Launch queues (R273, R274) -/

/-- Whether more packets are announced than the ring holds. -/
def overran (q : LaunchQ) : Bool := decide (2 ^ q.log2n < (q.widx - q.ridx).toNat)

/-- The refusal of an overrun: EN is cleared and code 6 recorded. -/
def overrun (s : State) (q : Nat) : State := modQueue s q (fun x => { x with en := false, err := true, code := 6 })

/-- LQ_DOORBELL (R274): WIDX is written; an enabled queue whose ring overran stops. -/
def execLqDoorbell (queue : Nat) (value : W32) (s : State) : Host.Outcome State Fault Refusal :=
  if 64 ≤ queue then .next s
  else
    let s1 := modQueue s queue (fun x => { x with widx := value })
    if (getQueue s1 queue).en && overran (getQueue s1 queue) then .next (overrun s1 queue) else .next s1

/-! ### Context descriptors (R269, R311) -/

/-- A context as its descriptor at a system address describes it. -/
def ctxOf (id : Nat) (desc : W64) (l : List Byte) : Ctx :=
  { noCtx with
    id := id, desc := desc, asid := fld l 0 2, part := fld l 2 1, priv := bitAt (fld l 3 1) 1, annexSize := fld l 4 4, ptroot := w64 (fld l 8 8),
    heapt := w64 (fld l 0x10 8), flog := w64 (fld l 0x18 8), flogn := fld l 0x20 4, flogw := w32 (fld l 0x24 4), fswDesc := w64 (fld l 0x28 8),
    saveAt := w64 (fld l 0x30 8), saveSize := fld l 0x38 8, slice := fld l 0x40 4, vec := fld l 0x44 2, prioCap := fld l 0x46 1,
    status := fld l 0x47 1 }

/-- Whether a descriptor keeps R269. -/
def descOk (desc : W64) (l : List Byte) : Bool :=
  let n := fld l 0x20 4
  desc.toNat % 128 == 0 && bitAt (fld l 3 1) 0 && decide (fld l 3 1 < 4) && decide (fld l 0 2 < 4096) && decide (fld l 2 1 < 16)
    && fld l 4 4 % 4096 == 0 && decide (fld l 4 4 ≤ 48 * 2 ^ 20) && fld l 0x18 8 % 256 == 0 && n != 0 && decide (n ≤ 2 ^ 20)
    && 2 ^ Nat.log2 n == n && decide (fld l 0x46 1 ≤ 47) && fld l 0x48 56 == 0

/-- The bytes of a descriptor, where its system address can be read (R350). -/
def descBytes (s : State) (desc : W64) : Option (List Byte) :=
  match sysPlace desc, sysPlace (desc + 127) with
  | some (sp, o), some _ => some (memGets (getMem s sp) o 128)
  | _, _ => none

/-- Whether a context agrees with the contexts of its ASID that have not ended (R311). -/
def asidAgrees (s : State) (c : Ctx) : Bool :=
  s.ctxs.all (fun x => x.asid != c.asid || x.status == 2 || x.desc == c.desc || (x.ptroot == c.ptroot && x.part == c.part))

/-- The context that the device holds for a descriptor. -/
def heldCtx (s : State) (desc : W64) : Option Ctx := s.ctxs.find? (fun c => c.desc == desc && decide (c.status < 2))

/-- Whether a kernel of a context runs or waits; the fault-service wave belongs to none (R305). -/
def ctxBusy (s : State) (id : Nat) : Bool :=
  s.teams.any (fun t => t.ctx == id && t.kind != .service) || s.grids.any (fun g => g.ctx == id) || s.tasks.any (fun t => t.ctx == id)

/-- A context held for a launch that names it: a new one, or the one held, with what its descriptor says now while none of its kernels
runs. -/
def holdCtx (s : State) (c : Ctx) : State × Ctx :=
  match heldCtx s c.desc with
  | some x =>
    if ctxBusy s x.id then (s, x)
    else
      let y : Ctx := { c with
        id := x.id, dies := x.dies, annex := x.annex, cursor := x.cursor, scopes := x.scopes, gens := x.gens, fswWave := x.fswWave,
        fswPlaced := x.fswPlaced, since := x.since, images := x.images, sealed := x.sealed }
      (modCtx s x.id (fun _ => y), y)
  | none =>
    let y := { c with id := s.nextId }
    ({ s with nextId := s.nextId + 1, ctxs := s.ctxs ++ [y] }, y)

/-! ### Launch packets (R275, R276) -/

/-- The used role entries of a packet, in their order. -/
def roleEntries (l : List Byte) : List Role :=
  ((List.range 8).map (fun i => ({ first := fld l (0x40 + 4 * i) 1, last := fld l (0x41 + 4 * i) 1, cnt := fld l (0x42 + 4 * i) 2 } : Role))).filter
    (fun r => r.cnt != 0)

/-- Whether role entries cover waves `n` and up to the last of a team, in ascending order, each with a legal count (R25). -/
def rolesCover (waves : Nat) : Nat → List Role → Bool
  | n, [] => n == waves
  | n, r :: rs => r.first == n && decide (n ≤ r.last) && decide (r.last < waves) && r.cnt % 8 == 0 && decide (r.cnt ≤ 256) && rolesCover waves (r.last + 1) rs

/-- Whether the fields of a packet are in their ranges (code 1 of R276). -/
def packetOk (l : List Byte) : Bool :=
  let w := fld l 0x34 2
  let n := fld l 0x36 1
  let f := fld l 0x37 1
  decide (1 ≤ fld l 0x30 4) && w % 32 == 0 && decide (32 ≤ w) && decide (w ≤ 1024) && decide (1 ≤ n) && decide (n ≤ 16)
    && (!bitAt f 0 || n % 2 == 0) && decide (f < 8) && bits f 1 2 != 3 && fld l 0x38 4 % 256 == 0 && decide (fld l 0x38 4 ≤ 393216)
    && decide (1 ≤ fld l 0x3E 2) && decide (fld l 0x3E 2 ≤ w) && !(roleEntries l).isEmpty && rolesCover n 0 (roleEntries l)
    && fld l 0x70 8 % 16 == 0 && decide (fld l 0x78 1 ≤ 8) && fld l 0x79 7 == 0

/-- The kernel of a packet. -/
def packetKernel (l : List Byte) : Kernel :=
  { exec := w64 (fld l 8 8), trapPc := w64 (fld l 0x10 8), flash := w64 (fld l 0x18 8), flashN := fld l 0x3C 2, recipe := w64 (fld l 0x20 8),
    access := w64 (fld l 0x28 8), policy := bits (fld l 0x37 1) 1 2, width := fld l 0x34 2, lanes := fld l 0x3E 2,
    args := (List.range 16).map (fun i => w64 (fld l (0x80 + 8 * i) 8)), fromFsw := false }

/-- The grid of a packet. -/
def packetGrid (s : State) (q : Nat) (c : Ctx) (l : List Byte) : Grid :=
  { id := s.nextId, ctx := c.id, queue := q, prio := min (getQueue s q).prio c.prioCap, kernel := packetKernel l, teams := fld l 0x30 4, next := 0,
    live := 0, waves := fld l 0x36 1, pair := bitAt (fld l 0x37 1) 0, roles := roleEntries l, shelf := fld l 0x38 4, ack := w64 (fld l 0x60 8),
    done := w64 (fld l 0x68 8), root := none, pending := false, order := 0, since := s.ns, placed := false, ended := false }

/-- What the distributor finds at an address of 8 bytes under a context's tables (R276, R277, R350): a value, host pages to ask for, a peer to
read it from, or that it cannot be read. -/
inductive DepWord
  | val (x : Nat) | ask (pages : List W64) | peer (id : Nat) | bad
  deriving DecidableEq, Repr

/-- The read of such a word for a launch queue; a peer's is what it last answered. -/
def depWord (s : State) (q : LaunchQ) (c : Ctx) (a : W64) : DepWord :=
  if a.toNat % 8 ≠ 0 then .bad
  else match rawPlace s c a false with
    | some (sp, o, _) => .val (readNat s sp o 8)
    | none =>
      if !(ctxAsks s c a 8 false).isEmpty then .ask (ctxAsks s c a 8 false)
      else if aperOf a ≠ .global then .bad
      else match translate s c.asid c.ptroot a.toNat false with
        | .leaf e =>
          let l := e.leaf.toNat
          if leafAper l = 1 ∧ leafR l ∧ !(leafManaged l && !leafPinned l) ∧ peerUp s (leafPeer l) then
            (match q.seen.find? (fun x => x.1 == a) with
              | some x => .val x.2
              | none => .peer (leafPeer l))
          else .bad
        | _ => .bad

/-- What a list of words gives: all of them, what is still to be asked of the host and of peers, or that one cannot be read. -/
structure DepRead where
  vals : List Nat
  pages : List W64
  peers : List (W64 × Nat)
  bad : Option W64
  deriving DecidableEq, Repr

/-- Words of 8 bytes read for a launch queue. -/
def depWords (s : State) (q : LaunchQ) (c : Ctx) (as_ : List W64) : DepRead :=
  as_.foldl (fun b a => match depWord s q c a with
    | .val x => { b with vals := b.vals ++ [x] }
    | .ask ps => { b with pages := b.pages ++ ps }
    | .peer p => { b with peers := b.peers ++ [(a, p)] }
    | .bad => { b with bad := some (b.bad.getD a) }) { vals := [], pages := [], peers := [], bad := none }

/-- Whether every word of a list has been read. -/
def DepRead.whole (r : DepRead) : Bool := r.pages.isEmpty && r.peers.isEmpty && r.bad.isNone

/-- The addresses of the words of a packet's dependence list. -/
def depListAt (l : List Byte) : List W64 :=
  if fld l 0x70 8 = 0 then [] else (List.range (2 * fld l 0x78 1)).map (fun i => w64 (fld l 0x70 8) + w64 (8 * i))

/-- Counters and targets from the words of a dependence list. -/
def depPairs : List Nat → List (W64 × W64)
  | a :: t :: r => (w64 a, w64 t) :: depPairs r
  | _ => []

/-- The read of a counter on a peer, as an access. -/
def depAccess (a : W64) (p : Nat) : Access :=
  { kind := .load, ty := .n64, order := .acquire, scope := .s, wb := .none, vector := false, viaHandle := false,
    elems := [{ lane := 0, piece := 0, addr := a, site := .peer (BitVec.ofNat 9 p), data := 0, cmp := 0 }] }

/-- A queue's read of a word on a peer sent, unless it is under way or its space has no room. -/
def askPeer (s : State) (queue asid : Nat) (x : W64 × Nat) : State :=
  let acc := depAccess x.1 x.2
  if s.fab.out.any (fun p => p.owner == .dep queue && p.acc.elems.any (fun e => e.addr == x.1)) || !packetRoom s acc asid none then s
  else sendAll s acc asid none (.dep queue) false

/-- What a list of words lacks, asked for. -/
def depAsk (s : State) (queue : Nat) (c : Ctx) (r : DepRead) : State :=
  r.peers.foldl (fun x p => askPeer x queue c.asid p) (askAll s c r.pages)

/-- The packet at the head of a queue refused with a code (R276). -/
def refuseLaunch (s : State) (queue code : Nat) : State :=
  modQueue (dropDeps s queue) queue (fun x => { x with ridx := x.ridx + 1, err := true, code := code })

/-- A read of a queue that a peer has not answered with a value: the packet being read, or the launch that waits, is refused with code 4. -/
def depRefused (s : State) (queue : Nat) : State :=
  match (getQueue s queue).held with
  | some g =>
    modQueue (dropDeps { s with grids := s.grids.filter (fun x => x.id != g) } queue) queue
      (fun x => { x with held := none, deps := [], err := true, code := 4 })
  | none => refuseLaunch s queue 4

/-- A value that a peer has answered. -/
def depGot (s : State) (queue : Nat) (a : W64) (x : Nat) : State :=
  modQueue s queue (fun q => { q with seen := q.seen.filter (fun y => y.1 != a) ++ [(a, x)] })

/-- Whether a launch's teams fit on some core of its context's partition (R23). -/
def launchFits (s : State) (c : Ctx) (g : Grid) : Bool := (List.range 192).any (fun k => emptyFits s c (gridShape g) k)

/-- What the reading of a packet gives: a code of refusal, a wait for the host or for peers, or a grid with its dependences. -/
inductive LaunchRead
  | refused (s : State) (code : Nat) | wait (s : State) | taken (s : State) (g : Grid) (deps : List (W64 × W64))

/-- The dependences of a packet that passes its other checks, read (codes 4 of R276). -/
def depServe (s : State) (queue : Nat) (c : Ctx) (g : Grid) (l : List Byte) (s0 : State) : LaunchRead :=
  let r := depWords s (getQueue s queue) c (depListAt l)
  let k := depWords s (getQueue s queue) c ((depPairs r.vals).map (·.1))
  if r.bad.isSome ∨ (r.whole ∧ k.bad.isSome) then
    .refused ((depListAt l ++ (depPairs r.vals).map (·.1)).foldl (fun x a => heardAll x c a 8 false) s0) 4
  else if !r.whole then .wait (depAsk s0 queue c r)
  else if !k.whole then .wait (depAsk s0 queue c k)
  else .taken { s with nextId := s.nextId + 1, grids := s.grids ++ [g] } g (depPairs r.vals)

/-- A packet served: its grid and dependences, with the context held; or the code of its refusal (R276). `hostRefuses` says that the host
refuses the read of a descriptor in its memory. -/
def servePacket (s : State) (q : Nat) (l : List Byte) (hostRefuses : Bool) : LaunchRead :=
  let desc := w64 (fld l 0 8)
  if !packetOk l then .refused s 1
  else match descBytes s desc with
    | none => .refused s 2
    | some d =>
      let c0 := ctxOf 0 desc d
      if (hostRefuses && desc.getLsbD 63) || !descOk desc d || !asidAgrees s c0 then .refused s 2
      else if c0.status ≠ 0 ∨ s.ctxs.any (fun x => x.desc == desc && (x.status == 1 || x.status == 3)) then .refused s 5
      else
        let (s1, c) := holdCtx s c0
        let g := packetGrid s1 q c l
        if !launchFits s1 c g then .refused s 3 else depServe s1 q c g l s

/-- The packet at RIDX; one whose place no memory has reads as zeros (log 55). -/
def packetAt (s : State) (q : LaunchQ) : List Byte :=
  match sysPlace (q.base + w64 (256 * (q.ridx.toNat % 2 ^ q.log2n))) with
  | some (sp, o) => memGets (getMem s sp) o 256
  | none => List.replicate 256 0

/-- LAUNCH_PACKET_READ (R274 to R276, R348): once the device is up, the packet at RIDX is read, checked, and taken or refused; it stays while
its dependences are asked for (R307). -/
def execLaunchPacketRead (p : PacketRead) (s : State) : Host.Outcome State Fault Refusal :=
  let q := getQueue s p.queue
  if 64 ≤ p.queue ∨ !s.rel.powered ∨ !q.en ∨ q.ridx = q.widx ∨ q.held.isSome then .next s
  else if overran q then .next (overrun s p.queue)
  else
    match servePacket s p.queue (packetAt s q) p.hostRefuses with
    | .refused s1 code => .next (refuseLaunch s1 p.queue code)
    | .wait s1 => .next s1
    | .taken s1 g deps => .next (modQueue s1 p.queue (fun x => { x with ridx := x.ridx + 1, held := some g.id, deps := deps }))

/-- Whether the counters of a launch all hold at least their targets. -/
def depsMet (r : DepRead) (deps : List (W64 × W64)) : Bool := r.whole && (List.zip r.vals deps).all (fun p => decide (p.2.2.toNat ≤ p.1))

/-- The counters of a waiting launch asked for again: the host pages that are not translated, and those on peers that have been answered. -/
def depAgain (s : State) (queue : Nat) (c : Ctx) (deps : List (W64 × W64)) : State :=
  let r := depWords s { getQueue s queue with seen := [] } c (deps.map (·.1))
  depAsk (deps.foldl (fun x d => heardAll x c d.1 8 false) s) queue c r

/-- LAUNCH_PENDING (R277, R351): every dependence of the launch that a queue holds is met; it becomes pending, and acts as an acquire. -/
def execLaunchPending (queue : Nat) (s : State) : Host.Outcome State Fault Refusal :=
  let q := getQueue s queue
  match q.held with
  | none => .next s
  | some g => match s.grids.find? (fun x => x.id == g) with
    | none => .next (dropHeld s queue)
    | some x =>
      let c := getCtx s x.ctx
      if depsMet (depWords s q c (q.deps.map (·.1))) q.deps then
        let s1 := dropHeld s queue
        .next { s1 with
          nextId := s1.nextId + 1, icache := s1.icache.filter (fun l => l.asid != c.asid),
          grids := s1.grids.map (fun y => if y.id = g then { y with pending := true, order := s1.nextId, since := s1.ns } else y) }
      else .next (depAgain s queue c q.deps)

/-! ### Placement (R278 to R282, R305, R344) -/

/-- A sample of queue latency in whole µs, rounded down (R344); the rounding is the model's choice (log 116). -/
def noteLatency (s : State) (part since : Nat) : State :=
  { s with rel := { s.rel with samples := s.rel.samples ++ [(part, (s.ns - since) / 1000)] } }

/-- The kernel of the fault-service wave: no section, no policy (R305). -/
def fswKernel (d : TaskDesc) : Kernel :=
  { noKernel with exec := d.entry, width := d.width, lanes := d.lanes, args := d.args, fromFsw := true }

/-- The fault-service wave of a context placed, when its first launch has been, its descriptor can be read and a core has room (R305); the host
is asked for the pages of the descriptor that are not translated (R307). -/
def placeService (s : State) (ctx : Nat) : State :=
  let c := getCtx s ctx
  if c.fswPlaced ∨ c.fswDesc = 0 then s
  else if !(ctxAsks s c c.fswDesc 192 false).isEmpty then askAll s c (ctxAsks s c c.fswDesc 192 false)
  else match (ctxBytes s c c.fswDesc 192).bind taskDesc with
    | none => heardAll s c c.fswDesc 192 false
    | some d => match findCore s c (taskShape d) none (fun _ => true) with
      | none => s
      | some core =>
        let s1 := placeTeam s c .service 0 (taskShape d) [] (fswKernel d) c.prioCap 0 0 true core
        modCtx s1 ctx (fun x => { x with fswWave := some (s.nextId + 1), fswPlaced := true })

/-- The fault-service waves that could not be placed with their contexts' first launches, tried again. -/
def placeServices (s : State) : State :=
  (s.ctxs.filter (fun c => !c.fswPlaced && c.fswDesc != 0 && s.teams.any (fun t => t.ctx == c.id))).foldl (fun x c => placeService x c.id) s

/-- The root scope of a grid, opened with its first team (R278). -/
def gridRoot (s : State) (g : Grid) : Option (State × W64) :=
  let c := getCtx s g.ctx
  match g.root with
  | some slot => (c.scopes.find? (fun r => r.slot == slot)).map (fun r => (s, scopeId r))
  | none => (freeScope c).map (fun slot =>
      let (s1, id) := openScope s g.ctx slot 1 none g.ack none (some g.id)
      ({ s1 with grids := s1.grids.map (fun x => if x.id = g.id then { x with root := some slot } else x) }, id))

/-- The next team of a launch placed on a core. While no scope slot of its context is free for its root, the launch waits at its place in the
order (log 93). -/
def placeGrid (s : State) (g : Grid) (core : Nat) : State :=
  match gridRoot s g with
  | none => s
  | some (s1, scope) =>
    let s2 := placeTeam s1 (getCtx s1 g.ctx) (.grid g.id) g.next (gridShape g) g.roles g.kernel g.prio 0 scope false core
    let s3 : State := { s2 with grids := s2.grids.map (fun x => if x.id = g.id then { x with next := x.next + 1, live := x.live + 1, placed := true } else x) }
    placeService (if g.placed then s3 else noteLatency s3 (getCtx s g.ctx).part g.since) g.ctx

/-- A queued task placed on a core. -/
def placeTask (s : State) (t : Task) (core : Nat) : State :=
  let c := getCtx s t.ctx
  let shape : Shape := { pair := false, lead := 1, counts := [t.cnt], spare := [0, 0], width := t.kernel.width, shelf := t.shelf }
  let s1 : State := { s with tasks := s.tasks.filter (fun x => x.id != t.id) }
  noteLatency (placeTeam s1 c (.task t.id) 0 shape [] t.kernel t.prio t.depth t.scope false core) c.part t.since

/-- One team placed, from the first entry in the order of R279 that has a core. -/
def placeNext (s : State) : State :=
  match (pendings s).findSome? (fun e => (pendCore s e).map (fun k => (e.ref, k))) with
  | some (.task t, k) => placeTask s t k
  | some (.grid g, k) => placeGrid s g k
  | some (.saved t, k) => bringBack s t k
  | none => s

/-- TEAM_PLACEMENT (R279, R280, R305, R348): once the cores have left reset, one team is placed. -/
def execTeamPlacement (s : State) : Host.Outcome State Fault Refusal :=
  if !s.rel.powered then .next s else .next (placeNext (placeServices s))

/-! ### Ends (R271, R272, R278) -/

/-- GRID_END (R278): DONE is incremented by one; the grid and its scopes are gone. -/
def execGridEnd (grid : Nat) (s : State) : Host.Outcome State Fault Refusal :=
  match s.grids.find? (fun g => g.id == grid) with
  | none => .next s
  | some g =>
    if gridOver g then
      let s1 := if g.done = 0 then s else bumpFor s (getCtx s g.ctx) none g.done
      .next (freeAll { s1 with grids := s1.grids.filter (fun x => x.id != grid) } g.ctx)
    else .next s

/-- CONTEXT_END_INTERRUPT (R158, R271): once every abort has finished, STATUS takes 2 and the interrupt is raised. -/
def execContextEndInterrupt (ctx : Nat) (s : State) : Host.Outcome State Fault Refusal :=
  let c := getCtx s ctx
  if c.status = 3 ∧ !(s.ops.any (fun o => o.ctx == ctx)) then .next (raiseVec (setStatus s ctx 2) c.vec) else .next s

/-- CTX_END (R272): the context of the descriptor halts with no issuing wave, or, halting already, loses its issuing wave and ends. -/
def execCtxEnd (value : W64) (s : State) : Host.Outcome State Fault Refusal :=
  let a := w64 (value.toNat / 128 * 128)
  let s1 : State := { s with ctxEnd := a }
  match heldCtx s1 a with
  | none => .next s1
  | some c =>
    if !c.halted then .next (haltCheck (haltCtx s1 c.id none) c.id)
    else match c.haltWave with
      | some w => .next (killWave s1 w)
      | none => .next s1

end Sys2Proof.Machine
end

