-- ==== Sys2Proof/Machine/EvFabric.lean ====
section
/-! DEFINITION. The fabric's events (R82 to R84, R312 to R324): joining and peers, planes and the sending of packets, the packets that arrive
from peers, and the answers to this device's own. -/

namespace Sys2Proof.Machine

/-! ### Sequence spaces as a destination (R318 to R320) -/

/-- A sequence space as a destination. -/
def spaceIn (s : State) (sp : SeqSpace) : SeqIn :=
  (s.fab.spacesIn.find? (fun x => x.space == sp)).getD { space := sp, refused := false, expected := 0, accepted := [], responses := [] }

/-- A sequence space as a destination replaced. -/
def putSpaceIn (s : State) (x : SeqIn) : State :=
  { s with fab := { s.fab with spacesIn := s.fab.spacesIn.filter (fun y => y.space != x.space) ++ [x] } }

/-- A reply queued to leave the device, under the incarnation that its destination has now (R323). -/
def sendReply (s : State) (r : OutReply) : State :=
  { s with fab := { s.fab with replies := s.fab.replies ++ [{ r with dinc := (peerOf s r.peer).2 }] } }

/-- The lowest number that is not accepted, after the numbers accepted above it; `fuel` bounds them. -/
def advance : Nat → W32 → List W32 → W32 × List W32
  | 0, e, l => (e, l)
  | n + 1, e, l => if l.contains e then advance n (e + 1) (l.filter (· != e)) else (e, l)

/-- A space after a number has been accepted, with its reply kept among the latest 1,024; a refusal in a stream is the fate of the packets after it
too (R84). -/
def acceptIn (x : SeqIn) (seq : W32) (r : OutReply) : SeqIn :=
  let (e, l) := advance 1025 x.expected (x.accepted ++ [seq])
  { x with refused := x.refused || (x.space.streamed && r.status == 1), expected := e, accepted := l, responses := (r :: x.responses.filter (fun y => y.seq != seq)).take 1024 }

/-- What a destination makes of a number (R319): accepted; a duplicate with the reply that is sent again; out of sequence; or neither. -/
inductive SeqCheck
  | fresh | again (r : Option OutReply) | gap (r : OutReply) | outside
  deriving DecidableEq, Repr

/-- A reply to a request, in its class (R324): an ack or nak without results. -/
def replyTo (q : Req) (sp : SeqSpace) (seq : W32) (status : Nat) : OutReply :=
  { peer := q.src.toNat, dinc := q.sinc, kind := if status = 0 then 5 else 6, cls := q.cls, space := sp, seq := seq, status := status, results := [], poison := [] }

/-- The check of a request's number. -/
def seqCheck (x : SeqIn) (q : Req) : SeqCheck :=
  if q.streamed then
    if q.seq = x.expected then .fresh
    else if tagBefore x.expected q.seq then .gap (replyTo q x.space (x.expected - 1) 2)
    else .again (some (replyTo q x.space (x.expected - 1) 0))
  else
    let d := (q.seq - x.expected).toNat
    if d < 1024 then (if x.accepted.contains q.seq then .again (x.responses.find? (fun r => r.seq == q.seq)) else .fresh)
    else if tagBefore q.seq x.expected then .again (x.responses.find? (fun r => r.seq == q.seq))
    else .outside

/-- The space of an arriving request. -/
def reqSpace (q : Req) : SeqSpace := { peer := q.src.toNat, asid := q.asid, streamed := q.streamed, sub := q.sub }

/-- Whether a packet is stale (R322), by the incarnations that it carries. -/
def staleIn (s : State) (peer : Nat) (dinc sinc : BitVec 16) : Bool := dinc != s.fab.inc || sinc != (peerOf s peer).2

/-- One more packet dropped, saturating. -/
def countStale (s : State) : State :=
  { s with fab := { s.fab with stale := if s.fab.stale = BitVec.allOnes 32 then s.fab.stale else s.fab.stale + 1 } }

/-- The place of an address of a request of a peer; none where the request is refused (R319). -/
def servePlace (s : State) (c : Ctx) (k : AccKind) (a : W64) : Option (Space × Nat) :=
  if aperOf a = .global then
    match translate s c.asid c.ptroot a.toNat (kWrites k) with
    | .leaf e =>
      let l := e.leaf.toNat
      if (kReads k && !leafR l) || (kWrites k && !leafW l) || (leafManaged l && !leafPinned l) || leafAper l == 1 || (kAtomic k && !leafRatom l) then none
      else match leafAper l with
        | 0 => some (.hbm, frameAddr e a.toNat)
        | 2 => if frameAddr e a.toNat < s.cxltSize * 2 ^ 30 then some (.cxl, frameAddr e a.toNat) else none
        | _ => (hostPlace s c.asid (frameAddr e a.toNat) (kWrites k)).map (fun o => (.host, o))
    | _ => none
  else none

/-- The places of the addresses of a request, with the context of its ASID; none where the request is refused, for a failure of the CXL tier or
the host link too. -/
def servePlaces (s : State) (q : Req) (k : AccKind) (as_ : List W64) : Option (Ctx × List (Space × Nat)) :=
  match ctxOfAsid s q.asid with
  | none => none
  | some c => match as_.mapM (servePlace s c k) with
    | none => none
    | some ps => if q.linkFails && ps.any (fun p => isLinkSpace p.1) then none else some (c, ps)

/-- What a request serves to: the state, its reply, and whether the packet is accepted. -/
abbrev Served := State × OutReply × Bool

/-- A reply with the status of a nak. -/
def nakOf (r : OutReply) (status : Nat) : OutReply := { r with kind := 6, status := status }

/-- A request refused with status 1, which consumes its number; the host is asked for the pages that are not translated, and no page is
requested (R319, log 92). -/
def serveRefused (s : State) (q : Req) (k : AccKind) (as_ : List W64) (r : OutReply) : Served :=
  let w := kWrites k
  let s1 := match ctxOfAsid s q.asid with
    | some c => as_.foldl (fun x a => askAll (heardAll x c a 1 w) c (ctxAsks s c a 1 w)) s
    | none => s
  (s1, nakOf r 1, true)

/-- Whether a place lies in a line of an uncommitted packet (R83). -/
def placePending (s : State) (p : Space × Nat) : Bool := s.pending.contains (p.1, p.2 / 64)

/-- The lines of a list of places. -/
def placeLines (ps : List (Space × Nat)) : List (Space × Nat) := (ps.map (fun p => (p.1, p.2 / 64))).eraseDups

/-- An arriving request taken through the checks that all kinds share; `act` serves one whose number is fresh, or has it wait. In a stream in which
a packet has been refused it is refused too (R84). -/
def serve (s : State) (q : Req) (act : State → OutReply → Option Served) : State :=
  if !q.headerOk ∨ !s.fab.joined ∨ q.dst ≠ s.fab.id then s
  else if staleIn s q.src.toNat q.dinc q.sinc then countStale s
  else
    let x := spaceIn s (reqSpace q)
    match seqCheck x q with
    | .outside => s
    | .gap r => sendReply s r
    | .again r => match r with | some r => sendReply s r | none => s
    | .fresh => match (if x.refused then some (s, nakOf (replyTo q x.space q.seq 0) (if q.tagOk then 1 else 3), q.tagOk)
        else act s (replyTo q x.space q.seq 0)) with
      | some (s1, r, ok) => sendReply (if ok then putSpaceIn s1 (acceptIn (spaceIn s1 x.space) q.seq r) else s1) r
      | none => s

/-- The bytes of a write packet written at their places, with DIRTY of the one leaf that its range lies under (R304, R317). -/
def writeIn (s : State) (c : Ctx) (bs : List (Nat × Byte)) (ps : List (Space × Nat)) : State :=
  let s1 := (List.zip bs ps).foldl (fun x q => writeBytes x q.2.1 q.2.2 [q.1.2]) s
  match bs with
  | b :: _ => dirtyAt s1 c (w64 b.1)
  | [] => s1

/-- The places of the lines that a write packet carries poisoned. -/
def poisonedIn (q : Req) (ps : List (Space × Nat)) : List (Space × Nat) :=
  placeLines ((List.zip q.bytes ps).filterMap (fun z => if q.poison.contains (z.1.1 / 64) then some z.2 else none))

/-- A write packet served (R83, R320, R332): its data is written as it arrives; it commits when its tag verifies, else its lines stay
pending. -/
def serveWrite (q : Req) (s : State) (r : OutReply) : Option Served :=
  match servePlaces s q .store (q.bytes.map (fun b => w64 b.1)) with
  | none => some (if q.tagOk then serveRefused s q .store (q.bytes.map (fun b => w64 b.1)) r else (s, nakOf r 3, false))
  | some (c, ps) =>
    let s1 := writeIn s c q.bytes ps
    if q.tagOk then
      let s2 := ((ps.map (·.1)).eraseDups).foldl (fun x sp => clearPoison x sp ((ps.filter (fun z => z.1 == sp)).map (·.2))) s1
      let s3 := (poisonedIn q ps).foldl (fun x z => addPoison x z.1 z.2) s2
      some ({ s3 with pending := s3.pending.filter (fun l => !(placeLines ps).contains l) }, r, true)
    else some ({ s1 with pending := (s1.pending ++ placeLines ps).eraseDups }, nakOf r 3, false)

/-- A request packet of a kind served. -/
def servePacketOf (kind : Nat) (pkt : Packet) (s : State) (act : Req → State → OutReply → Option Served) : State :=
  let q := reqOf pkt
  if q.kind = kind then serve s q (act q) else s

/-- FABRIC_WRITE_PACKET (R82, R83, R316, R319, R320, R322); increments and heals that have waited for its commit are tried again. -/
def execFabricWritePacket (pkt : Packet) (s : State) : Host.Outcome State Fault Refusal := .next (retryDues (servePacketOf 0 pkt s serveWrite))

/-- The records that are poisoned. -/
def recPoison (s : State) (ps : List (Space × Nat)) : List Nat :=
  (List.range ps.length).filter (fun i => match ps[i]? with | some (sp, o) => isPoison s sp o | none => false)

/-- A read packet served: one result for each record, in record order; the read of an acquire load waits for a pending line (R83). -/
def serveRead (q : Req) (s : State) (r : OutReply) : Option Served :=
  if !q.tagOk then some (s, nakOf r 3, false)
  else match servePlaces s q .load (q.recs.map (·.addr)) with
    | none => some (serveRefused s q .load (q.recs.map (·.addr)) r)
    | some (_, ps) =>
      if q.acquire && ps.any (placePending s) then none
      else some (s, { r with kind := 3, results := ps.map (fun p => w64 (readNat s p.1 p.2 (tySize q.etype))), poison := recPoison s ps }, true)

/-- FABRIC_READ_PACKET (R83, R316, R319, R320, R322). -/
def execFabricReadPacket (pkt : Packet) (s : State) : Host.Outcome State Fault Refusal := .next (servePacketOf 1 pkt s serveRead)

/-- One atomic record performed at the point of order, with its old value; one in a poisoned line is not performed (R226, R332). -/
def atomRec (q : Req) (c : Ctx) (x : State × List W64) (z : PacketRec × Space × Nat) : State × List W64 :=
  let (s, out) := x
  let (r, sp, o) := z
  let n := tySize q.etype
  let old := readNat s sp o n
  if isPoison s sp o then (s, out ++ [w64 old])
  else (dirtyAt (writeBytes s sp o (natToBytes n (atomNew q.aop q.etype old r.data.toNat))) c r.addr, out ++ [w64 old])

/-- An atomic packet served; it waits while a line that it reaches is pending (R83). -/
def serveAtomic (q : Req) (s : State) (r : OutReply) : Option Served :=
  if !q.tagOk then some (s, nakOf r 3, false)
  else match servePlaces s q (.atom q.aop) (q.recs.map (·.addr)) with
    | none => some (serveRefused s q (.atom q.aop) (q.recs.map (·.addr)) r)
    | some (c, ps) =>
      if ps.any (placePending s) then none
      else
        let (s1, out) := (List.zip q.recs ps).foldl (atomRec q c) (s, [])
        some (s1, { r with kind := 4, results := out, poison := recPoison s ps }, true)

/-- FABRIC_ATOMIC_PACKET (R83, R237, R316, R319, R320, R322). -/
def execFabricAtomicPacket (pkt : Packet) (s : State) : Host.Outcome State Fault Refusal := .next (servePacketOf 2 pkt s serveAtomic)

/-! ### Answers to this device's packets (R318, R320, R321) -/

/-- A packet no longer outstanding. -/
def dropOut (s : State) (id : Nat) : State := { s with fab := { s.fab with out := s.fab.out.filter (fun p => p.id != id) } }

/-- The results of a packet's elements, in record order. -/
def gotOf (p : OutPkt) (rs : List W64) (pois : List Nat) : List Got :=
  (List.range p.acc.elems.length).filterMap (fun i => match p.acc.elems[i]? with
    | some e => some { lane := e.lane, piece := e.piece, val := (rs[i]?).getD 0, poison := pois.contains i }
    | none => none)

/-- The elements of an atomic packet that were performed: not those of poisoned lines, nor CAS whose comparison failed (R226, R304). -/
def performedOf (p : OutPkt) (rs : List W64) (pois : List Nat) : List Elem :=
  (List.range p.acc.elems.length).filterMap (fun i => match p.acc.elems[i]? with
    | some e =>
      let n := tyWidth p.acc.ty
      if pois.contains i || (p.acc.kind == .cas && ((rs[i]?).getD 0).toNat % 2 ^ n != e.cmp.toNat % 2 ^ n) then none else some e
    | none => none)

/-- A suspended TRYW whose read of a peer has come back (R251). -/
def trywGot (s : State) (id : Nat) (x : W64) (pois : Bool) : State :=
  match findWave s id with
  | none => s
  | some v => match v.ctl.wait, insAt s v v.ctl.pc with
    | .tryw target deadline _, some (.tryw g) =>
      if killDue s v then killWave s id
      else if pois then trywReturn s v false true
      else finish v (.tryw g) none (trywSeen s v x.toNat target deadline)
    | _, _ => s

/-- What a peer has answered to the read of a record at issue: its words, or the cause of its failure (R238). -/
def readerGot (s : State) (id : Nat) (p : OutPkt) (got : Option (List W64)) (fail : Option Nat) : State :=
  let a := (p.acc.elems.map (·.addr)).headD 0
  modWave s id (fun w => match w.ctl.peerRec with
    | some r => if r.addr = a then { w with ctl := { w.ctl with peerRec := some { r with got := got, fail := fail } } } else w
    | none => w)

/-- The stage of a completion block on a peer that has been refused (R243). -/
def blockRefused (o : EngOp) : EngOp := { o with stage := if 10 ≤ o.stage then 19 else 9 }

/-- An engine's write packet with its data read again from the source (R320), and what must first be fetched from a peer for it; what cannot be
read now keeps what was read. -/
def engAgain (s : State) (op : EngOp) (p : OutPkt) : OutPkt × List Elem :=
  p.acc.elems.foldl (fun (b : OutPkt × List Elem) e =>
    let put (x : Elem) : OutPkt := { b.1 with acc := { b.1.acc with elems := b.1.acc.elems ++ [x] } }
    match engSrc s s op e.piece with
    | .val x _ _ _ => (put { e with data := w64 x }, b.2)
    | .fetch a t id => (put e, b.2 ++ [{ lane := 0, piece := e.piece, addr := a, site := .peer id, data := w64 (tySize t), cmp := 0 }])
    | _ => (put e, b.2)) ({ p with acc := { p.acc with elems := [] } }, [])

/-- A packet of an engine operation that is to be sent again: it waits for what is fetched anew from peers for it (R320). -/
def engResend (s : State) (op : EngOp) (p : OutPkt) : State :=
  let (q, need) := engAgain s op p
  let s1 : State := { s with fab := { s.fab with out := s.fab.out.map (fun x => if x.id = p.id then { q with hold := !need.isEmpty } else x) } }
  if need.isEmpty then s1 else sendFetches s1 op need

/-- The packets of an operation that wait for what is fetched anew, when it has come; with a fetch that has failed they keep what they held. -/
def engResume (s : State) (op : Nat) (failed : Bool) : State :=
  let held := s.fab.out.filter (fun p => p.owner == .engine op && p.hold)
  if held.isEmpty ∨ (opPackets s op).any (fun p => p.kind == 1) then s
  else match s.ops.find? (fun o => o.id == op) with
    | none => s
    | some o =>
      let s1 := held.foldl (fun x p =>
        if failed then { x with fab := { x.fab with out := x.fab.out.map (fun y => if y.id = p.id then { y with hold := false } else y) } }
        else engResend x o p) s
      if s1.fab.out.any (fun p => p.owner == .engine op && p.hold) then s1 else modOp s1 op (fun x => { x with fetched := [] })

/-- A packet answered with status 0: its results reach what waits for them. -/
def packetDone (s : State) (p : OutPkt) (rs : List W64) (pois : List Nat) : State :=
  let s1 := dropOut s p.id
  match p.owner with
  | .slip w t =>
    let got := if p.kind = 0 then [] else gotOf p rs pois
    let s2 := if p.kind = 2 then dirtyFar s1 w t (performedOf p rs pois) else s1
    settleAll (modSlip s2 w t (fun x => match x.op with | .mem a g l => { x with op := .mem a (g ++ got) l } | _ => x)) w
  | .tryw w => trywGot s1 w ((rs[0]?).getD 0) (pois.contains 0)
  | .engine o =>
    if p.kind = 1 then
      engResume (modOp s1 o (fun x => { x with fetched := x.fetched ++ (List.range p.acc.elems.length).filterMap (fun i => match p.acc.elems[i]? with
        | some e => some (e.addr, (rs[i]?).getD 0, pois.contains i)
        | none => none) })) o false
    else if p.kind = 2 ∧ pois.contains 0 then modOp s1 o blockRefused
    else s1
  | .ack => if pois.contains 0 then lostIncrement s1 ((p.acc.elems.map (·.addr)).headD 0) else s1
  | .heal c => (performedOf p rs pois).foldl (fun x e => dirtyPeer x (getCtx x c) e) s1
  | .dep q => if pois.contains 0 then depRefused s1 q else depGot s1 q ((p.acc.elems.map (·.addr)).headD 0) ((rs[0]?).getD 0).toNat
  | .reader w =>
    if pois.isEmpty then readerGot s1 w p (some ((List.range p.acc.elems.length).map (fun i => (rs[i]?).getD 0))) none
    else modWave (readerGot s1 w p none (some 0x13)) w (fun v => { v with hz := { v.hz with machineCheck := true } })
  | .nobody => s1

/-- The failure of an engine operation's packet: a fault at its first element, or a block that cannot be written (R243). -/
def engPacketFail (o : EngOp) (p : OutPkt) (cause : Nat) (peer : W32) : EngOp :=
  if o.stage ≠ 0 then blockRefused o else engFails o p.acc.elems cause peer

/-- A packet that fails with a cause (R321). -/
def packetFails (s : State) (cause : Nat) (p : OutPkt) : State :=
  let s1 := dropOut s p.id
  let peer := w32 (p.dinc.toNat * 65536 + p.space.peer % 512)
  match p.owner with
  | .slip w t =>
    settleAll (modSlip s1 w t (fun x => addFail x cause 0 (maskOf (p.acc.elems.map (·.lane))) peer)) w
  | .tryw w => match findWave s1 w with | some v => trywReturn s1 v false true | none => s1
  | .engine o => let s2 := modOp s1 o (fun x => engPacketFail x p cause peer); if p.kind = 1 then engResume s2 o true else s2
  | .ack => lostIncrement s1 ((p.acc.elems.map (·.addr)).headD 0)
  | .dep q => depRefused s1 q
  | .reader w => readerGot s1 w p none (some cause)
  | .heal _ | .nobody => s1

/-- A packet of a stream that fails takes every later packet of its space with it, and the space is resynchronised before it takes another
(R84). -/
def failFrom (s : State) (cause : Nat) (p : OutPkt) : State :=
  if p.space.streamed then
    let later := (outIn s p.space).filter (fun q => q.id == p.id || tagBefore p.seq q.seq)
    let s1 := later.foldl (fun x q => packetFails x cause q) s
    putSpaceOut s1 { spaceOut s1 p.space with resync := true }
  else packetFails s cause p

/-- PSTS_RESYNC (R84): as source, with no failure left to resolve the space takes packets again; as destination, the device learns the number
that a peer's stream goes on with (log 45). -/
def execPstsResync (r : Resync) (s : State) : Host.Outcome State Fault Refusal :=
  match r.dest with
  | some n => .next (if r.space.streamed then putSpaceIn s { spaceIn s r.space with refused := false, expected := n, accepted := [], responses := [] } else s)
  | none =>
    let x := spaceOut s r.space
    if x.resync ∧ (outIn s r.space).isEmpty then .next (putSpaceOut s { x with resync := false }) else .next s

/-- The packet of a space and number that has been sent. -/
def sentPkt (s : State) (sp : SeqSpace) (seq : W32) : Option OutPkt := (outIn s sp).find? (fun p => p.seq == seq && p.first.isSome)

/-- A reply of one of some kinds, heard: one that fails its checks, or is for another device, is dropped, and a stale one is counted, whatever its
tag (R316, R322, log 91). What it frees lets increments and heals that wait be tried again. -/
def hears (s : State) (ans : Answer) (kinds : List Nat) (f : Ans → State) : State :=
  let a := ansOf ans
  if !a.headerOk ∨ !s.fab.joined ∨ a.dst ≠ s.fab.id ∨ !kinds.contains a.kind then s
  else if staleIn s a.space.peer a.dinc a.sinc then countStale s
  else if a.tagOk then retryDues (f a) else s

/-- The packets that an ack answers: of a stream every one up to its number, else its own. -/
def acked (s : State) (a : Ans) : List OutPkt :=
  if a.space.streamed then (outIn s a.space).filter (fun p => p.first.isSome && (p.seq == a.seq || tagBefore p.seq a.seq))
  else (sentPkt s a.space a.seq).toList

/-- FABRIC_ACK (R319 to R322). -/
def execFabricAck (ans : Answer) (s : State) : Host.Outcome State Fault Refusal :=
  .next (hears s ans [5] (fun a => (acked s a).foldl (fun x p => if p.kind = 0 then packetDone x p [] [] else x) s))

/-- Packets put back into the queues of their flows, with the data that a retransmission reads again (R320). -/
def requeue (s : State) (ids : List Nat) : State :=
  let again (p : OutPkt) : Bool := ids.contains p.id && p.first.isSome
  let s1 : State := { s with fab := { s.fab with out := s.fab.out.map (fun p => if again p then { p with queued := true } else p) } }
  (s1.fab.out.filter (fun p => again p && p.kind == 0)).foldl (fun x p => match p.owner with
    | .engine o => match s.ops.find? (fun y => y.id == o) with
      | some op => if op.stage = 0 then engResend x op p else x
      | none => x
    | _ => x) s1

/-- The retransmission of a packet (R320): go-back-N for a stream, the packet alone otherwise. -/
def retransmit (s : State) (p : OutPkt) : State :=
  if p.space.streamed then requeue s ((outIn s p.space).map (·.id)) else requeue s [p.id]

/-- A nak of a packet, by its status: 1 fails the packet with 0x10; others have it, or its stream, sent again. -/
def naked (s : State) (a : Ans) : State :=
  if a.status = 1 then
    match sentPkt s a.space a.seq with
    | some p => failFrom s 0x10 p
    | none => s
  else if a.space.streamed then requeue s ((outIn s a.space).map (·.id))
  else match sentPkt s a.space a.seq with
    | some p => retransmit s p
    | none => s

/-- FABRIC_NAK (R319 to R322). -/
def execFabricNak (ans : Answer) (s : State) : Host.Outcome State Fault Refusal := .next (hears s ans [6] (naked s))

/-- FABRIC_RESPONSE (R320 to R322): the response of a read or atomic, or its refusal. -/
def execFabricResponse (ans : Answer) (s : State) : Host.Outcome State Fault Refusal :=
  .next (hears s ans [3, 4] (fun a => match sentPkt s a.space a.seq with
    | some p =>
      if p.kind = 0 then s
      else if a.status = 0 then packetDone s p a.results a.poison
      else naked s a
    | none => s))

/-- RTO and TMO of FAB_CTL, 0 treated as 1. -/
def orOne (x : Nat) : Nat := if x = 0 then 1 else x

/-- FABRIC_RTO_EXPIRY (R314, R320). -/
def execFabricRtoExpiry (pkt : Nat) (s : State) : Host.Outcome State Fault Refusal :=
  match s.fab.out.find? (fun p => p.id == pkt) with
  | some p => if p.first.isSome && !p.queued && decide (p.last + 1000 * orOne s.fab.rto ≤ s.ns) then .next (retransmit s p) else .next s
  | none => .next s

/-- FABRIC_TMO_EXPIRY (R314, R321): no answer within TMO of a packet's first transmission. -/
def execFabricTmoExpiry (pkt : Nat) (s : State) : Host.Outcome State Fault Refusal :=
  match s.fab.out.find? (fun p => p.id == pkt) with
  | some p => match p.first with
    | some t => if t + 10000 * orOne s.fab.tmo ≤ s.ns then .next (retryDues (failFrom s 0x11 p)) else .next s
    | none => .next s
  | none => .next s

/-! ### Joining and peers (R312, R313, R323) -/

/-- FAB_CTL_EN (R312, R314, R348): once the links have trained, the ports are enabled and a join begins; until it is complete the device has not
joined. -/
def execFabCtlEn (s : State) : Host.Outcome State Fault Refusal :=
  if s.rel.powered && s.rel.links then .next { s with fab := { s.fab with en := true, joining := true, joined := false } } else .next s

/-- What an engine operation has still to send to peers, and every outstanding packet, failed with 0x11. -/
def failAll (s : State) : State :=
  let s1 := s.fab.out.foldl (fun y p => packetFails y 0x11 p) s
  { s1 with ops := s1.ops.map (fun o => (peersOf (engAccess .store (engShape o).1 o.far)).foldl (fun x p => farFails 0x11 p (peerWord s p) x) o) }

/-- FABRIC_JOIN (R312): the first join takes what the manager assigns; a later one keeps the id and takes the next incarnation, and begins every
sequence space anew, with what was outstanding failed by 0x11 (log 61). -/
def execFabricJoin (id : BitVec 9) (inc : BitVec 16) (s : State) : Host.Outcome State Fault Refusal :=
  if s.fab.joining && s.rel.powered && s.rel.links then
    let x := if s.fab.everJoined then failAll s else s
    let f := s.fab
    .next { x with fab := { x.fab with
      joined := true, joining := false, everJoined := true, id := if f.everJoined then f.id else id, inc := if f.everJoined then f.inc + 1 else inc,
      spacesOut := if f.everJoined then [] else f.spacesOut, spacesIn := if f.everJoined then [] else f.spacesIn } }
  else .next s

/-- Every outstanding packet to a peer fails with a cause, and so does what engine operations have still to send to it; `old` is its incarnation
until then. -/
def failPeer (s : State) (peer cause : Nat) (old : BitVec 16) : State :=
  let s1 := (s.fab.out.filter (fun p => p.space.peer == peer)).foldl (fun x p => packetFails x cause p) s
  { s1 with ops := s1.ops.map (farFails cause peer (w32 (old.toNat * 65536 + peer % 512))) }

/-- Every sequence space with a peer back at 0, in both directions (R323). -/
def resetSpaces (s : State) (peer : Nat) : State :=
  { s with fab := { s.fab with
      spacesOut := s.fab.spacesOut.filter (fun x => x.space.peer != peer), spacesIn := s.fab.spacesIn.filter (fun x => x.space.peer != peer) } }

/-- The streams with a peer of which packets were outstanding, to be resynchronised (R84). -/
def resyncPeer (s : State) (peer : Nat) (sps : List SeqSpace) : State :=
  sps.foldl (fun x sp => if sp.streamed && sp.peer == peer then putSpaceOut x { spaceOut x sp with resync := true } else x) s

/-- FABRIC_PEER_UPDATE (R313, R321, R323): a new incarnation fails what is outstanding with 0x12 and resets the spaces; a peer that is down or
absent fails it with 0x11. -/
def execFabricPeerUpdate (peer : BitVec 9) (st : BitVec 2) (inc : BitVec 16) (s : State) : Host.Outcome State Fault Refusal :=
  let n := peer.toNat
  let old := assoc s.fab.peers n (0, 0)
  let sps := (s.fab.out.map (·.space)).eraseDups
  let s1 : State := { s with fab := { s.fab with peers := assocPut s.fab.peers n (some (st, inc)) } }
  if old.2 ≠ inc then .next (resetSpaces (failPeer s1 n 0x12 old.2) n)
  else if st ≠ 1 then .next (resyncPeer (failPeer s1 n 0x11 old.2) n sps)
  else .next s1

/-! ### Planes and sending (R315, R316, R324) -/

/-- The number of flits of a packet (R316, R317). -/
def flitsOf (s : State) (p : OutPkt) : Nat := (wireOf s p).length

/-- The flow of a packet (R315): a stream id for PSTS, the class for every other request. -/
def flowIs (p : OutPkt) (f : Flow) : Bool :=
  f.peer == p.space.peer && f.streamed == p.space.streamed && f.sub == (if p.space.streamed then p.space.sub else p.cls)

/-- Whether two packets are of one flow. -/
def sameFlow (p q : OutPkt) : Bool :=
  p.space.peer == q.space.peer && p.space.streamed == q.space.streamed && (if p.space.streamed then p.space.sub == q.space.sub else p.cls == q.cls)

/-- The plane that a flow uses, while it has one that is up. -/
def flowPlane (s : State) (p : OutPkt) : Option Flow := s.fab.flows.find? (fun f => flowIs p f && s.fab.planes.contains f.plane)

/-- The flits queued at the local port of a plane. -/
def portFlits (s : State) (plane : Nat) : Nat :=
  (s.fab.out.filter (fun p => p.queued && (match flowPlane s p with | some f => f.plane == plane | none => false))).foldl (fun a p => a + flitsOf s p) 0

/-- The up plane with the fewest queued flits, the lowest on a tie. -/
def bestPlane (s : State) : Option Nat :=
  ((List.range 32).filter (fun k => s.fab.planes.contains k)).foldl (fun (b : Option Nat) k => match b with
    | some x => if portFlits s k < portFlits s x then some k else some x
    | none => some k) none

/-- The plane that the next packet of a flow takes (R315): its own, or another when the flow has been silent longer than the gap. -/
def nextPlane (s : State) (p : OutPkt) : Option Nat :=
  match flowPlane s p with
  | some f => if f.last + 250 * orOne s.fab.skew < s.ns then bestPlane s else some f.plane
  | none => bestPlane s

/-- The packets that may leave on a plane: the first queued of each flow, when its data is there and nothing that it must follow is left. -/
def readyOn (s : State) (plane : Nat) : List OutPkt :=
  let q := s.fab.out.filter (·.queued)
  q.filter (fun p => !p.hold && !packetWaits s p && nextPlane s p == some plane && (match q.find? (fun x => sameFlow x p) with | some x => x.id == p.id | none => false))

/-- The flits of class 0 that a port may admit in 1 µs: a tenth of 800 Gb/s in flits of 64 bytes (R13, R324). -/
def classZeroLimit : Nat := 156

/-- Whether a port may admit a class-0 packet now. -/
def admits (s : State) (plane : Nat) (p : OutPkt) : Bool :=
  decide ((s.fab.admitted.filter (fun x => x.1 == plane && decide (s.ns < x.2.1 + 1000))).foldl (fun a x => a + x.2.2) 0 + flitsOf s p ≤ classZeroLimit)

/-- The class after the one last served, among 1 to 3. -/
def rrOrder (s : State) (plane : Nat) : List Nat :=
  match assoc s.fab.rr plane 3 with
  | 1 => [2, 3, 1] | 2 => [3, 1, 2] | _ => [1, 2, 3]

/-- What a port sends: a reply of this device, or a request packet. -/
inductive Outgoing
  | rep (r : OutReply) | req (p : OutPkt)
  deriving DecidableEq, Repr

/-- The flits that leave (R316). -/
def outFlits (s : State) : Outgoing → List (List Byte)
  | .rep r => replyWire s r
  | .req p => wireOf s p

/-- What a port sends next of a class: its replies, then its requests (log 97). -/
def pickClass (s : State) (l : List OutPkt) (k : Nat) (ok : OutPkt → Bool) : Option Outgoing :=
  match s.fab.replies.find? (fun r => r.cls == k) with
  | some r => some (.rep r)
  | none => (l.find? (fun p => p.cls == k && ok p)).map .req

/-- What a port sends next (R324): class 0 first, then classes 1 to 3 in turn. -/
def pickPacket (s : State) (plane : Nat) : Option Outgoing :=
  let l := readyOn s plane
  match pickClass s l 0 (admits s plane) with
  | some x => some x
  | none => (rrOrder s plane).findSome? (fun k => pickClass s l k (fun _ => true))

/-- A port with the packet that it has sent in its retransmission buffer. -/
def portSent (s : State) (plane cls : Nat) (x : Outgoing) : State :=
  let w := outFlits s x
  { s with fab := { s.fab with
      rr := if cls = 0 then s.fab.rr else assocPut s.fab.rr plane (some cls),
      sent := assocPut s.fab.sent plane (some (assoc s.fab.sent plane 0 + w.length)),
      buffers := s.fab.buffers.filter (fun b => b.1 != plane) ++ [(plane, w, flitTag w)] } }

/-- A packet or reply that leaves on a plane. -/
def leaveOn (s0 : State) (plane : Nat) (x : Outgoing) : State :=
  match x with
  | .rep r =>
    let s := portSent s0 plane r.cls x
    { s with fab := { s.fab with replies := s.fab.replies.erase r } }
  | .req p =>
    let s := portSent s0 plane p.cls x
    let f := s.fab
    let flow : Flow := { peer := p.space.peer, streamed := p.space.streamed, sub := if p.space.streamed then p.space.sub else p.cls, plane := plane, last := s.ns }
    { s with fab := { f with
        out := f.out.map (fun q => if q.id = p.id then { q with queued := false, first := some (q.first.getD s.ns), last := s.ns } else q),
        flows := f.flows.filter (fun y => !flowIs p y) ++ [flow],
        admitted := if p.cls = 0 then f.admitted.filter (fun y => decide (s.ns < y.2.1 + 1000)) ++ [(plane, s.ns, flitsOf s p)] else f.admitted } }

/-- FABRIC_PACKET_SEND (R312, R315, R324): a port of an up plane sends its next packet, once the device has joined. -/
def execFabricPacketSend (plane : Nat) (s : State) : Host.Outcome State Fault Refusal :=
  if s.fab.joined && s.fab.en && s.fab.planes.contains plane then
    match pickPacket s plane with
    | some x => .next (leaveOn s plane x)
    | none => .next s
  else .next s

/-- The retries of a plane's flits forgotten. -/
def noRetries (l : List (Nat × Nat × Nat)) (plane : Nat) : List (Nat × Nat × Nat) := l.filter (fun r => r.1 != plane)

/-- FABRIC_PLANE_UP (R315): the port of a plane of a device that has come up has trained (R348). -/
def execFabricPlaneUp (plane : Nat) (s : State) : Host.Outcome State Fault Refusal :=
  if s.rel.powered ∧ plane < 32 ∧ !s.fab.planes.contains plane then
    .next { s with fab := { s.fab with planes := s.fab.planes ++ [plane], retries := noRetries s.fab.retries plane } }
  else .next s

/-- A plane that is down: its flows move with their next packet. -/
def planeGone (s : State) (plane : Nat) : State :=
  { s with fab := { s.fab with planes := s.fab.planes.filter (· != plane), flows := s.fab.flows.filter (fun f => f.plane != plane),
                               retries := noRetries s.fab.retries plane } }

/-- PLANE_DOWN (R315). -/
def execPlaneDown (plane : Nat) (s : State) : Host.Outcome State Fault Refusal := .next (planeGone s plane)

/-- How often a flit of a plane's port has been retried. -/
def flitRetries (s : State) (plane flit : Nat) : Nat :=
  match s.fab.retries.find? (fun r => r.1 == plane && r.2.1 == flit) with
  | some r => r.2.2
  | none => 0

/-- FLIT_LINK_RETRY (R315, R316): a flit that a port has sent is sent again from its buffer; at its 16th retry the plane is down. -/
def execFlitLinkRetry (f : FlitNak) (s : State) : Host.Outcome State Fault Refusal :=
  if !s.fab.planes.contains f.plane ∨ assoc s.fab.sent f.plane 0 ≤ f.flit then .next s
  else
    let n := flitRetries s f.plane f.flit + 1
    if 16 ≤ n then .next (planeGone s f.plane)
    else .next { s with fab := { s.fab with
      retries := s.fab.retries.filter (fun r => !(r.1 == f.plane && r.2.1 == f.flit)) ++ [(f.plane, f.flit, n)] } }

end Sys2Proof.Machine
end

