-- ==== Sys2Proof/Machine/EvRel.lean ====
section
/-! DEFINITION. The events of reliability (R331 to R340), of the crossbar's layout (R341 to R343), of the latency monitors (R344), of security
(R345, R346), power (R347) and the thermal and issue limits (R281, R287). -/

namespace Sys2Proof.Machine

/-- The registers of reliability, partitions, security and power changed. -/
def modRel (s : State) (f : Rel → Rel) : State := { s with rel := f s.rel }

/-! ### Errors in arrays (R331 to R338) -/

/-- The core of a team or wave, of whose memories the lines of a shelf and a stack are. -/
def homeCore (s : State) (sp : Space) : Nat :=
  match sp with
  | .shelf t => (getTeam s t).core
  | .stack w => match findWave s w with | some x => x.core | none => 0
  | _ => 0

/-- The error bank of a line in its own array, the unit whose row holds it, and its number in ERR_MISC (R334, R335); the memories of the host
and of the CXL tier, no arrays of the device, have the links' first bank (log 102). -/
def homeUnit (s : State) (sp : Space) (a : Nat) : Nat × Option FailUnit × Nat :=
  match sp with
  | .hbm => (16 + a / 2 ^ 36, some (.hbmRow (a / 2 ^ 36)), 0)
  | .annex c slot => let d := (((getCtx s c).dies[slot]?).getD none).getD 0; (12 + d, some (.annexSegment d), 0)
  | .cxl | .host => (60, none, 0)
  | sp => (clusterOf (homeCore s sp), some (.row (homeCore s sp)), homeCore s sp)

/-- The error bank of a site, the unit whose row holds it, and its number in ERR_MISC (R334, R335). -/
def siteUnit (s : State) (x : ArraySite) : Nat × Option FailUnit × Nat :=
  let core (c : Nat) : Nat × Option FailUnit × Nat := (clusterOf c, some (.row c), c)
  match x with
  | .line sp a h => match h with
    | .home => homeUnit s sp a
    | .l2 n => (12 + n / 16, some (.l2Slice n), 0)
    | .l1 c => core c
  | .vreg w _ _ => core (match findWave s w with | some v => v.core | none => 0)
  | .icache c _ _ _ | .translation c _ _ | .hostTranslation c _ _ | .catalogue c _ _ => core c
  | .lockEntry die _ => (12 + die, some (.lockTable die), 0)

/-- The array address of a site for ERR_ADDR (R335). -/
def siteAddr : ArraySite → W64
  | .line _ a _ => w64 a
  | .vreg _ r _ => w64 r
  | .icache _ _ a _ => a
  | .translation _ _ a => w64 a
  | .hostTranslation _ _ a => a
  | .catalogue _ _ h => w64 h
  | .lockEntry _ i => w64 i

/-- The record of an error in an array (R331, R335, R336): SRC 1, in the bank fixed to the unit, with the row and the raw syndrome; the row's test
starts (R337). -/
def arrayRecord (s : State) (e : ArrayError) (cls : Nat) : State :=
  let u := siteUnit s e.site
  rowRecord s u.2.1 u.1 cls 1 (some (siteAddr e.site)) (some e.synd) (miscOf u.2.2 e.row)

/-- A bit of a byte changed. -/
def flipBit (l : List Byte) (n : Nat) : List Byte := setAt l (n / 8) ((l[n / 8]?).getD 0 ^^^ BitVec.ofNat 8 (2 ^ (n % 8)))

/-- A bit changed in a line of a core's instruction cache: its next fetch meets it (R120, R331). -/
def spoilLine (s : State) (core asid : Nat) (a : W64) (n : Nat) : State :=
  { s with icache := s.icache.map (fun x =>
      if x.core = core ∧ x.asid = asid ∧ x.addr = lineAddr a then { x with bytes := flipBit x.bytes (n % 512) } else x) }

/-- Lanes of a vector register of a wave that hold poison (R331): what the register now holds there is a free value. -/
def spoilRegs (s : State) (id r : Nat) (m : Mask) : State :=
  match findWave s id with
  | none => s
  | some w =>
    let ws := (lanes m w.width).map (fun l => (l, Config.freeWord (s.free + l)))
    putWave { s with free := s.free + w.width } (poisonReg (putVRegs w [(r, ws)]) r (m &&& maskBelow w.width))

/-- A cached entry of a translation or catalogue cache dropped, to be read again (R331). -/
def dropEntry (s : State) (x : ArraySite) : State :=
  match x with
  | .translation _ asid base => { s with tlb := s.tlb.filter (fun e => !(e.asid == asid && e.base == base)) }
  | .hostTranslation _ asid page => dropAts s (fun a p => a == asid && p == page)
  | .catalogue core ctx heap => { s with colours := s.colours.filter (fun y => !(y.1 == core && y.2.1 == ctx && y.2.2.1 == heap)) }
  | _ => s

/-- An entry of a die's range-lock table lost (R333): it is damaged; its owner, or, where the owner cannot be read, every operation with an entry in
the table, is aborted; the record follows. -/
def lockDamaged (s : State) (die index : Nat) (ownerReadable : Bool) : State :=
  match s.locks.find? (fun l => l.die == die && l.index == index) with
  | none => s
  | some l =>
    let hit (o : EngOp) : Bool := if ownerReadable then o.id == l.op else s.locks.any (fun x => x.die == die && x.op == o.id)
    { s with
      locks := s.locks.map (fun x => if x.die = die ∧ x.index = index then { x with damaged := true } else x),
      ops := s.ops.map (fun o => if hit o then askAbort .lock o else o) }

/-- ARRAY_UNCORRECTABLE_ERROR (R331, R332): poison where the line or register is stored, with one deferred record; a line of an instruction cache
that is found at its fetch; an entry of a cache under parity dropped, with a corrected record; an entry of a range-lock table, whose owner can be
read, as RANGE_LOCK_ENTRY_ERROR has it. -/
def execArrayUncorrectableError (err : ArrayError) (s : State) : Host.Outcome State Fault Refusal :=
  .next (match err.site with
    | .line sp a _ => arrayRecord (addPoison s sp (a / 64)) err 2
    | .vreg w r m => arrayRecord (spoilRegs s w r m) err 2
    | .icache core asid a n => spoilLine s core asid a n
    | .translation .. | .hostTranslation .. | .catalogue .. => arrayRecord (dropEntry s err.site) err 1
    | .lockEntry die index => arrayRecord (lockDamaged s die index true) err 2)

/-- ARRAY_CORRECTED_ERROR (R331, R333, R336): one corrected record; where the code is parity alone, what parity corrects is as above. -/
def execArrayCorrectedError (err : ArrayError) (s : State) : Host.Outcome State Fault Refusal :=
  .next (match err.site with
    | .icache core asid a n => spoilLine s core asid a n
    | _ => arrayRecord (dropEntry s err.site) err 1)

/-- The bank of a unit (R334). -/
def unitBank : FailUnit → Nat
  | .core c | .lane c | .row c => clusterOf c
  | .l2Slice n => 12 + n / 16
  | .annexSegment d | .lockTable d => 12 + d
  | .hbmRow n => 16 + n

/-- What a record says after a test, where its bank holds one. -/
def markBank (s : State) (b : Nat) (f : Bank → Bank) : State := if (getBank s b).valid then putBank s b (f (getBank s b)) else s

/-- A core retired (R338). -/
def retireCore (r : Rel) (c : Nat) : Rel := { r with cores := if r.cores.contains c then r.cores else r.cores ++ [c], req := true }

/-- A unit retired (R338): an HBM row retires nothing, and of a lock table the manual names no effect (log 102). -/
def retireUnit (s : State) (u : FailUnit) : State :=
  match u with
  | .core c | .lane c | .row c => modRel s (fun r => retireCore r c)
  | .l2Slice n => modRel s (fun r => { r with slices := if r.slices.contains n then r.slices else r.slices ++ [n], req := true })
  | .annexSegment d => modRel s (fun r => { r with segs := assocPut r.segs d (some (min 48 (assoc r.segs d 0 + 1))), req := true })
  | .hbmRow _ | .lockTable _ => modRel s (fun r => { r with req := true })

/-- Whether a team is resident on a core. -/
def coreBusy (s : State) (core : Nat) : Bool :=
  s.teams.any (fun t => resident t && (t.core == core || (t.pair && t.core + 1 == core)))

/-- The contexts with teams on the cores of a set. -/
def ctxsOn (s : State) (p : Nat → Bool) : List Nat :=
  ((s.teams.filter (fun t => resident t && (p t.core || (t.pair && p (t.core + 1))))).map (·.ctx)).eraseDups

/-- The contexts with teams on the cores of a set evacuated (R337, R339). -/
def evacuateCores (s : State) (p : Nat → Bool) : State := (ctxsOn s p).foldl evacuate s

/-- The spare rows of an SRAM macro and lanes of a pipe (R337); those of an HBM stack are its own matter, and core logic has none. -/
def spareLimit : FailUnit → Option Nat
  | .row _ | .l2Slice _ | .annexSegment _ | .lockTable _ => some 4
  | .lane _ => some 1
  | .core _ => some 0
  | .hbmRow _ => none

/-- The spares that an array, or pipe, of a unit has used. -/
def spareUsed (r : Rel) (u : FailUnit) (array : Nat) : Nat :=
  match r.spares.find? (fun x => x.1 == u && x.2.1 == array) with | some x => x.2.2 | none => 0

/-- The outcome of a test (R337): a row or lane that fails is remapped while a spare is free. -/
def testOutcome (s : State) (u : FailUnit) (array : Nat) (o : TestOutcome) : TestOutcome :=
  match o, spareLimit u with
  | .pass, _ => .pass
  | o, none => o
  | _, some n => if spareUsed s.rel u array < n then .spared else .noSpare

/-- A spare taken. -/
def takeSpare (r : Rel) (u : FailUnit) (array : Nat) : Rel :=
  { r with spares := r.spares.filter (fun x => !(x.1 == u && x.2.1 == array)) ++ [(u, array, spareUsed r u array + 1)] }

/-- The outcome of a targeted self-test written (R337). -/
def testDone (s : State) (u : FailUnit) (array : Nat) (o : TestOutcome) : State :=
  match testOutcome s u array o with
  | .pass => markBank s (unitBank u) (fun b => { b with transient := true })
  | .spared => markBank (modRel s (fun r => takeSpare r u array)) (unitBank u) (fun b => { b with spared := true })
  | .noSpare => raiseVec (retireUnit (markBank s (unitBank u) (fun b => { b with retired := true })) u) s.rel.ceVec

/-- The core that is evacuated before a test ends (R337, R338): for a lane or core logic always, for a row where the core is retired. -/
def testedCore (s : State) (u : FailUnit) (array : Nat) (o : TestOutcome) : Option Nat :=
  match u with
  | .lane c | .core c => some c
  | .row c => if testOutcome s u array o = .noSpare then some c else none
  | _ => none

/-- A row's test is one that a record has started (R337); a test of core logic or a lane begins with its evacuation. -/
def testUnderWay (s : State) (u : FailUnit) (row : Nat) : Bool :=
  match u with
  | .lane _ | .core _ => true
  | u => s.rel.tests.contains (u, row)

/-- A core that takes no team for a test (R337). -/
def holdCore (s : State) (c : Nat) : State :=
  modRel s (fun r => { r with testCores := if r.testCores.contains c then r.testCores else r.testCores ++ [c] })

/-- A test over: its core, where it held one, takes teams again. -/
def testOver (s : State) (u : FailUnit) (row : Nat) (core : Option Nat) : State :=
  modRel s (fun r => { r with tests := r.tests.filter (· != (u, row)), testCores := r.testCores.filter (fun x => some x != core) })

/-- SELF_TEST_COMPLETE (R337, R338): the test of a row that a record started, or one of a lane or core logic, for which the core is evacuated
first. -/
def execSelfTestComplete (unit : FailUnit) (found : TestReport) (s : State) : Host.Outcome State Fault Refusal :=
  if !testUnderWay s unit found.row then .next s
  else match testedCore s unit found.array found.outcome with
  | none => .next (testOver (testDone s unit found.array found.outcome) unit found.row none)
  | some c =>
    let s1 := evacuateCores (holdCore s c) (fun x => x == c)
    .next (if coreBusy s1 c then s1 else testOver (testDone s1 unit found.array found.outcome) unit found.row (some c))

/-- RANGE_LOCK_ENTRY_ERROR (R333): an entry of the die's table is lost, and a deferred record is written, whose syndrome the event does not
carry (log 115). -/
def execRangeLockEntryError (die index : Nat) (ownerReadable : Bool) (s : State) : Host.Outcome State Fault Refusal :=
  match s.locks.find? (fun l => l.die == die && l.index == index) with
  | none => .next s
  | some _ =>
    .next (rowRecord (lockDamaged s die index ownerReadable) (some (.lockTable die)) (12 + die) 2 1 (some (w64 index)) none (miscOf 0 index))

/-- ERR_STATUS_CLEAR (R335): a write of 1 to VALID clears the whole bank. -/
def execErrStatusClear (bank : Nat) (s : State) : Host.Outcome State Fault Refusal :=
  .next (modRel s (fun r => { r with banks := assocPut r.banks bank none }))

/-! ### In-field tests (R339) -/

/-- INFIELD_TEST_DUE (R339): the cluster takes no team, and the contexts resident on it are evacuated, as far as NOPRE lets them be. -/
def execInfieldTestDue (cluster : Nat) (s : State) : Host.Outcome State Fault Refusal :=
  if 12 ≤ cluster then .next s
  else
    let s1 := if s.rel.testing.contains cluster then s else modRel s (fun r => { r with testing := r.testing ++ [cluster] })
    .next (evacuateCores s1 (fun x => clusterOf x == cluster))

/-- INFIELD_TEST_END (R337 to R339): an evacuated cluster is released; its failing units, each with its array and outcome, are spared or
retired. -/
def execInfieldTestEnd (cluster : Nat) (failing : List (FailUnit × Nat × TestOutcome)) (s : State) : Host.Outcome State Fault Refusal :=
  if !s.rel.testing.contains cluster ∨ !(ctxsOn s (fun x => clusterOf x == cluster)).isEmpty then .next s
  else
    let bad := failing.filter (fun f => unitBank f.1 == cluster)
    .next (bad.foldl (fun x f => testDone x f.1 f.2.1 f.2.2) (modRel s (fun r => { r with testing := r.testing.filter (· != cluster) })))

/-! ### The barrier-timeout watchdog (R340) -/

/-- A wave that leaves its wait at a firing: past its BARW, or where it stands after its BARS; 0x18 is pending on it. -/
def fireAt (n : Nat) (st : W64) (ph : W32) (s : State) (w : Wave) : State :=
  let mark (x : Wave) : Wave := { x with hz := { x.hz with timeout := some (n, st, ph) } }
  match w.ctl.wait with
  | .bars _ _ => putWave s (mark (setSt w .ready .idle))
  | .barw _ _ => match insAt s w w.ctl.pc with
    | some i => modWave (finish w i none (.done s)) w.id mark
    | none => putWave s (mark (setSt w .ready .idle))
  | _ => s

/-- The waves that wait at a phase of a barrier of a team, but those about to be killed. -/
def phaseWaits (s : State) (team bar : Nat) : List Wave :=
  s.waves.filter (fun (w : Wave) => w.team == team && !killDue s w && (match w.ctl.wait with | .bars m _ | .barw m _ => m == bar | _ => false))

/-- Whether the phase of a barrier of a team fires now (R340), whether or not a wave still waits at it: EN is 1, its time is at least TMO, and it is
neither complete nor has fired (log 98). -/
def phaseDue (s : State) (team : Nat) (b : Barrier) : Bool :=
  s.rel.wdgEn && resident (getTeam s team) && !b.fired && !barComplete b && decide (1000000 * (if s.rel.wdgTmo = 0 then 1 else s.rel.wdgTmo) ≤ b.waited)

/-- The phase of a barrier of a team fires, if it is due. -/
def firePhase (s : State) (team bar : Nat) : State :=
  match (getTeam s team).bars[bar]? with
  | none => s
  | some b =>
    if phaseDue s team b then
      (phaseWaits s team bar).foldl (fireAt bar (barStatus b) b.phase)
        (modTeam s team (fun x => { x with bars := setAt x.bars bar { b with fired := true } }))
    else s

/-- WATCHDOG_FIRE (R340). -/
def execWatchdogFire (team bar : Nat) (s : State) : Host.Outcome State Fault Refusal := .next (firePhase s team bar)

/-- Every phase that is due fires: as time passes, and as WDG_CTL is written (R340). -/
def fireDue (s : State) : State :=
  s.teams.foldl (fun x t => (List.range t.bars.length).foldl (fun y n => firePhase y t.id n) x) s

/-! ### The crossbar's layout (R343) -/

/-- The CRC-32 of IEEE 802.3 after one byte. -/
def crcByte (c : W32) (b : Byte) : W32 :=
  (List.range 8).foldl (fun x _ => if x.getLsbD 0 then (x >>> 1) ^^^ 0xEDB88320 else x >>> 1) (c ^^^ b.setWidth 32)

/-- The CRC-32 of IEEE 802.3 over bytes. -/
def crc32 (l : List Byte) : W32 := l.foldl crcByte 0xFFFFFFFF ^^^ 0xFFFFFFFF

/-- The checksum of the shadow rows, row 0 first, little-endian. -/
def shadowSum (s : State) : W32 := crc32 (s.rel.shd.flatMap (fun r => natToBytes 8 r.toNat))

/-- The shadow copied to the active matrix in one step. -/
def swapMatrix (s : State) : State := modRel s (fun r => { r with act := r.shd, commit := 2 })

/-- The active matrix copied to the shadow. -/
def rollBack (s : State) : State := modRel s (fun r => { r with shd := r.act })

/-- XBAR_COMMIT_PREPARE (R5, R343): a write of XBAR_COMMIT. SEQ and STATE are written as RW fields, but STATE 1 is accepted only from 0
or 2 (log 66); BADSUM is cleared by writing 1. -/
def execXbarCommitPrepare (value : W64) (s : State) : Host.Outcome State Fault Refusal :=
  let st := value.toNat % 4
  .next (modRel s (fun r => { r with
    badSum := r.badSum && !value.getLsbD 2, seq := w32 (value.toNat / 2 ^ 32), commit := if st = 1 ∧ r.commit = 3 then 3 else st }))

/-- XBAR_SWAP (R343): a prepared layout whose checksum matches becomes the active one; otherwise nothing is copied and BADSUM is set. -/
def execXbarSwap (s : State) : Host.Outcome State Fault Refusal :=
  if s.rel.commit = 1 ∧ s.rel.cksum = shadowSum s then .next (swapMatrix s) else .next (modRel s (fun r => { r with badSum := true }))

/-- MP_WATCHDOG_RESET (R343): the boot firmware rolls the layout back or forward. -/
def execMpWatchdogReset (s : State) : Host.Outcome State Fault Refusal :=
  if s.rel.commit = 1 then
    if s.rel.cksum = shadowSum s then .next (swapMatrix s) else .next (modRel (rollBack s) (fun r => { r with commit := 0 }))
  else .next (rollBack s)

/-! ### Latency monitors (R344) -/

/-- A number put into a rising list. -/
def insertNat (x : Nat) : List Nat → List Nat
  | [] => [x]
  | y :: r => if x ≤ y then x :: y :: r else y :: insertNat x r

/-- The nearest-rank percentile, in thousandths, of a rising list. -/
def percentile (l : List Nat) (p : Nat) : Nat := (l[(p * l.length + 999) / 1000 - 1]?).getD 0

/-- LAT_STAT of a partition after a window: percentiles, and the breach bits, which are sticky. With no sample the percentiles are free
values (log 22). -/
def latStat (bound old : W64) (l : List Nat) (free : Nat) : W64 :=
  let b (i : Nat) : Nat := bits bound.toNat (16 * i) 16
  let above (i p n : Nat) : Bool := b i != 0 && decide (n ≤ l.length) && decide (b i < percentile l p)
  let m50 := if l.isEmpty then (Config.freeWord free).toNat % 65536 else min (percentile l 500) 65535
  let m99 := if l.isEmpty then (Config.freeWord (free + 1)).toNat % 65536 else min (percentile l 990) 65535
  w64 (m99 * 2 ^ 48 + m50 * 2 ^ 32) ||| (old &&& 7) ||| w64 (b2n (above 0 500 1) + 2 * b2n (above 1 990 100) + 4 * b2n (above 2 999 1000))

/-- The monitor of one partition at the end of a window. -/
def latOne (s : State) (p : Nat) : State :=
  let l := (s.rel.samples.filter (fun x => x.1 == p)).foldl (fun r x => insertNat x.2 r) []
  let old := assoc s.rel.latStat p 0
  let new := latStat (assoc s.rel.latBound p 0) old l (s.free + 2 * p)
  let s1 := modRel s (fun r => { r with latStat := assocPut r.latStat p (some new) })
  (List.range 3).foldl (fun x i => if new.getLsbD i && !old.getLsbD i then raiseVec x x.rel.latVec else x) s1

/-- The present window of 10 ms of real time (R344). -/
def latNow (s : State) : Nat := s.ns / 10 ^ 7

/-- The window that the monitors hold closed: each partition's statistics, and the samples dropped. -/
def closeWindow (s : State) (win : Nat) : State :=
  let s1 := (List.range 16).foldl latOne s
  { modRel s1 (fun r => { r with samples := [] }) with free := s1.free + 32, latWin := win }

/-- The windows that have ended by now closed: that of the samples, and, where more have passed, one without samples. -/
def closeWindows (s : State) : State :=
  if latNow s ≤ s.latWin then s
  else if latNow s = s.latWin + 1 then closeWindow s (latNow s)
  else closeWindow (closeWindow s (latNow s)) (latNow s)

/-- LATENCY_WINDOW_END (R344): the 10 ms window of every partition ends; before its time nothing does. -/
def execLatencyWindowEnd (s : State) : Host.Outcome State Fault Refusal := .next (closeWindows s)

/-! ### Security (R345, R346) -/

/-- The keys erased: a context of which only saved teams are left ends (R346). -/
def eraseKeys (s : State) : State :=
  let s1 := modRel s (fun r => { r with keys := false, erased := true })
  let gone := (s1.ctxs.filter (fun c => c.sealed && c.status == 0 && !(s1.teams.any (fun t => t.ctx == c.id && resident t)))).map (·.id)
  gone.foldl (fun x c => haltCheck (haltCtx x c none) c) s1

/-- An alarm (R346): its bit is set, bank 63 takes a record whose class and source the manual does not give, ALVEC is raised, and the keys
are erased under ERASE. -/
def alarm (s : State) (which : Nat) : State :=
  let s1 := modRel s (fun r => { r with alarm := r.alarm ||| BitVec.ofNat 4 (2 ^ which) })
  let s2 := errRecord { s1 with free := s1.free + 2 } 63 (1 + (Config.freeWord s1.free).toNat % 3) ((Config.freeWord (s1.free + 1)).toNat % 256) none none 0
  let s3 := raiseVec s2 s2.rel.alVec
  if s3.rel.erase ∧ s3.rel.keys then eraseKeys s3 else s3

/-- SECURITY_ALARM (R346): TAMPER, GLITCH, DEBUG or SIG. -/
def execSecurityAlarm (which : BitVec 2) (s : State) : Host.Outcome State Fault Refusal := .next (alarm s which.toNat)

/-- Whether an image may run (R345). -/
def imageOk (s : State) (i : FirmwareImage) : Bool := i.rsaOk && i.slhOk && decide (s.rel.minVersion ≤ i.version)

/-- An image that runs, in place of the one of its name that ran (R345). -/
def runImage (r : Rel) (i : FirmwareImage) : Rel :=
  { r with images := r.images.filter (fun x => x.name != i.name) ++ [i], mpRunning := r.mpRunning || i.management }

/-- FIRMWARE_IMAGE_VERIFY (R345): the boot ROM verifies a management image, and the management image that runs every other; one that verifies runs, a
failure leaves the previous one running and sets SIG. -/
def execFirmwareImageVerify (image : FirmwareImage) (s : State) : Host.Outcome State Fault Refusal :=
  if !image.management && !s.rel.mpRunning then .next s
  else if imageOk s image then .next (modRel s (fun r => runImage r image))
  else .next (alarm s 3)

/-! ### Power, heat and the governor (R281, R287, R347) -/

/-- PWR_MODE (R347): the mode is written; the change completes later. -/
def execPwrMode (value : W64) (s : State) : Host.Outcome State Fault Refusal :=
  let m := BitVec.ofNat 2 (value.toNat % 4)
  .next (modRel s (fun r => { r with pwr := m, pwrGoal := some m }))

/-- PWR_MODE_CHANGE_COMPLETE (R347). -/
def execPwrModeChangeComplete (s : State) : Host.Outcome State Fault Refusal := .next (modRel s (fun r => { r with pwrGoal := none }))

/-- GOVERNOR_WINDOW (R287): in a new window of 1 µs every pair has its units again. -/
def execGovernorWindow (s : State) : Host.Outcome State Fault Refusal :=
  .next (if s.govWin < govNow s then { s with units := [], govWin := govNow s } else s)

/-- T_LO of PLC_THERMAL: a value at or above T_HI is treated as T_HI − 1. -/
def lowTemp (s : State) : Nat := if s.hiTemp ≤ s.loTemp then s.hiTemp - 1 else s.loTemp

/-- CORE_HOT_MARK (R281): a core above T_HI is marked hot; below T_LO the mark is cleared. -/
def execCoreHotMark (core temp : Nat) (s : State) : Host.Outcome State Fault Refusal :=
  if s.hiTemp < temp then .next { s with hot := if s.hot.contains core then s.hot else s.hot ++ [core] }
  else if temp < lowTemp s then .next { s with hot := s.hot.filter (· != core) }
  else .next s

/-- CORE_DROOP (R281): the core reports a droop in the present window of 10 µs. -/
def execCoreDroop (core : Nat) (s : State) : Host.Outcome State Fault Refusal :=
  .next { s with
    droops := s.droops.filter (fun d => decide (droopWin s ≤ d.2 + 1) && d != (core, droopWin s)) ++ [(core, droopWin s)],
    skipped := s.skipped.filter (fun x => x.2 != core) }

end Sys2Proof.Machine
end

