-- ==== Sys2Proof/Machine/EvBoard.lean ====
section
/-! DEFINITION. The device's edges: bring-up and loss of power (R338, R348), the registers of BAR 0 (R349) and the host's window on HBM
(R310). -/

namespace Sys2Proof.Machine

/-! ### Power (R338, R345, R348) -/

/-- Rows of the crossbar's matrix, 96 of them. -/
def rows96 (l : List W64) : List W64 := (List.range 96).map (fun i => (l[i]?).getD 0)

/-- POWER_ON (R345, R348): the image is verified, the first layout is committed, the cores leave reset and the links train; a device whose
first image fails is held in reset with SIG set. -/
def execPowerOn (image : FirmwareImage) (rows : List W64) (s : State) : Host.Outcome State Fault Refusal :=
  if s.rel.powered then .next s
  else if !imageOk s image then .next (alarm s 3)
  else
    let s1 := modRel s (fun r => { runImage r image with act := rows96 rows, shd := rows96 rows, commit := 2, powered := true, mpRunning := true, links := true })
    .next (modRel { s1 with poison := s1.poison.filter (fun p => p.1 == .host || p.1 == .cxl) } (fun r => { r with cksum := shadowSum s1 }))

/-- MAIN_POWER_LOSS (R338): all state of the device is lost; host memory and the CXL tier, which are outside it, keep theirs, and so do the fused
security version and the model's own counters; the firmware that ran does so no more. -/
def execMainPowerLoss (s : State) : Host.Outcome State Fault Refusal :=
  let r := State.reset
  .next { r with
    host := s.host, cxl := s.cxl, poison := s.poison.filter (fun p => p.1 == .host || p.1 == .cxl), agenda := s.agenda, free := s.free,
    nextId := s.nextId, regions := s.regions, accEnds := s.accEnds, rel := { r.rel with minVersion := s.rel.minVersion } }

/-! ### BAR 0 (R349): what a register reads as -/

/-- A launch queue's register (R273). -/
def readQueue (q : LaunchQ) (k : Nat) : Nat :=
  match k with
  | 0 => q.base.toNat
  | 1 => 2 ^ 31 * b2n q.en + 2 ^ 16 * q.prio + q.log2n
  | 2 => q.widx.toNat
  | _ => 2 ^ 32 * q.ridx.toNat + 256 * b2n q.err + q.code

/-- A register of an error-record bank (R335): all read zero while VALID is 0. -/
def readBank (b : Bank) (k : Nat) : Nat :=
  if !b.valid then 0
  else match k with
    | 0 => 2 ^ 63 + 2 ^ 62 * b2n b.ovf + 2 ^ 60 * b.cls + 2 ^ 59 * b2n b.transient + 2 ^ 58 * b2n b.spared + 2 ^ 57 * b2n b.retired
        + 2 ^ 32 * b.count + 2 ^ 24 * b.src
    | 1 => b.addr.toNat
    | 2 => b.synd.toNat
    | _ => b.misc.toNat

/-- BDY_DOORBELL of a die (R94). -/
def readBindery (b : Bindery) : Nat := (b.batch.getD 0).toNat + 2 * b2n b.full + b2n (b.batch.isSome || !b.queue.isEmpty)

/-- FAB_PEER_n (R313). -/
def readPeer (s : State) (n : Nat) : Nat := let p := assoc s.fab.peers n (0, 0); 2 ^ 30 * p.1.toNat + p.2.toNat

/-- REPLACE (R338). -/
def readReplace (r : Rel) : Nat :=
  2 ^ 24 * min 255 ((r.segs.map (·.2)).foldl (· + ·) 0) + 2 ^ 16 * min 255 r.slices.length + 2 ^ 8 * min 255 r.cores.length + b2n r.req

/-- ERR_CTL (R336). -/
def readErrCtl (r : Rel) : Nat := 2 ^ 48 * r.errThresh + 2 ^ 30 * r.alVec + 2 ^ 20 * r.latVec + 2 ^ 10 * r.mcVec + r.ceVec

/-- XBAR_PART_n (R341). -/
def readPart (r : Rel) (n : Nat) : Nat := let p := assoc r.parts n (true, 0); 128 * b2n p.1 + p.2

/-- The registers below 0x01_0000 of BAR 0. -/
def readLow (s : State) (o : Nat) : Nat :=
  if 0x1000 ≤ o ∧ o < 0x1800 then readQueue ((s.queues[(o - 0x1000) / 32]?).getD resetQueue) ((o - 0x1000) % 32 / 8)
  else if o = 0x2000 then 256 * s.hiTemp + s.loTemp
  else if o = 0x2008 then 2 ^ 31 * b2n s.govEn + s.govBudget
  else if o = 0x2010 then s.rel.pwr.toNat
  else if 0x3000 ≤ o ∧ o < 0x3020 then readBindery (getBindery s ((o - 0x3000) / 8))
  else if o = 0x4000 then s.ctxEnd.toNat
  else 0

/-- The registers of the fabric, the network and the CXL tier. -/
def readMid (s : State) (o : Nat) : Nat :=
  if o = 0x10000 then 2 ^ 31 * b2n s.fab.joined + 2 ^ 16 * s.fab.id.toNat + s.fab.inc.toNat
  else if o = 0x10008 then 2 ^ 31 * b2n s.fab.en + 2 ^ 16 * s.fab.tmo + 2 ^ 8 * s.fab.rto + s.fab.skew
  else if o = 0x10010 then s.fab.stale.toNat
  else if 0x10400 ≤ o ∧ o < 0x10C00 then (assoc s.fab.classes ((o - 0x10400) / 8) 0x55555555#32).toNat
  else if 0x11000 ≤ o ∧ o < 0x12000 then readPeer s ((o - 0x11000) / 8)
  else if o = 0x20000 then s.net.port.toNat
  else if o = 0x20008 then s.net.winBase.toNat
  else if o = 0x20010 then s.net.ctxBase.toNat
  else if o = 0x30000 then s.cxltBase.toNat
  else if o = 0x30008 then s.cxltSize
  else 0

/-- The registers from 0x04_0000 up. -/
def readHigh (s : State) (o : Nat) : Nat :=
  if 0x40000 ≤ o ∧ o < 0x40800 then readBank (getBank s ((o - 0x40000) / 32)) ((o - 0x40000) % 32 / 8)
  else if o = 0x41000 then readErrCtl s.rel
  else if o = 0x41008 then readReplace s.rel
  else if 0x50000 ≤ o ∧ o < 0x50300 then ((s.rel.act[(o - 0x50000) / 8]?).getD 0).toNat
  else if 0x51000 ≤ o ∧ o < 0x51300 then ((s.rel.shd[(o - 0x51000) / 8]?).getD 0).toNat
  else if 0x52000 ≤ o ∧ o < 0x52300 then readPart s.rel ((o - 0x52000) / 8)
  else if o = 0x53000 then s.rel.cksum.toNat
  else if o = 0x53008 then 2 ^ 32 * s.rel.seq.toNat + 4 * b2n s.rel.badSum + s.rel.commit
  else if 0x60000 ≤ o ∧ o < 0x60100 then
    (assoc (if (o - 0x60000) % 16 = 0 then s.rel.latBound else s.rel.latStat) ((o - 0x60000) / 16) 0).toNat
  else if o = 0x70000 then 2 ^ 31 * b2n s.rel.wdgEn + s.rel.wdgTmo
  else if o = 0x80000 then 256 * b2n s.rel.erased + s.rel.alarm.toNat
  else if o = 0x80008 then 2 ^ 31 * b2n s.rel.lock + b2n s.rel.erase
  else 0

/-- What a register of BAR 0 reads as; an offset that names none reads zero (R349). -/
def readRegister (s : State) (o : Nat) : W64 :=
  if o % 8 ≠ 0 then 0 else w64 (if o < 0x10000 then readLow s o else if o < 0x40000 then readMid s o else readHigh s o)

/-! ### BAR 0: writes -/

/-- A write to a launch queue's registers (R273, R274). -/
def writeQueue (s : State) (q k : Nat) (x : W64) : Host.Outcome State Fault Refusal :=
  let v := x.toNat
  match k with
  | 0 => .next (modQueue s q (fun y => { y with base := w64 (v / 256 * 256) }))
  | 1 => .next (modQueue s q (fun y => { y with en := bitAt v 31, prio := min (bits v 16 6) 47, log2n := min (bits v 0 5) 16 }))
  | 2 => execLqDoorbell q (w32 v) s
  | _ => .next (modQueue s q (fun y => if bitAt v 8 then { y with err := false } else y))

/-- The host's registers below 0x02_0000. -/
def hostLow (s : State) (o : Nat) (x : W64) : Host.Outcome State Fault Refusal :=
  if 0x1000 ≤ o ∧ o < 0x1800 then writeQueue s ((o - 0x1000) / 32) ((o - 0x1000) % 32 / 8) x
  else if 0x3000 ≤ o ∧ o < 0x3020 then execBdyDoorbell ((o - 0x3000) / 8) x s
  else if o = 0x4000 then execCtxEnd x s
  else if o = 0x10010 then .next { s with fab := { s.fab with stale := s.fab.stale &&& ~~~ w32 x.toNat } }
  else if 0x10400 ≤ o ∧ o < 0x10C00 then
    .next { s with fab := { s.fab with classes := assocPut s.fab.classes ((o - 0x10400) / 8) (some (w32 x.toNat)) } }
  else .next s

/-- ERR_CTL written (R336). -/
def writeErrCtl (r : Rel) (v : Nat) : Rel :=
  { r with errThresh := bits v 48 16, alVec := bits v 30 10, latVec := bits v 20 10, mcVec := bits v 10 10, ceVec := bits v 0 10 }

/-- The host's registers from 0x02_0000 up. -/
def hostHigh (s : State) (o : Nat) (x : W64) : Host.Outcome State Fault Refusal :=
  let v := x.toNat
  if o = 0x20000 then .next { s with net := { s.net with port := BitVec.ofNat 16 v } }
  else if o = 0x20008 then .next { s with net := { s.net with winBase := x } }
  else if o = 0x20010 then .next { s with net := { s.net with ctxBase := x } }
  else if 0x40000 ≤ o ∧ o < 0x40800 then
    (if (o - 0x40000) % 32 = 0 ∧ x.getLsbD 63 then execErrStatusClear ((o - 0x40000) / 32) s else .next s)
  else if o = 0x41000 then .next (modRel s (fun r => writeErrCtl r v))
  else if 0x60000 ≤ o ∧ o < 0x60100 then
    let p := (o - 0x60000) / 16
    if (o - 0x60000) % 16 = 0 then .next (modRel s (fun r => { r with latBound := assocPut r.latBound p (some (w64 (v % 2 ^ 48))) }))
    else .next (modRel s (fun r => { r with latStat := assocPut r.latStat p (some (assoc r.latStat p 0 &&& ~~~ (x &&& 7))) }))
  else if o = 0x70000 then .next (fireDue (modRel s (fun r => { r with wdgEn := bitAt v 31, wdgTmo := v % 65536 })))
  else if o = 0x80000 then .next (modRel s (fun r => { r with alarm := r.alarm &&& ~~~ (BitVec.ofNat 4 v) }))
  else .next s

/-- FAB_CTL written (R314): the timing, and a join that EN begins. -/
def writeFabCtl (s : State) (v : Nat) : Host.Outcome State Fault Refusal :=
  let s1 : State := { s with fab := { s.fab with en := bitAt v 31, tmo := bits v 16 8, rto := bits v 8 8, skew := bits v 0 8 } }
  if bitAt v 31 ∧ !s.fab.en then execFabCtlEn s1 else .next s1

/-- ALARM_POLICY written (R346): ignored once LOCK is set. -/
def writePolicy (r : Rel) (v : Nat) : Rel := if r.lock then r else { r with lock := bitAt v 31, erase := bitAt v 0 }

/-- The management processor's registers. -/
def mpWrite (s : State) (o : Nat) (x : W64) : Host.Outcome State Fault Refusal :=
  let v := x.toNat
  if o = 0x2000 then .next { s with hiTemp := bits v 8 8, loTemp := bits v 0 8 }
  else if o = 0x2008 then .next { s with govEn := bitAt v 31, govBudget := bits v 0 8 }
  else if o = 0x2010 then execPwrMode x s
  else if o = 0x10008 then writeFabCtl s v
  else if o = 0x30000 then .next { s with cxltBase := w64 (v / 2 ^ 30 * 2 ^ 30) }
  else if o = 0x30008 then .next { s with cxltSize := min (v % 2 ^ 13) 4096 }
  else if 0x51000 ≤ o ∧ o < 0x51300 then .next (modRel s (fun r => { r with shd := setAt r.shd ((o - 0x51000) / 8) x }))
  else if 0x52000 ≤ o ∧ o < 0x52300 then .next (modRel s (fun r => { r with parts := assocPut r.parts ((o - 0x52000) / 8) (some (bitAt v 7, v % 16)) }))
  else if o = 0x53000 then .next (modRel s (fun r => { r with cksum := w32 v }))
  else if o = 0x53008 then execXbarCommitPrepare x s
  else if o = 0x53010 then (if bitAt v 0 then execXbarSwap s else .next s)
  else if o = 0x80000 then .next (modRel s (fun r => { r with alarm := r.alarm &&& ~~~ (BitVec.ofNat 4 v) }))
  else if o = 0x80008 then .next (modRel s (fun r => writePolicy r v))
  else .next s

/-- REGISTER_WRITE (R349): one aligned 8-byte write; one by an agent that is not the register's writer, or to no register, is ignored. The
host writes once the links have trained, the management processor while it runs (R348). -/
def execRegisterWrite (agent : Writer) (offset : Nat) (value : W64) (s : State) : Host.Outcome State Fault Refusal :=
  if offset % 8 ≠ 0 then .next s
  else match agent with
    | .host => if s.rel.links then (if offset < 0x20000 then hostLow s offset value else hostHigh s offset value) else .next s
    | .mp => if s.rel.mpRunning then mpWrite s offset value else .next s
    | .other => .next s

/-! ### BAR 2 (R310) -/

/-- HOST_BAR_ACCESS (R310): the host reads or writes HBM at a physical offset, untranslated and unchecked, once the links have trained. -/
def execHostBarAccess (addr len : Nat) (store : Option (List Byte)) (s : State) : Host.Outcome State Fault Refusal :=
  if hbmEnd < addr + len then .fault .barOutside
  else if !s.rel.links then .next s
  else match store with
    | some l => .next (writeRange s .hbm addr (l.take len))
    | none => .next { s with link := { s.link with barRead := memGets s.hbm addr len } }

end Sys2Proof.Machine
end

