-- ==== Sys2Proof/Machine/EvLink.lean ====
section
/-! DEFINITION. The events of the host link (R307, R308): translations answered and invalidated, page requests and their responses. -/

namespace Sys2Proof.Machine

/-- The host link's state changed. -/
def modLink (s : State) (f : HostLink → HostLink) : State := { s with link := f s.link }

/-- ATS_TRANSLATION_RESPONSE (R307): the host's answer to a translation request, held in the caches; an absent page leads to a page
request (R308). Increments that wait for a host page are tried again. -/
def execAtsTranslationResponse (pasid : Nat) (page : W64) (answer : Option AtsEntry) (s : State) : Host.Outcome State Fault Refusal :=
  if !s.link.asked.contains (pasid, page) then .next s
  else .next (retryDues (modLink (dropAts s (fun a p => a == pasid && p == page)) (fun l =>
    let l1 : HostLink := { l with asked := l.asked.filter (fun x => x != (pasid, page)) }
    match answer with
    | some e => { l1 with ats := l1.ats ++ [(pasid, page, e)] }
    | none => { l1 with refusedPages := (l1.refusedPages ++ [(pasid, page)]).eraseDups })))

/-- Whether a cached host translation lies in a range of host addresses of a PASID. -/
def atsCovered (pasid : Nat) (va : W64) (len : Nat) (asid : Nat) (page : W64) : Bool :=
  asid == pasid && decide (page.toNat < va.toNat + len) && decide (va.toNat < page.toNat + 4096)

/-- Whether an access still to be performed uses a host frame. -/
def usesFrame (frames : List Nat) (a : Access) : Bool :=
  a.elems.any (fun e => match e.site with | .link .host o => frames.contains (o / 4096) | _ => false)

/-- Whether an access that used one of the frames of a context's ASID has still to be performed. -/
def frameInUse (s : State) (pasid : Nat) (frames : List Nat) : Bool :=
  s.waves.any (fun (w : Wave) => (getCtx s w.ctx).asid == pasid &&
    (w.hz.held.any (fun h => usesFrame frames h.acc)
      || w.hz.slips.any (fun x => !x.ended && (match x.op with | .mem a _ true => usesFrame frames a | _ => false))))

/-- ATS_INVALIDATE_REQUEST (R307): it completes once every access that used a covered entry, held or dropped since, has been performed, and no cache
holds one. -/
def execAtsInvalidateRequest (pasid : Nat) (va : W64) (len : Nat) (s : State) : Host.Outcome State Fault Refusal :=
  let hit := (s.link.ats ++ s.link.left).filter (fun x => atsCovered pasid va len x.1 x.2.1)
  if frameInUse s pasid (hit.map (fun x => x.2.2.frame.toNat / 4096)) then .next s
  else .next (modLink s (fun l => { l with
    ats := l.ats.filter (fun x => !atsCovered pasid va len x.1 x.2.1),
    left := l.left.filter (fun x => !atsCovered pasid va len x.1 x.2.1),
    refusedPages := l.refusedPages.filter (fun x => !atsCovered pasid va len x.1 x.2) }))

/-- The waves parked for a host page. -/
def pageWaves (s : State) (asid : Nat) (page : W64) : List Wave :=
  s.waves.filter (fun (w : Wave) => w.ctl.st == .parked && (match w.ctl.park with
    | some p => p.page == some page && p.asid == asid
    | none => false))

/-- A wave parked for a host page whose fault record is to be written after all, with PRIST (R306, R308). -/
def pageRecord (prist : Nat) (s : State) (w : Wave) : State :=
  let s1 := modWave s w.id (fun x => { x with ctl := { x.ctl with park := x.ctl.park.map (fun p => { p with page := none, prist := prist }) } })
  modCtx s1 w.ctx (fun c => { c with records := c.records ++ [w.id] })

/-- The next page request group index, of 512, that no outstanding request has (log 63). -/
def freeGroup (l : HostLink) : Option Nat :=
  ((List.range 512).map (fun k => (l.nextGroup + k) % 512)).find? (fun g => l.requests.all (fun r => r.group != g))

/-- PRI_PAGE_REQUEST (R308): a request for a page that some wave is parked for, in a group of its own, while the allowance lasts; waves whose page
has a request outstanding join it; a PASID whose requests are stopped gets records instead. -/
def execPriPageRequest (asid : Nat) (page : W64) (s : State) : Host.Outcome State Fault Refusal :=
  let ws := pageWaves s asid page
  if ws.isEmpty ∨ s.link.requests.any (fun r => r.asid == asid && r.page == page) then .next s
  else if s.link.stopped.contains asid then .next (ws.foldl (pageRecord 0xFF) s)
  else if s.link.allowance ≤ s.link.requests.length then .next s
  else match freeGroup s.link with
    | none => .next s
    | some g => .next (modLink s (fun l => { l with
        requests := l.requests ++ [{ asid := asid, page := page, sent := true, group := g }], nextGroup := (g + 1) % 512 }))

/-- PRI_RESPONSE (R308): Success replays every wave parked on the group; any other code writes their records with the code, and Response
Failure (15) stops the PASID's requests. -/
def execPriResponse (group : Nat) (code : BitVec 4) (s : State) : Host.Outcome State Fault Refusal :=
  let rs := s.link.requests.filter (fun r => r.group == group)
  if rs.isEmpty then .next s
  else
    let gone (x : Nat × W64) : Bool := rs.any (fun r => r.asid == x.1 && r.page == x.2)
    let ws := rs.flatMap (fun r => pageWaves s r.asid r.page)
    let s1 := modLink s (fun l => { l with requests := l.requests.filter (fun r => r.group != group) })
    if code = 0 then
      let s2 := modLink (dropAts s1 (fun a p => gone (a, p))) (fun l => { l with refusedPages := l.refusedPages.filter (fun x => !gone x) })
      .next (ws.foldl (fun x w => replayWave x w) s2)
    else
      let s2 := ws.foldl (pageRecord code.toNat) s1
      .next (if code = 15 then modLink s2 (fun l => { l with stopped := (l.stopped ++ rs.map (·.asid)).eraseDups }) else s2)

/-- PRI_CAPABILITY_WRITE (R308): the host sets the allowance, and may enable a PASID's requests again. -/
def execPriCapabilityWrite (allowance : Nat) (reenable : Option Nat) (s : State) : Host.Outcome State Fault Refusal :=
  .next (modLink s (fun l => { l with allowance := allowance, stopped := match reenable with | some a => l.stopped.filter (· != a) | none => l.stopped }))

end Sys2Proof.Machine
end

