-- ==== Sys2Proof/Machine/Matrix.lean ====
section
/-! DEFINITION. The matrix group (R114 to R116, R212 to R220): MMA as one operation over the two halves of a pair, from its issue
through the array to its retirement; scaling, transposition, and the loads and stores of fragments. -/

namespace Sys2Proof.Machine

/-! ### MMA at issue (R214, R216, R287) -/

/-- The register ranges of an MMA: D, A, B, C. -/
def mmaRanges (w : GenW) : List (Nat × Nat) :=
  let n := w.opx.toNat
  [(vNum w.dst, fragRegs n 2), (vNum w.a, fragRegs n 0), (vNum w.b, fragRegs n 1), (vNum w.c, fragRegs n 2)]

/-- Whether two register ranges overlap. -/
def rangesMeet (p q : Nat × Nat) : Bool := decide (p.1 < q.1 + q.2) && decide (q.1 < p.1 + p.2)

/-- The twin of a leader wave of a .pair team (R23). -/
def twinOf (s : State) (v : Wave) : Option Wave :=
  let t := getTeam s v.team
  if t.pair ∧ halfOf t v.idx = 0 then
    match t.waves[v.idx + t.waves.length / 2]? with
    | some id => findWave s id
    | none => none
  else none

/-- The twin that an MMA may use, when every check of R214 passes. -/
def mmaOk (w : GenW) (s : State) (v : Wave) : Option Wave :=
  match twinOf s v, mmaRanges w with
  | some t, [d, a, b, c] =>
    let gone := t.ctl.st == .retired || t.ctl.st == .retiring || t.ctl.st == .killed
    let fits := [d, a, b, c].all (fun p => decide (p.1 + p.2 ≤ v.regs.cnt)) && [d, a, c].all (fun p => decide (p.1 + p.2 ≤ t.regs.cnt))
    if v.width ≠ 128 ∨ gone ∨ !fits ∨ rangesMeet d a ∨ rangesMeet d b ∨ (rangesMeet d c ∧ d ≠ c) then none else some t
  | _, _ => none

/-- The units that pairs have taken in the present window (R287): those of an earlier one are none of it. -/
def unitsNow (s : State) : List (Nat × Nat) := if s.govWin = govNow s then s.units else []

/-- Whether the governor has a unit for a pair (R287). -/
def unitFree (s : State) (pair : Nat) : Bool := !s.govEn || decide (assoc (unitsNow s) pair 0 < max s.govBudget 1)

/-- One unit of a pair taken. -/
def takeUnit (s : State) (pair : Nat) : State :=
  if s.govEn then { s with units := assocPut (unitsNow s) pair (some (assoc (unitsNow s) pair 0 + 1)), govWin := govNow s } else s

/-- Rows of consecutive vector registers. -/
def regRows (v : Wave) (r n : Nat) : List (List W32) := (List.range n).map (fun k => (v.regs.v[r + k]?).getD [])

/-- Whether a wave has a trap binding on a register of a range (R210). -/
def trapBound (s : State) (v : Wave) (r n : Nat) : Bool :=
  (List.range n).any (fun k => match boundOf (getTeam s v.team) v (r + k) with
    | some (_, b) => b.act == 3
    | none => false)

/-- The lanes of a wave that hold poison in register ranges read as fragments, and consume it (R40). -/
def fragPoison (v : Wave) (rs : List (Nat × Nat)) : Mask :=
  if v.regs.poison.isEmpty then 0
  else maskOf ((lanes (~~~ v.regs.dead) v.width).filter (fun l => rs.any (fun p => regPoison v p.1 p.2 l)))

/-- Whether a wave retires, as one whose lanes are all dead does (R40). -/
def retires (s : State) (id : Nat) : Bool := match findWave s id with | some w => w.ctl.st == .retiring | none => true

/-- The effect of MMA: the operation enters the pair's array queue; the leader stays at it while a trap binding is to be checked. -/
def mmaBody (w : GenW) (s : State) (v : Wave) : Out :=
  match mmaOk w s v with
  | none => .trap s (precise 0x01)
  | some t =>
    let pr := pairOf v.core
    if !unitFree s pr then .stay s .budget
    else
      let n := w.opx.toNat
      let chained := chainOf s v (.mma w)
      let (d, a, b, c) := (vNum w.dst, vNum w.a, vNum w.b, vNum w.c)
      let inner := match chained with | some m => if m.left then m.inner else none | none => none
      let pm := fragPoison v ([(a, fragRegs n 0), (b, fragRegs n 1)] ++ (if chained.isSome then [] else [(c, fragRegs n 2)]))
      let op : MmaOp :=
        { id := s.nextId, leader := v.id, twin := t.id, pair := pr, shape := n, ta := w.hdr.typ, tb := w.ty2, d := d, a := a, b := b, c := c,
          srcA := regRows v a (fragRegs n 0), srcB := regRows v b (fragRegs n 1), srcC := regRows v c (fragRegs n 2), dead := v.regs.dead ||| pm,
          chained := chained.map (·.id), inner := inner, started := true, left := false, lazyLeft := w.hdr.dsc != 0, bindsL := v.regs.bmap,
          bindsT := t.regs.bmap, bounds := (getTeam s v.team).bounds }
      let s1 := takeUnit { s with mmas := s.mmas ++ [op], nextId := s.nextId + 1 } pr
      let z : List LazyRead :=
        if w.hdr.dsc = 0 then []
        else [{ slot := w.hdr.dsc.toNat, ins := .mma w, target := .mma op.id, oldS := [], whole := false,
                oldV := ([(a, fragRegs n 0), (b, fragRegs n 1), (c, fragRegs n 2)].flatMap (fun p => (List.range p.2).map (fun k =>
                  (p.1 + k, (v.regs.v[p.1 + k]?).getD [])))) }]
      let s2 := markDead (modWave s1 v.id (fun x => { x with hz := { x.hz with lazies := x.hz.lazies ++ z } })) v.id pm
      if (trapBound s v d (fragRegs n 2) || trapBound s t d (fragRegs n 2)) && !retires s2 v.id then .stay s2 (.mmaCheck op.id) else .done s2

/-- MMA (R214). -/
def execMma (w : GenW) (s : State) : Host.Outcome State Fault Refusal := issue (.mma w) s (mmaBody w)

/-! ### MMA in the array (R114, R115, R213) -/

/-- Element e of a lane's fragment in captured rows; a dead lane's are zero (R212). -/
def rowElem (rows : List (List W32)) (dead : Mask) (t : Ty) (lane e : Nat) : Nat :=
  let p := 32 / tyWidth t
  if dead.getLsbD lane then 0 else subElem (tyWidth t) (((rows[e / p]?).getD [])[lane]?.getD 0).toNat (e % p)

/-- Element (m, k) of an A fragment (R213). -/
def aElem (rows : List (List W32)) (dead : Mask) (shape : Nat) (t : Ty) (m k : Nat) : Nat :=
  let half := (shapeNK shape).2 / 2
  rowElem rows dead t (m + 64 * (k / half)) (k % half)

/-- Element (k, n) of a B fragment (R213). -/
def bElem (rows : List (List W32)) (dead : Mask) (shape : Nat) (t : Ty) (k n : Nat) : Nat :=
  let (nn, kk) := shapeNK shape
  let per := kk * nn / 128
  rowElem rows dead t (k / per * nn + n) (k % per)

/-- One element of D: R115 for integer accumulation, R114 for f32. -/
def mmaVal (ta tb : Ty) (as bs : List Nat) (c : Nat) : Nat :=
  if (ta == .i8 || ta == .n8) && (tb == .i8 || tb == .n8) then
    wrapI ((List.zipWith (fun a b => ival ta a * ival tb b) as bs).foldl (· + ·) (signed c 32)) 32
  else mmaElem (List.zipWith (fun a b => fmul (valOf ta a) (valOf tb b)) as bs) (fval (fmtOf .f32) c)

/-- The D fragment of one half: its A and C rows and dead lanes, with the leader's B. -/
def mmaHalf (m : MmaOp) (rowsA rowsC : List (List W32)) (dead : Mask) : List (List W32) :=
  let (n, k) := shapeNK m.shape
  let nc := fragRegs m.shape 2
  (List.range nc).map (fun j => (List.range 128).map (fun l =>
    let as := (List.range k).map (fun q => aElem rowsA dead m.shape m.ta (l / n * nc + j) q)
    let bs := (List.range k).map (fun q => bElem m.srcB m.dead m.shape m.tb q (l % n))
    w32 (mmaVal m.ta m.tb as bs (rowElem rowsC dead .b32 l j))))

/-- The D fragments of an MMA in the leader and the twin. -/
def mmaResult (s : State) (m : MmaOp) : List (List W32) × List (List W32) :=
  let tw : Option Wave := findWave s m.twin
  let rows (r n : Nat) : List (List W32) := match tw with | some t => regRows t r n | none => []
  let deadT : Mask := match tw with | some t => t.regs.dead | none => 0
  let (cL, cT) := match m.inner with
    | some p => p
    | none => (m.srcC, rows m.c (fragRegs m.shape 2))
  (mmaHalf m m.srcA cL m.dead, mmaHalf m (rows m.a (fragRegs m.shape 0)) cT deadT)

/-- The MMAs of a pair that were issued before one and are still in flight. -/
def mmasBefore (s : State) (m : MmaOp) : List MmaOp := (s.mmas.takeWhile (fun x => x.id != m.id)).filter (fun x => x.pair == m.pair)

/-- The lanes of the twin whose A or C fragment holds poison; a C that is taken inside the array is not read (R40, R216). -/
def twinPoison (s : State) (m : MmaOp) : Mask :=
  match findWave s m.twin with
  | some t => fragPoison t ([(m.a, fragRegs m.shape 0)] ++ (if m.inner.isSome then [] else [(m.c, fragRegs m.shape 2)]))
  | none => 0

/-- MMA_LEAVES_ARRAY (R216): the first MMA of its pair in the array, its sources read, leaves it; one chained to it takes its result. -/
def execMmaLeavesArray (op : Nat) (s : State) : Host.Outcome State Fault Refusal :=
  match s.mmas.find? (fun m => m.id == op) with
  | none => .next s
  | some m =>
    if m.left || m.lazyLeft || !((mmasBefore s m).all (·.left)) then .next s
    else
      let s1 := markDead s m.twin (twinPoison s m)
      let r := mmaResult s1 m
      .next { s1 with mmas := s1.mmas.map (fun x =>
        if x.id = op then { x with left := true, inner := some r } else if x.chained = some op then { x with inner := some r } else x) }

/-! ### MMA at retirement (R210, R215, R216) -/

/-- The write of a D fragment in one wave: the lanes that are not dead. -/
def mmaWrites (v : Wave) (d : Nat) (rows : List (List W32)) : List (Nat × List (Nat × W32)) :=
  let ls := lanes (~~~ v.regs.dead) v.width
  (List.range rows.length).map (fun j => (d + j, ls.map (fun l => (l, ((rows[j]?).getD [])[l]?.getD 0))))

/-- A half's write checked against the bindings and bound registers as they stood at issue, without the lanes of a mask (R208, R209). -/
def mmaPut (s : State) (id : Nat) (snap : Snap) (ws : List (Nat × List (Nat × W32))) (skip : Mask) : State :=
  match findWave s id with
  | none => s
  | some v =>
    match snapWrite (getTeam s v.team) v (some snap) (ws.map (fun p => (p.1, p.2.filter (fun q => !skip.getLsbD q.1)))) with
    | .ok x => putWave s x
    | .error _ => s

/-- The lanes of a half that its write takes out of bounds under a trap binding that stood at issue (R208 to R210). -/
def mmaBad (s : State) (id : Nat) (snap : Snap) (d : Nat) (rows : List (List W32)) : Mask :=
  match findWave s id with
  | some v => trapLanes { getTeam s v.team with bounds := snap.2 } { v with regs := { v.regs with bmap := snap.1 } } (mmaWrites v d rows)
  | none => 0

/-- A twin that no longer has to wait for an MMA (R216): killed when its scope is cancelled (R35), stopped when its context halts. -/
def releaseTwin (s : State) (id : Nat) : State :=
  match findWave s id with
  | none => s
  | some t =>
    if t.ctl.st ≠ .slaved then s
    else if killDue s t then killWave s id
    else if t.ctl.stopping then haltCheck (logStopped (putWave s (setSt t .waiting .stopped)) id) t.ctx
    else putWave s (setSt t .ready .idle)

/-- The leader after the check of a bound result: it goes on after the MMA, or takes 0x07 at it. -/
def mmaChecked (s : State) (m : MmaOp) (bad : Mask) : State :=
  match findWave s m.leader with
  | none => s
  | some v =>
    let i := (insAt s v v.ctl.pc).getD (.mma { hdr := noHdr, dst := .v 0, a := .v 0, b := .v 0, c := .v 0, opx := 0, ty2 := .b32, sat := false,
                                               abs := 0, neg := 0, nan := false, rm := .rn })
    if v.ctl.wait ≠ .mmaCheck m.id then s
    else if bad = 0 ∨ v.hz.handler then complete s v.id i none
    else precisely s v i { precise 0x07 with lanes := bad }

/-- MMA_RETIRE (R215, R216): D is written in both halves, or, under a trap binding, in neither. -/
def execMmaRetire (op : Nat) (s : State) : Host.Outcome State Fault Refusal :=
  match s.mmas.find? (fun m => m.id == op) with
  | none => .next s
  | some m =>
    match m.inner with
    | some (rL, rT) =>
      if !m.left || !(mmasBefore s m).isEmpty then .next s
      else
        let s0 : State := { s with mmas := s.mmas.filter (fun x => x.id != op) }
        let (kL, kT) : Snap × Snap := ((m.bindsL, m.bounds), (m.bindsT, m.bounds))
        let ws (id : Nat) (rows : List (List W32)) : List (Nat × List (Nat × W32)) :=
          match findWave s0 id with | some v => mmaWrites v m.d rows | none => []
        let bL := mmaBad s0 m.leader kL m.d rL
        let bT := mmaBad s0 m.twin kT m.d rT
        let all : Mask := bL ||| (bT <<< 128)
        let sec := match findWave s0 m.leader with | some v => v.hz.handler | none => false
        let put (x : State) (skipL skipT : Mask) : State := mmaPut (mmaPut x m.leader kL (ws m.leader rL) skipL) m.twin kT (ws m.twin rT) skipT
        let s1 :=
          if all = 0 then put s0 0 0
          else if sec then modWave (put s0 bL bT) m.leader (fun v => noteFault v 0x07 0)
          else s0
        .next (releaseTwin (mmaChecked s1 m all) m.twin)
    | none => .next s

/-! ### MSCA and MTRN (R217, R218) -/

/-- Whether two ranges are equal or disjoint. -/
def sameOrApart (p q : Nat × Nat) : Bool := decide (p = q) || !rangesMeet p q

/-- The ranges of the vector operands of MSCA beside its destination. -/
def mscaRanges (w : GenW) (nc : Nat) : List (Nat × Nat) := vRange nc w.a ++ vRange nc w.c

/-- Whether an MSCA may run: a wave of 128 lanes, D equal to A or C or apart from their ranges (R217; the one register
of B is no range). -/
def mscaOk (w : GenW) (v : Wave) (nc : Nat) : Bool :=
  v.width == 128 && (mscaRanges w nc).all (sameOrApart (vNum w.dst, nc))

/-- One element of MSCA's result, and whether its scale was read from a dead lane. -/
def mscaElem (w : GenW) (s : State) (v : Wave) (nc n j l : Nat) : Nat × Bool :=
  let f := fmtOf .f32
  let row := bitAt w.opx.toNat 2
  let m := l / n * nc + j
  let bw (x : Nat) : Nat := laneWord s v w.hdr.lit .f32 w.b x
  let sc := fval f (signMod w 1 f (if row then crossRead v bw m else bw l))
  let c := match w.c with | .v r => (vreg v (r.toNat + j) l).toNat | o => laneWord s v w.hdr.lit .f32 o l
  let a := (vreg v (vNum w.a + j) l).toNat
  (roundTo f .rn (ffma .rn (fval f (signMod w 0 f a)) sc (fval f (signMod w 2 f c))), row && crossDead v m)

/-- The lanes of an MSCA that consume poison: in a fragment of their own, or in a row scale read across lanes (R40). -/
def mscaPoison (w : GenW) (v : Wave) (nc n : Nat) (ls : List Nat) : Mask :=
  if v.regs.poison.isEmpty then 0
  else fragPoison v (mscaRanges w nc) |||
    maskOf (ls.filter (fun l => bitAt w.opx.toNat 2 && (List.range nc).any (fun j => crossPoison v w.b 1 (l / n * nc + j))))

/-- MSCA (R217): it takes every lane that is not dead. -/
def execMsca (w : GenW) (s : State) : Host.Outcome State Fault Refusal :=
  issueR (.msca w) s (fun s v =>
    let shape := w.opx.toNat % 4
    let nc := fragRegs shape 2
    let n := (shapeNK shape).1
    if !mscaOk w v nc then (.trap s (precise 0x01), none)
    else
      let ls := lanes (~~~ v.regs.dead) v.width
      let e : Eff := { v := (List.range nc).map (fun j => (vNum w.dst + j, ls.map (fun l => (l, w32 (mscaElem w s v nc n j l).1)))) }
      let d := (List.range nc).any (fun j => ls.any (fun l => (mscaElem w s v nc n j l).2))
      writeOut s v { e with cc := some (setD v.regs.cc d), dies := mscaPoison w v nc n ls } w.hdr.nwb)

/-- MTRN (R218): a 32 by 32 transpose of each group of lanes. -/
def execMtrn (w : GenW) (s : State) : Host.Outcome State Fault Refusal :=
  issueR (.mtrn w) s (fun s v =>
    if !sameOrApart (vNum w.dst, 32) (vNum w.a, 32) then (.trap s (precise 0x01), none)
    else
      let ls := actLanes v w
      let get (i j : Nat) : W32 := w32 (crossRead v (fun p => (vreg v (vNum w.a + i % 32) p).toNat) (i / 32 * 32 + j))
      let e : Eff := { v := (List.range 32).map (fun j => (vNum w.dst + j, ls.map (fun i => (i, get i j)))) }
      let d := ls.any (fun i => (List.range 32).any (fun j => crossDead v (i / 32 * 32 + j)))
      let dies := maskOf (ls.filter (fun i => (List.range 32).any (fun j => regPoison v (vNum w.a + i % 32) 1 (i / 32 * 32 + j))))
      writeOut s v { e with cc := some (setD v.regs.cc d), dies := dies } w.hdr.nwb)

/-! ### Fragments in memory (R219, R220) -/

/-- Whether a type is that of a fragment of a shape and role (R219). -/
def fragTypeOk (shape role : Nat) (t : Ty) : Bool :=
  match role with
  | 0 => match shape with
    | 0 | 1 => t == .f16 || t == .bf16
    | 2 => t == .e4m3 || t == .e5m2 || t == .i8 || t == .n8
    | _ => t == .e4m3 || t == .e5m2 || t == .i8
  | 1 => match shape with
    | 0 | 1 => t == .f16 || t == .bf16
    | 2 => t == .e4m3 || t == .e5m2 || t == .i8 || t == .n8
    | _ => t == .bp8
  | _ => t == .f32 || (shape == 2 && t == .i32)

/-- Whether the descriptor, type and registers of MLDF or MSTF pass the checks that raise 0x01 (R212, R219, R220). -/
def fragOk (v : Wave) (t : Ty) (r : Nat) (desc : W64) : Bool :=
  let (shape, role) := descShape desc
  v.width == 128 && bits desc.toNat 36 28 == 0 && role != 3 && fragTypeOk shape role t && decide (r + fragRegs shape role ≤ v.regs.cnt)

/-- The elements of a fragment of a wave: the lanes that are not dead, and of a replayed instruction the unfinished ones. -/
def fragElems (s : State) (v : Wave) (i : Instr) (t : Ty) (desc base : W64) : List Elem :=
  let (shape, role) := descShape desc
  let only : Mask := match v.ctl.only with | some m => m | none => ~~~ (0 : Mask)
  let ls := lanes (~~~ v.regs.dead &&& only) 128
  ls.flatMap (fun l => (List.range (fragCount shape role)).map (fun e =>
    let (row, col) := fragCoord shape role l e
    let a := base + w64 (row * bits desc.toNat 0 32 + col * tySize t)
    { lane := l, piece := e, addr := a, site := .nowhere, data := storeData s v i l e, cmp := 0 }))

/-- A state and wave in which the lanes whose fragment in a range holds poison, which a store of it reads, have died (R40). -/
def fragDies (s : State) (v : Wave) (kind : AccKind) (p : Nat × Nat) : State × Wave :=
  let m := if kind = .store then fragPoison v [p] else 0
  if m == 0 then (s, v) else let s1 := markDead s v.id m; (s1, (findWave s1 v.id).getD v)

/-- The effect of MLDF and MSTF. -/
def fragBody (i : Instr) (w : MemW) (r : Nat) (kind : AccKind) (s : State) (v : Wave) : Out :=
  let desc := scalarOp s v w.hdr.lit w.b
  let n := tySize w.hdr.typ
  let (shape, role) := descShape desc
  if !fragOk v w.hdr.typ r desc then .trap s (precise 0x01)
  else withBase s v w.hdr w.a (kWrites kind) (fun b via =>
    let base := b + BitVec.ofInt 64 (w.disp.toInt * n)
    let viaH := match via with | .raw => false | _ => true
    let slot := if kind = .store then lazyOf v i (fragRegs shape role) w.c else none
    let (s1, v1) := fragDies s v kind (r, fragRegs shape role)
    let els := fragElems s1 v1 i w.hdr.typ desc base
    if (base.toNat % n ≠ 0 ∨ bits desc.toNat 0 32 % n ≠ 0) ∧ els.all (fun e => e.addr.toNat % n == 0) then .trap s (preciseAt 0x08 base)
    else issueAccess s1 v1 (opRecOf s v i)
      { kind := kind, ty := w.hdr.typ, order := w.order, scope := w.scope, wb := if kind = .load then .frag r shape role else .none,
        vector := true, viaHandle := viaH, elems := els } via { slot := slot })

/-- MLDF (R220). -/
def execMldf (w : MemW) (s : State) : Host.Outcome State Fault Refusal := issue (.mldf w) s (fragBody (.mldf w) w (vNum w.dst) .load)

/-- MSTF (R220). -/
def execMstf (w : MemW) (s : State) : Host.Outcome State Fault Refusal := issue (.mstf w) s (fragBody (.mstf w) w (vNum w.c) .store)

end Sys2Proof.Machine
end

