-- ==== Sys2Proof/Machine/Remote.lean ====
section
/-! DEFINITION. The accesses to a named peer (R234 to R237): formed as any other, checked for alignment and peer only, and failable. -/

namespace Sys2Proof.Machine

/-- The peer value of a lane. -/
def peerVal (s : State) (v : Wave) (h : Hdr) (o : Operand) (lane : Nat) : W64 :=
  match o with
  | .v r => (vreg v r.toNat lane).setWidth 64
  | o => scalarOp s v h.lit o

/-- What a peer instruction does. -/
structure PeerOp where
  hdr : Hdr
  peer : Operand
  base : Operand
  idx : Operand
  disp : Int
  scope : Scp
  order : Order
  kind : AccKind
  wb : WriteBack
  vec : Bool
  mode : StoreMode := {}

/-- The elements of a peer instruction, with their peer values. -/
def peerElems (s : State) (v : Wave) (i : Instr) (m : PeerOp) : List (Elem × W64) :=
  let n := tySize m.hdr.typ
  let ls := if m.vec then lanes (actOf v m.hdr.msk) v.width else [0]
  ls.map (fun l =>
    let p := peerVal s v m.hdr m.peer l
    let a := memAddr (scalarOp s v m.hdr.lit m.base) (memIndex s v m.hdr m.idx l) m.hdr.nwb n m.disp
    ({ lane := l, piece := 0, addr := a, site := .peer (p.setWidth 9), data := storeData s v i l 0, cmp := 0 }, p))

/-- The first check of R234 that some lane fails: its trap. -/
def peerTrap (m : PeerOp) (l : List (Elem × W64)) : Option PTrap :=
  let n := tySize m.hdr.typ
  let bad1 := l.filter (fun x => x.1.addr.toNat % n != 0)
  let bad2 := l.filter (fun x => decide (512 ≤ x.2.toNat))
  let lm (q : List (Elem × W64)) : Mask := if m.vec then maskOf (q.map (·.1.lane)) else 0
  match bad1, bad2 with
  | x :: _, _ => some { preciseAt 0x08 x.1.addr with lanes := lm bad1 }
  | [], x :: _ => some { preciseAt 0x09 x.2 with lanes := lm bad2 }
  | [], [] => none

/-- The effect of a peer instruction; in handler mode the failing lanes are left out and the fault is recorded (R55). -/
def peerBody (i : Instr) (m : PeerOp) (s : State) (v : Wave) : Out :=
  let l := peerElems s v i m
  let acc (es : List (Elem × W64)) : Access :=
    { kind := m.kind, ty := m.hdr.typ, order := m.order, scope := m.scope, wb := m.wb, vector := m.vec, viaHandle := false,
      elems := es.map (·.1) }
  match peerTrap m l with
  | none => if l.isEmpty then .done s else commitAccess s v (opRecOf s v i) (acc l) m.mode true false
  | some t =>
    if v.hz.handler then
      let v1 := noteFault v t.cause t.faddr
      let keep := l.filter (fun x => x.1.addr.toNat % tySize m.hdr.typ == 0 && decide (x.2.toNat < 512))
      if keep.isEmpty then .done (putWave s v1) else commitAccess (putWave s v1) v1 (opRecOf s v1 i) (acc keep) m.mode true false
    else .trap s t

/-- A remote-layout word as a peer operation. -/
def remOp (w : RemW) (kind : AccKind) (wb : WriteBack) (vec : Bool) (mode : StoreMode) : PeerOp :=
  { hdr := w.hdr, peer := w.a, base := w.b, idx := w.c, disp := w.disp.toInt, scope := w.scope, order := w.order, kind := kind, wb := wb,
    vec := vec, mode := mode }

/-- PLD (R235). -/
def execPld (w : RemW) (s : State) : Host.Outcome State Fault Refusal :=
  issue (.pld w) s (peerBody (.pld w) (remOp w .load (loadDest w.dst) (isV w.dst) {}))

/-- PST (R236). -/
def execPst (w : RemW) (s : State) : Host.Outcome State Fault Refusal :=
  issue (.pst w) s (fun s v => peerBody (.pst w)
    (remOp w .store .none (peerVec w.dst w.a w.c false) { slot := lazyOf v (.pst w) (regsOf w.hdr.typ) w.dst }) s v)

/-- PSTS (R236): its packets go in the stream of STREAM. -/
def execPsts (w : RemW) (s : State) : Host.Outcome State Fault Refusal :=
  issue (.psts w) s (fun s v => peerBody (.psts w)
    (remOp w .store .none (peerVec w.dst w.a w.c false)
      { slot := lazyOf v (.psts w) (regsOf w.hdr.typ) w.dst, stream := some w.stream.toNat }) s v)

/-- An atomic-layout word as a peer operation. -/
def patomOp (w : AtomW) (wb : WriteBack) (vec : Bool) : PeerOp :=
  { hdr := w.hdr, peer := w.a, base := w.b, idx := w.c, disp := w.disp.toInt, scope := w.scope, order := w.order, kind := .atom w.aop,
    wb := wb, vec := vec }

/-- PATOM (R237). -/
def execPatom (w : AtomW) (s : State) : Host.Outcome State Fault Refusal :=
  issue (.patom w) s (peerBody (.patom w) (patomOp w .none (peerVec w.dst w.a w.c false)))

/-- PATOMR (R237). -/
def execPatomr (w : AtomW) (s : State) : Host.Outcome State Fault Refusal :=
  issue (.patomr w) s (peerBody (.patomr w) (patomOp w (loadDest w.dst) (isV w.dst)))

end Sys2Proof.Machine
end

