-- ==== Sys2Proof/Machine/Dispatch.lean ====
section
/-! DEFINITION. The dispatch: one arm for each constructor of `Instr`, each a call of that instruction's meaning. -/

namespace Sys2Proof.Machine

open Sys2Proof

/-- The meaning of an instruction or event. -/
def exec (i : Instr) (s : State) : Host.Outcome State Fault Refusal :=
  match i with
  | .nop w => Sys2Proof.Machine.execNop w s
  | .bra w => Sys2Proof.Machine.execBra w s
  | .bkz w => Sys2Proof.Machine.execBkz w s
  | .bknz w => Sys2Proof.Machine.execBknz w s
  | .bhz w => Sys2Proof.Machine.execBhz w s
  | .call w => Sys2Proof.Machine.execCall w s
  | .ret w => Sys2Proof.Machine.execRet w s
  | .jmpi w => Sys2Proof.Machine.execJmpi w s
  | .loop w => Sys2Proof.Machine.execLoop w s
  | .endp w => Sys2Proof.Machine.execEndp w s
  | .trap w => Sys2Proof.Machine.execTrap w s
  | .rft w => Sys2Proof.Machine.execRft w s
  | .yield w => Sys2Proof.Machine.execYield w s
  | .yieldExpiry wave => Sys2Proof.Machine.execYieldExpiry wave s
  | .srd w => Sys2Proof.Machine.execSrd w s
  | .swr w => Sys2Proof.Machine.execSwr w s
  | .haltctx w => Sys2Proof.Machine.execHaltctx w s
  | .drain w => Sys2Proof.Machine.execDrain w s
  | .tlbinv w => Sys2Proof.Machine.execTlbinv w s
  | .replay w => Sys2Proof.Machine.execReplay w s
  | .nopre w => Sys2Proof.Machine.execNopre w s
  | .pre w => Sys2Proof.Machine.execPre w s
  | .mark w => Sys2Proof.Machine.execMark w s
  | .smov w => Sys2Proof.Machine.execSmov w s
  | .sli w => Sys2Proof.Machine.execSli w s
  | .sadd w => Sys2Proof.Machine.execSadd w s
  | .ssub w => Sys2Proof.Machine.execSsub w s
  | .smul w => Sys2Proof.Machine.execSmul w s
  | .smulh w => Sys2Proof.Machine.execSmulh w s
  | .smad w => Sys2Proof.Machine.execSmad w s
  | .sdiv w => Sys2Proof.Machine.execSdiv w s
  | .srem w => Sys2Proof.Machine.execSrem w s
  | .sand w => Sys2Proof.Machine.execSand w s
  | .sor w => Sys2Proof.Machine.execSor w s
  | .sxor w => Sys2Proof.Machine.execSxor w s
  | .sshl w => Sys2Proof.Machine.execSshl w s
  | .sshr w => Sys2Proof.Machine.execSshr w s
  | .smin w => Sys2Proof.Machine.execSmin w s
  | .smax w => Sys2Proof.Machine.execSmax w s
  | .scmp w => Sys2Proof.Machine.execScmp w s
  | .stst w => Sys2Proof.Machine.execStst w s
  | .ssel w => Sys2Proof.Machine.execSsel w s
  | .sclz w => Sys2Proof.Machine.execSclz w s
  | .spopc w => Sys2Proof.Machine.execSpopc w s
  | .sbfe w => Sys2Proof.Machine.execSbfe w s
  | .sbfi w => Sys2Proof.Machine.execSbfi w s
  | .kand w => Sys2Proof.Machine.execKand w s
  | .kor w => Sys2Proof.Machine.execKor w s
  | .kxor w => Sys2Proof.Machine.execKxor w s
  | .kandn w => Sys2Proof.Machine.execKandn w s
  | .kmov w => Sys2Proof.Machine.execKmov w s
  | .kset w => Sys2Proof.Machine.execKset w s
  | .kget w => Sys2Proof.Machine.execKget w s
  | .kpopc w => Sys2Proof.Machine.execKpopc w s
  | .kfirst w => Sys2Proof.Machine.execKfirst w s
  | .vmov w => Sys2Proof.Machine.execVmov w s
  | .vadd w => Sys2Proof.Machine.execVadd w s
  | .vsub w => Sys2Proof.Machine.execVsub w s
  | .vmul w => Sys2Proof.Machine.execVmul w s
  | .vmulh w => Sys2Proof.Machine.execVmulh w s
  | .vmad w => Sys2Proof.Machine.execVmad w s
  | .vand w => Sys2Proof.Machine.execVand w s
  | .vor w => Sys2Proof.Machine.execVor w s
  | .vxor w => Sys2Proof.Machine.execVxor w s
  | .vshl w => Sys2Proof.Machine.execVshl w s
  | .vshr w => Sys2Proof.Machine.execVshr w s
  | .vmin w => Sys2Proof.Machine.execVmin w s
  | .vmax w => Sys2Proof.Machine.execVmax w s
  | .vabs w => Sys2Proof.Machine.execVabs w s
  | .vcmp w => Sys2Proof.Machine.execVcmp w s
  | .vsel w => Sys2Proof.Machine.execVsel w s
  | .vclz w => Sys2Proof.Machine.execVclz w s
  | .vpopc w => Sys2Proof.Machine.execVpopc w s
  | .vbfe w => Sys2Proof.Machine.execVbfe w s
  | .vbfi w => Sys2Proof.Machine.execVbfi w s
  | .vdp4 w => Sys2Proof.Machine.execVdp4 w s
  | .vfadd w => Sys2Proof.Machine.execVfadd w s
  | .vfsub w => Sys2Proof.Machine.execVfsub w s
  | .vfmul w => Sys2Proof.Machine.execVfmul w s
  | .vfma w => Sys2Proof.Machine.execVfma w s
  | .vfmin w => Sys2Proof.Machine.execVfmin w s
  | .vfmax w => Sys2Proof.Machine.execVfmax w s
  | .vfcmp w => Sys2Proof.Machine.execVfcmp w s
  | .vfclass w => Sys2Proof.Machine.execVfclass w s
  | .vrcp w => Sys2Proof.Machine.execVrcp w s
  | .vrsq w => Sys2Proof.Machine.execVrsq w s
  | .vsqrt w => Sys2Proof.Machine.execVsqrt w s
  | .vdiv w => Sys2Proof.Machine.execVdiv w s
  | .vexp2 w => Sys2Proof.Machine.execVexp2 w s
  | .vlog2 w => Sys2Proof.Machine.execVlog2 w s
  | .vcvt w => Sys2Proof.Machine.execVcvt w s
  | .vfrnd w => Sys2Proof.Machine.execVfrnd w s
  | .vpack w => Sys2Proof.Machine.execVpack w s
  | .vunpk w => Sys2Proof.Machine.execVunpk w s
  | .vshuf w => Sys2Proof.Machine.execVshuf w s
  | .vxsh w => Sys2Proof.Machine.execVxsh w s
  | .vbcast w => Sys2Proof.Machine.execVbcast w s
  | .vred w => Sys2Proof.Machine.execVred w s
  | .vscan w => Sys2Proof.Machine.execVscan w s
  | .vcomp w => Sys2Proof.Machine.execVcomp w s
  | .vexpd w => Sys2Proof.Machine.execVexpd w s
  | .vapnd w => Sys2Proof.Machine.execVapnd w s
  | .vvote w => Sys2Proof.Machine.execVvote w s
  | .vrand w => Sys2Proof.Machine.execVrand w s
  | .vrseed w => Sys2Proof.Machine.execVrseed w s
  | .vsca w => Sys2Proof.Machine.execVsca w s
  | .bset w => Sys2Proof.Machine.execBset w s
  | .bmap w => Sys2Proof.Machine.execBmap w s
  | .mma w => Sys2Proof.Machine.execMma w s
  | .mmaRetire op => Sys2Proof.Machine.execMmaRetire op s
  | .msca w => Sys2Proof.Machine.execMsca w s
  | .mtrn w => Sys2Proof.Machine.execMtrn w s
  | .mldf w => Sys2Proof.Machine.execMldf w s
  | .mstf w => Sys2Proof.Machine.execMstf w s
  | .ld w => Sys2Proof.Machine.execLd w s
  | .st w => Sys2Proof.Machine.execSt w s
  | .ldb w => Sys2Proof.Machine.execLdb w s
  | .stb w => Sys2Proof.Machine.execStb w s
  | .atom w => Sys2Proof.Machine.execAtom w s
  | .atomr w => Sys2Proof.Machine.execAtomr w s
  | .cas w => Sys2Proof.Machine.execCas w s
  | .fence w => Sys2Proof.Machine.execFence w s
  | .prf w => Sys2Proof.Machine.execPrf w s
  | .ldh w => Sys2Proof.Machine.execLdh w s
  | .sth w => Sys2Proof.Machine.execSth w s
  | .hmov w => Sys2Proof.Machine.execHmov w s
  | .pin w => Sys2Proof.Machine.execPin w s
  | .unpin w => Sys2Proof.Machine.execUnpin w s
  | .pld w => Sys2Proof.Machine.execPld w s
  | .pst w => Sys2Proof.Machine.execPst w s
  | .psts w => Sys2Proof.Machine.execPsts w s
  | .patom w => Sys2Proof.Machine.execPatom w s
  | .patomr w => Sys2Proof.Machine.execPatomr w s
  | .nput w => Sys2Proof.Machine.execNput w s
  | .nget w => Sys2Proof.Machine.execNget w s
  | .natom w => Sys2Proof.Machine.execNatom w s
  | .nflush w => Sys2Proof.Machine.execNflush w s
  | .wrev w => Sys2Proof.Machine.execWrev w s
  | .copy w => Sys2Proof.Machine.execCopy w s
  | .copym w => Sys2Proof.Machine.execCopym w s
  | .chain w => Sys2Proof.Machine.execChain w s
  | .close w => Sys2Proof.Machine.execClose w s
  | .waitb w => Sys2Proof.Machine.execWaitb w s
  | .cadd w => Sys2Proof.Machine.execCadd w s
  | .tryw w => Sys2Proof.Machine.execTryw w s
  | .trywPeriodicRead wave => Sys2Proof.Machine.execTrywPeriodicRead wave s
  | .trywLimitExpiry wave => Sys2Proof.Machine.execTrywLimitExpiry wave s
  | .spawn w => Sys2Proof.Machine.execSpawn w s
  | .taskAccept task => Sys2Proof.Machine.execTaskAccept task s
  | .cscope w => Sys2Proof.Machine.execCscope w s
  | .cancel w => Sys2Proof.Machine.execCancel w s
  | .kpoll w => Sys2Proof.Machine.execKpoll w s
  | .bars w => Sys2Proof.Machine.execBars w s
  | .bara w => Sys2Proof.Machine.execBara w s
  | .barw w => Sys2Proof.Machine.execBarw w s
  | .give w => Sys2Proof.Machine.execGive w s
  | .giveRelease wave => Sys2Proof.Machine.execGiveRelease wave s
  | .claim w => Sys2Proof.Machine.execClaim w s
  | .hwait w => Sys2Proof.Machine.execHwait w s
  | .waitt w => Sys2Proof.Machine.execWaitt w s
  | .elect w => Sys2Proof.Machine.execElect w s
  | .aloop w => Sys2Proof.Machine.execAloop w s
  | .aend w => Sys2Proof.Machine.execAend w s
  | .ald w => Sys2Proof.Machine.execAld w s
  | .apf w => Sys2Proof.Machine.execApf w s
  | .aadv w => Sys2Proof.Machine.execAadv w s
  | .ahalt w => Sys2Proof.Machine.execAhalt w s
  | .waveKill wave => Sys2Proof.Machine.execWaveKill wave s
  | .waveRetire wave => Sys2Proof.Machine.execWaveRetire wave s
  | .waveStateMachineCheck wave => Sys2Proof.Machine.execWaveStateMachineCheck wave s
  | .scopeQuiesceAck ctx slot => Sys2Proof.Machine.execScopeQuiesceAck ctx slot s
  | .slipResolve wave tag reply => Sys2Proof.Machine.execSlipResolve wave tag reply s
  | .trapDelivery wave => Sys2Proof.Machine.execTrapDelivery wave s
  | .faultRecordWrite wave => Sys2Proof.Machine.execFaultRecordWrite wave s
  | .nopreOverrun wave => Sys2Proof.Machine.execNopreOverrun wave s
  | .preemption ctx => Sys2Proof.Machine.execPreemption ctx s
  | .teamRestore team core => Sys2Proof.Machine.execTeamRestore team core s
  | .binderyBatchStart die => Sys2Proof.Machine.execBinderyBatchStart die s
  | .binderyDrainDone die => Sys2Proof.Machine.execBinderyDrainDone die s
  | .binderyBatchDone die => Sys2Proof.Machine.execBinderyBatchDone die s
  | .bdyDoorbell die value => Sys2Proof.Machine.execBdyDoorbell die value s
  | .pstsResync r => Sys2Proof.Machine.execPstsResync r s
  | .engineOpStart op => Sys2Proof.Machine.execEngineOpStart op s
  | .engineChunk c => Sys2Proof.Machine.execEngineChunk c s
  | .engineOpComplete op => Sys2Proof.Machine.execEngineOpComplete op s
  | .engineOpAbort op => Sys2Proof.Machine.execEngineOpAbort op s
  | .lqDoorbell queue value => Sys2Proof.Machine.execLqDoorbell queue value s
  | .launchPacketRead p => Sys2Proof.Machine.execLaunchPacketRead p s
  | .launchPending queue => Sys2Proof.Machine.execLaunchPending queue s
  | .teamPlacement => Sys2Proof.Machine.execTeamPlacement s
  | .gridEnd grid => Sys2Proof.Machine.execGridEnd grid s
  | .contextEndInterrupt ctx => Sys2Proof.Machine.execContextEndInterrupt ctx s
  | .ctxEnd value => Sys2Proof.Machine.execCtxEnd value s
  | .governorWindow => Sys2Proof.Machine.execGovernorWindow s
  | .coreHotMark core temp => Sys2Proof.Machine.execCoreHotMark core temp s
  | .coreDroop core => Sys2Proof.Machine.execCoreDroop core s
  | .priPageRequest asid page => Sys2Proof.Machine.execPriPageRequest asid page s
  | .priResponse group code => Sys2Proof.Machine.execPriResponse group code s
  | .atsInvalidateRequest pasid va len => Sys2Proof.Machine.execAtsInvalidateRequest pasid va len s
  | .fabCtlEn => Sys2Proof.Machine.execFabCtlEn s
  | .fabricJoin id inc => Sys2Proof.Machine.execFabricJoin id inc s
  | .fabricPeerUpdate peer st inc => Sys2Proof.Machine.execFabricPeerUpdate peer st inc s
  | .planeDown plane => Sys2Proof.Machine.execPlaneDown plane s
  | .flitLinkRetry f => Sys2Proof.Machine.execFlitLinkRetry f s
  | .fabricWritePacket pkt => Sys2Proof.Machine.execFabricWritePacket pkt s
  | .fabricReadPacket pkt => Sys2Proof.Machine.execFabricReadPacket pkt s
  | .fabricAtomicPacket pkt => Sys2Proof.Machine.execFabricAtomicPacket pkt s
  | .fabricAck ans => Sys2Proof.Machine.execFabricAck ans s
  | .fabricNak ans => Sys2Proof.Machine.execFabricNak ans s
  | .fabricResponse ans => Sys2Proof.Machine.execFabricResponse ans s
  | .fabricRtoExpiry pkt => Sys2Proof.Machine.execFabricRtoExpiry pkt s
  | .fabricTmoExpiry pkt => Sys2Proof.Machine.execFabricTmoExpiry pkt s
  | .netPacketArrival pkt => Sys2Proof.Machine.execNetPacketArrival pkt s
  | .netContextFetchDone conn => Sys2Proof.Machine.execNetContextFetchDone conn s
  | .netAck ans => Sys2Proof.Machine.execNetAck ans s
  | .netNak ans => Sys2Proof.Machine.execNetNak ans s
  | .netParkResend pkt => Sys2Proof.Machine.execNetParkResend pkt s
  | .netRetransmitTimeout pkt => Sys2Proof.Machine.execNetRetransmitTimeout pkt s
  | .arrayUncorrectableError err => Sys2Proof.Machine.execArrayUncorrectableError err s
  | .arrayCorrectedError err => Sys2Proof.Machine.execArrayCorrectedError err s
  | .selfTestComplete unit found => Sys2Proof.Machine.execSelfTestComplete unit found s
  | .rangeLockEntryError die index ownerReadable => Sys2Proof.Machine.execRangeLockEntryError die index ownerReadable s
  | .infieldTestDue cluster => Sys2Proof.Machine.execInfieldTestDue cluster s
  | .infieldTestEnd cluster failing => Sys2Proof.Machine.execInfieldTestEnd cluster failing s
  | .watchdogFire team bar => Sys2Proof.Machine.execWatchdogFire team bar s
  | .xbarCommitPrepare value => Sys2Proof.Machine.execXbarCommitPrepare value s
  | .xbarSwap => Sys2Proof.Machine.execXbarSwap s
  | .mpWatchdogReset => Sys2Proof.Machine.execMpWatchdogReset s
  | .latencyWindowEnd => Sys2Proof.Machine.execLatencyWindowEnd s
  | .securityAlarm which => Sys2Proof.Machine.execSecurityAlarm which s
  | .firmwareImageVerify image => Sys2Proof.Machine.execFirmwareImageVerify image s
  | .pwrMode value => Sys2Proof.Machine.execPwrMode value s
  | .errStatusClear bank => Sys2Proof.Machine.execErrStatusClear bank s
  | .powerOn image rows => Sys2Proof.Machine.execPowerOn image rows s
  | .registerWrite agent offset value => Sys2Proof.Machine.execRegisterWrite agent offset value s
  | .hostBarAccess addr len store => Sys2Proof.Machine.execHostBarAccess addr len store s
  | .fabricPlaneUp plane => Sys2Proof.Machine.execFabricPlaneUp plane s
  | .fabricPacketSend plane => Sys2Proof.Machine.execFabricPacketSend plane s
  | .mmaLeavesArray op => Sys2Proof.Machine.execMmaLeavesArray op s
  | .atsTranslationResponse pasid page answer => Sys2Proof.Machine.execAtsTranslationResponse pasid page answer s
  | .priCapabilityWrite allowance reenable => Sys2Proof.Machine.execPriCapabilityWrite allowance reenable s
  | .pwrModeChangeComplete => Sys2Proof.Machine.execPwrModeChangeComplete s
  | .mainPowerLoss => Sys2Proof.Machine.execMainPowerLoss s

end Sys2Proof.Machine
end

