-- ==== Sys2Proof/Machine/Turn.lean ====
section
/-! DEFINITION. The turns of the device: a wave at its instruction boundary (R53, R118 to R121), an access slice (R286), the end of a
lazy read (R130), the passage of time (R4), and what an agent outside does. -/

namespace Sys2Proof.Machine

/-! ### A wave at its boundary -/

/-- A fetch that stops a wave: the trap precisely at its program counter, or a park for the fetch (R58, R118). In handler mode it is no secondary
fault, since no handler instruction raises it (log 101). -/
def fetchStop (s : State) (w : Wave) (x : FetchStop) : State :=
  match x with
  | .trap cause a =>
    takeTrap s w.id { cause := cause, cls := .precise, pcdlv := w.ctl.pc, pcop := w.ctl.pc, tag := none, faddr := a,
                      rcd := { noRec with scope := w.scope }, lanes := 0, mixed := false, desched := false }
  | .park en ea level cause =>
    let (s1, p) := mkPark s w w.ctl.pc 0 level 4 1 cause w.ctl.pc en ea none
    parkWave s1 w.id p 0

/-- A word that is no legal instruction: 0x01 precisely, with the word in the frame (R138). -/
def illegalWord (s : State) (w : Wave) (word : W96) : State :=
  takeTrap s w.id { cause := 0x01, cls := .precise, pcdlv := w.ctl.pc, pcop := w.ctl.pc, tag := none, faddr := 0,
                    rcd := { noRec with iword := word, scope := w.scope }, lanes := 0, mixed := false, desched := false }

/-- A wave entering a line: its CHAIN bit is noted and no latch holds a result (R123, R129). -/
def enterLine (w : Wave) (l : List Byte) : Wave :=
  if w.ctl.line == some (lineAddr w.ctl.pc) then w
  else { w with ctl := { w.ctl with line := some (lineAddr w.ctl.pc), chain := isChain l, latches := [] } }

/-- Whether the first slot of a wave that starts is refused: a spawned task needs TGT (R134, R252). -/
def entryBad (s : State) (w : Wave) (l : List Byte) (n : Nat) : Bool :=
  w.ctl.fresh && w.ctl.flash.isNone && !isTarget l n &&
    (match (getTeam s w.team).kind with | .task _ => true | _ => false)

/-- Whether the slot that a branch has come to, on a page that was absent when it was taken, is no legal target of it (R134): the wave takes 0x03
at that slot: the model's choice (log 106). -/
def arrivedBad (w : Wave) (l : List Byte) (n : Nat) : Bool := w.ctl.needTgt && !isTarget l n

/-- The fetch of a wave, its line check and the instruction executed (R118 to R121, R135 step 1). -/
def fetchRun (s0 : State) (w : Wave) : Host.Outcome State Fault Refusal :=
  let s := refetchAt s0 w w.ctl.pc
  match peekLine s w w.ctl.pc with
  | .error x => .next (fetchStop s w x)
  | .ok (e, l) =>
    let s1 := cacheLine s w.core e w.ctl.pc l
    match slotIndex w.ctl.pc with
    | none => .next (fetchStop s1 w (.trap 0x03 w.ctl.pc))
    | some n =>
      if isLitSlot l n || entryBad s w l n || arrivedBad w l n then .next (fetchStop s1 w (.trap 0x03 w.ctl.pc))
      else
        let w1 := enterLine w l
        let w2 := { w1 with ctl := { w1.ctl with fresh := false, needTgt := false } }
        match slotIns l n with
        | none => .next (illegalWord (putWave s1 w2) w2 (slotWord l n))
        | some i => exec i { putWave s1 w2 with cur := .wave w.id }

/-- Whether the wait of a wave lets its instruction be tried again. -/
def mayRetry (w : Wave) : Bool :=
  match w.ctl.wait with
  | .stopped | .mmaCheck _ | .bars _ _ => false
  | _ => true

/-- Whether YIELD still keeps a wave from being chosen (R155). -/
def yielding (s : State) (w : Wave) : Bool :=
  match w.ctl.wait with
  | .yielded others lim => !(yieldLeft s others).isEmpty && decide (s.clk < lim)
  | _ => false

/-- A wave whose park has ended, its record withdrawn. -/
def unparked (s : State) (w : Wave) : State :=
  modWave (modCtx s w.ctx (fun c => { c with records := c.records.filter (fun x => x != w.id) })) w.id
    (fun x => { x with ctl := { x.ctl with st := .ready, park := none } })

/-- A parked wave whose context has no fault-service wave takes its fault precisely at the parked instruction, for its unfinished lanes (R58,
R305); in handler mode it is secondary (R55), unless it is a fetch (log 101). An entry of an operand queue whose load has parked a pop carries the
cause from now on, and the pop raises it (R263). -/
def parkedTurn (s : State) (w : Wave) (p : Park) : State :=
  if (getCtx s w.ctx).fswWave.isNone then
    let m := w.ctl.only.getD 0
    let s1 := unparked s w
    match (if p.access = 4 ∧ p.vaddr = p.pc then none else insAt s w w.ctl.pc) with
    | some i =>
      if (qRegs i).any (fun q => match (w.queues[q]?).getD [] with | e :: _ => e.unfinished.isSome | [] => false) then
        modWave s1 w.id (fun x => { x with
          queues := x.queues.map (fun q => match q with | e :: r => failEntry e p.cause :: r | [] => []),
          ctl := { x.ctl with only := none, again := true } })
      else precisely s1 w i { preciseAt p.cause p.vaddr with lanes := m }
    | none => fetchStop s1 w (.trap p.cause p.vaddr)
  else s
where
  /-- An entry with loads unfinished that now fails. -/
  failEntry (e : QEntry) (cause : Nat) : QEntry :=
    match e.unfinished with
    | some (a, _) => { e with cause := cause, faddr := lowestAddr a e.lanes, unfinished := none }
    | none => e

/-- A wave at the end of the idempotent region of its kernel that it is in has left it; when every wave of its team has, the team has (R64). -/
def leaveIdem (s : State) (w : Wave) : State :=
  match w.ctl.idem with
  | some (f, start, inside) =>
    let out := inside && s.regions.any (fun r => r.1 == (getTeam s w.team).kernel.exec && r.2.1 == start && r.2.2 == w.ctl.pc)
    let s1 := if out then putWave s { w with ctl := { w.ctl with idem := some (f, start, false) } } else s
    let left (x : Wave) : Bool := match x.ctl.idem with | some (_, a, i) => a == start && !i | none => false
    if s1.waves.all (fun x => x.team != w.team || !isLive x || left x) then
      { s1 with waves := s1.waves.map (fun (x : Wave) => if x.team = w.team then { x with ctl := { x.ctl with idem := none } } else x) }
    else s1
  | none => s

/-- What follows a wave's turn: slips that can resolve do, a stopped wave's failures go to the log, and a halt that waits only for it ends its
context (R158). -/
def afterTurn (s : State) (id : Nat) : State :=
  match findWave s id with
  | none => s
  | some w =>
    let s0 := settleAll (leaveIdem s w) id
    let s1 := if w.ctl.wait == .stopped then haltCheck (logStopped s0 id) w.ctx else s0
    { s1 with cur := .none }

/-- A result with its state changed. -/
def mapNext (o : Host.Outcome State Fault Refusal) (f : State → State) : Host.Outcome State Fault Refusal :=
  match o with
  | .next s => .next (f s)
  | .fault r => .fault r
  | .refused r => .refused r

/-! ### The choice of an issue slot (R123, R285) -/

/-- Whether a ready wave comes before another in its core's choice (R285). -/
def before (a b : Wave) : Bool :=
  decide (b.prio < a.prio) || (a.prio == b.prio && (decide (a.lastReady < b.lastReady) || (a.lastReady == b.lastReady && decide (a.slot < b.slot))))

/-- Whether a wave is inside a line whose CHAIN bit is set, so that it keeps an issue slot (R123): one that is parked or stopped does not. -/
def keepsSlot (w : Wave) : Bool :=
  w.ctl.chain && w.ctl.line == some (lineAddr w.ctl.pc) &&
    (match w.ctl.st with
      | .ready | .issuing | .slaved => true
      | .waiting | .suspended => w.ctl.wait != .stopped
      | _ => false)

/-- The other waves of a wave's core. -/
def coreMates (s : State) (w : Wave) : List Wave := s.waves.filter (fun x => x.core == w.core && x.id != w.id)

/-- Whether an issue slot of its core may choose a wave now: it keeps one, or of the two slots fewer than two are kept by others or would take
a ready wave that comes before it (R285, log 80). -/
def mayChoose (s : State) (w : Wave) : Bool :=
  keepsSlot w ||
    decide (((coreMates s w).filter (fun x => keepsSlot x || (x.ctl.st == .ready && !yielding s x && !x.ctl.preempt && before x w))).length < 2)

/-- Whether a wave issues nothing more because its team is to be saved: not before the end of a chained line (R60, R123). -/
def heldBack (w : Wave) : Bool := w.ctl.preempt && !keepsSlot w

/-- The turn of a wave: the kill of one that waits at a kill point or is parked, which never leaves its wait; then pending traps, in the
order of R53; then its instruction, when an issue slot chooses it. -/
def waveTurn (s : State) (id : Nat) : Host.Outcome State Fault Refusal :=
  match findWave s id with
  | none => .next s
  | some w =>
    match w.ctl.st with
    | .killed | .retired | .preempted => .next s
    | .parked =>
      if killDue s w then .next (killWave s id)
      else match w.ctl.park with
        | some p => .next (afterTurn (parkedTurn s w p) id)
        | none => .next s
    | _ =>
      if killableWait w && killDue s w then .next (afterTurn (killWave s id) id)
      else match (if atBoundary w then pendingTrap w else none) with
      | some t => .next (afterTurn (takeTrap s id t) id)
      | none =>
        if w.ctl.st == .retiring || !mayRetry w || yielding s w || heldBack w || !mayChoose s w then .next s
        else mapNext (fetchRun s w) (fun x => afterTurn x id)

/-! ### An access slice -/

/-- The turn of an access slice (R286): one instruction, or the search for the end of a loop that it skips (R265). Flow past the end of
.access, or a line that fails its check, is an illegal use; a fetch that faults waits for its page, or ends the slice with its cause (R302,
log 82). -/
def sliceTurn (s : State) (id : Nat) : Host.Outcome State Fault Refusal :=
  match findWave s id with
  | none => .next s
  | some w =>
    if w.slice.stopped || w.ctl.st == .killed || w.ctl.st == .retired || w.ctl.st == .preempted then .next s
    else if pastAccess s w w.slice.pc then .next (sliceIllegal s id)
    else
      let s0 := refetchAt s w w.slice.pc
      match fetchXlate s0 (getCtx s0 w.ctx) w.slice.pc with
      | .error (.park ..) => .next s0
      | .error (.trap c _) => .next (sliceEnd s0 id c)
      | .ok e =>
        let l := lineBytes s0 w.core e w.slice.pc
        match w.slice.skip with
        | some d => .next (skipLoop (cacheLine s0 w.core e w.slice.pc l) w d w.slice.pc)
        | none =>
        match (if lineOk l then slotIndex w.slice.pc else none) with
        | some n => match slotIns l n with
          | some i => mapNext (exec i { cacheLine s0 w.core e w.slice.pc l with cur := .slice id }) (fun x => { x with cur := .none })
          | none => .next (sliceIllegal s0 id)
        | none => .next (sliceIllegal s0 id)

/-! ### Lazy reads, time, and agents outside -/

/-- A lazy read that ends (R130). -/
def lazyTurn (s : State) (id slot : Nat) (newV : List (Nat × Mask)) (newS : List Nat) : State :=
  match findWave s id with
  | none => s
  | some w => match w.hz.lazies.find? (fun z => z.slot == slot) with
    | none => s
    | some z => match z.target with
      | .mma op =>
        let x := lazyWave w z newV newS
        let w1 := { w with hz := { w.hz with lazies := w.hz.lazies.filter (fun y => y.slot != slot) } }
        let row (r n : Nat) : List (List W32) := (List.range n).map (fun k => (x.regs.v[r + k]?).getD [])
        { putWave s w1 with mmas := s.mmas.map (fun m =>
            if m.id = op then { m with
              srcA := row m.a (fragRegs m.shape 0), srcB := row m.b (fragRegs m.shape 1), srcC := row m.c (fragRegs m.shape 2),
              lazyLeft := false }
            else m) }
      | _ => lazyStoreDone s w z newV newS

/-- Whether a wave waits in a phase of a barrier of its team (R340). -/
def waitsAt (w : Wave) (n : Nat) : Bool :=
  match w.ctl.wait with
  | .bars m _ | .barw m _ => m == n
  | _ => false

/-- The real time that the phases of a team's barriers accumulate (R340). -/
def watchTime (s : State) (ns : Nat) (t : Team) : Team :=
  if t.saved.isSome then t
  else { t with bars := (List.range t.bars.length).map (fun n =>
    let b := (t.bars[n]?).getD (newBarrier 0)
    if s.waves.any (fun w => w.team == t.id && waitsAt w n) then { b with waited := b.waited + ns } else b) }

/-- Clocks and real time advanced: phases with a waiter accumulate it, and matrix issues that wait for the governor are counted (R216, R340). -/
def advanceTime (s : State) (clk ns : Nat) : State :=
  { s with
    clk := (s.clk + clk) % 2 ^ 64, ns := s.ns + ns,
    teams := s.teams.map (watchTime s ns),
    waves := s.waves.map (fun (w : Wave) =>
      if w.ctl.wait == .budget then { w with regs := { w.regs with mstall := w.regs.mstall + w64 clk } } else w) }

/-- Time passes (R4): first every suspended TRYW has read what has been written (R251); then the phases that the time brings to TMO fire,
and the latency windows that it ends close (R340, R344). -/
def passTime (s : State) (clk ns : Nat) : State := closeWindows (fireDue (advanceTime (trywAll s) clk ns))

/-- A write of an agent outside to host memory or the CXL tier. -/
def outsideWrite (s : State) (sp : Space) (a : Nat) (l : List Byte) : State :=
  match sp with
  | .host | .cxl => writeRange s sp a l
  | _ => s

/-- A region of the device's program objects that is idempotent, from its entry to its end (R64, R140). -/
def loadRegion (s : State) (e start stop : W64) : State :=
  if s.regions.contains (e, start, stop) then s else { s with regions := s.regions ++ [(e, start, stop)] }

/-- Waves that a turn has made ready, or that have issued in it and are ready again, take their place behind those already ready (R285). -/
def noteReady (old new : State) : State :=
  let fresh (w : Wave) : Bool := w.ctl.st == .ready && (match findWave old w.id with
    | some x => x.ctl.st != .ready || x.issued != w.issued
    | none => true)
  if new.waves.any fresh then
    { new with waves := new.waves.map (fun w => if fresh w then { w with lastReady := new.nextId } else w), nextId := new.nextId + 1 }
  else new

/-- The data of an element as a retransmission reads it: each 32-bit source element of its lane, by its place among those of the lane, as it was
or anew (R130). A scalar source is read as a whole. -/
def mixParts (a : Access) (parts : List (Nat × Mask)) (e : Elem) (new : W64) : W64 :=
  let has (k : Nat) : Bool := parts.any (fun q => q.1 == k && q.2.getLsbD e.lane)
  let k := tyWidth a.ty * e.piece / 32
  if a.vector && tyWidth a.ty == 64 then
    w64 ((if has k then new.toNat else e.data.toNat) % 2 ^ 32 + (if has (k + 1) then new.toNat else e.data.toNat) / 2 ^ 32 * 2 ^ 32)
  else if has k then new else e.data

/-- The retransmission of a packet whose instruction claimed a slot reads some of its source elements again (R130, R320). -/
def resendTurn (s : State) (pkt : Nat) (parts : List (Nat × Mask)) : State :=
  let again (p : OutPkt) : OutPkt :=
    match p.ins, p.owner with
    | some i, .slip id _ => match findWave s id with
      | some w => { p with acc := { p.acc with elems := p.acc.elems.map (fun e =>
          { e with data := mixParts p.acc parts e (storeData s w i e.lane e.piece) }) } }
      | none => p
    | _, _ => p
  { s with fab := { s.fab with out := s.fab.out.map (fun p => if p.id = pkt && p.queued && p.first.isSome then again p else p) } }

/-- What one turn of the agenda does. -/
def turnBody (s : State) (t : Turn) : Host.Outcome State Fault Refusal :=
  match t with
  | .wave w => waveTurn s w
  | .slice w => sliceTurn s w
  | .event i => exec i { s with cur := .none }
  | .lazyRead w slot newV newS => .next (lazyTurn s w slot newV newS)
  | .tick clk ns => .next (passTime s clk ns)
  | .outside sp a l => .next (outsideWrite s sp a l)
  | .dropTranslation asid base => .next { s with tlb := s.tlb.filter (fun e => !(e.asid == asid && e.base == base)) }
  | .dropLine core asid a => .next { s with icache := s.icache.filter (fun l => !(l.core == core && l.asid == asid && l.addr == a)) }
  | .colourSeen core ctx heap =>
    .next { s with colours := s.colours.filter (fun x => !(x.1 == core && x.2.1 == ctx && x.2.2.1 == heap)) }
  | .region e a b => .next (loadRegion s e a b)
  | .accessEnd a b => .next { s with accEnds := (a, b) :: s.accEnds.filter (fun p => p.1 != a) }
  | .resendRead p m => .next (resendTurn s p m)
  | .links rs => .next { s with refusals := rs.filter (fun r => r.1 == .cxl || r.1 == .host) }

/-- One turn of the agenda. -/
def takeTurn (s : State) (t : Turn) : Host.Outcome State Fault Refusal := mapNext (turnBody s t) (noteReady s)

/-! ### The choice when nothing is named -/

/-- A list of waves in the order of R285. -/
def insertWave (w : Wave) : List Wave → List Wave
  | [] => [w]
  | x :: r => if before w x then w :: x :: r else x :: insertWave w r

/-- The waves in the order in which they are tried. -/
def waveOrder (s : State) : List Turn := ((s.waves.foldl (fun l w => insertWave w l) []).map (fun (w : Wave) => Turn.wave w.id))

/-- Events of units of the device that need nothing from outside: retirement, acceptance of tasks, lazy reads, engines, the matrix
arrays, the binderies, the distributor. -/
def ownEvents (s : State) : List Turn :=
  s.waves.flatMap (fun (w : Wave) =>
      w.hz.lazies.map (fun z => Turn.lazyRead w.id z.slot [] []) ++ [.event (.waveKill w.id), .event (.waveRetire w.id), .event (.giveRelease w.id)]
        ++ (if w.ctl.park.isSome then [Turn.event (.faultRecordWrite w.id)] else [])
        ++ (match w.ctl.wait with | .tryw .. => [Turn.event (.trywPeriodicRead w.id), .event (.trywLimitExpiry w.id)] | _ => [])
        ++ w.hz.slips.map (fun x => Turn.event (.slipResolve w.id x.tag (.done 0))))
    ++ s.tasks.map (fun t => Turn.event (.taskAccept t.id))
    ++ s.mmas.flatMap (fun m => [Turn.event (.mmaLeavesArray m.id), .event (.mmaRetire m.id)])
    ++ s.ops.flatMap (fun o => [Turn.event (.engineOpStart o.id), .event (.engineOpAbort o.id), .event (.engineChunk ⟨o.id, none⟩), .event (.engineOpComplete o.id)])
    ++ s.ctxs.flatMap (fun c => c.scopes.map (fun r => Turn.event (.scopeQuiesceAck c.id r.slot)) ++ [.event (.contextEndInterrupt c.id), .event (.preemption c.id)])
    ++ s.fab.planes.map (fun p => Turn.event (.fabricPacketSend p)) ++ s.fab.spacesOut.map (fun x => Turn.event (.pstsResync ⟨x.space, none⟩))
    ++ s.grids.map (fun g => Turn.event (.gridEnd g.id))
    ++ (List.range 64).flatMap (fun q => if ((s.queues[q]?).getD resetQueue).en then [Turn.event (.launchPending q), .event (.launchPacketRead ⟨q, false⟩)] else [])
    ++ (List.range 4).flatMap (fun d => if (((s.bindery[d]?).getD resetBindery).batch.isSome || !((s.bindery[d]?).getD resetBindery).queue.isEmpty)
        then [Turn.event (.binderyBatchStart d), .event (.binderyDrainDone d), .event (.binderyBatchDone d)] else [])
    ++ (if s.grids.isEmpty && s.tasks.isEmpty && s.teams.isEmpty then [] else [Turn.event .teamPlacement])
    ++ waveOrder s ++ s.waves.map (fun (w : Wave) => Turn.slice w.id)

/-- The first turn of a list that changes the state; time passes when none does. -/
def firstMove (s : State) : List Turn → Host.Outcome State Fault Refusal
  | [] => .next (passTime s 1 1)
  | t :: r => match takeTurn s t with
    | .next s1 => if s1 = s then firstMove s r else .next s1
    | o => o

end Sys2Proof.Machine
end

