-- ==== Sys2Proof/Machine/Step.lean ====
section
/-! DEFINITION. One step of the device: the head of the agenda, or, when it is empty, the first move that can be made; and the placing
of an instruction where the next step fetches it. -/

namespace Sys2Proof.Machine

/-- One step: the turn at the head of the agenda, else the first of the device's own moves that changes something. -/
def step (s : State) : Host.Outcome State Fault Refusal :=
  match s.agenda with
  | t :: r => takeTurn { s with agenda := r } t
  | [] => firstMove s (ownEvents s)

/-- The line that holds an instruction in its slot 0 and what follows it in slot 1, with its line word. -/
def lineFor (w : Nat) : List Byte :=
  let body := (slotBytes w ++ List.replicate 36 0).take 60
  let lit := b2n (bitAt w 59)
  body ++ natToBytes 4 (parityOf body * 2 ^ 24 + 2 ^ 19 + lit * 2 ^ 15)

/-- A core both of whose issue slots are free for a new wave. -/
def bootCore (s : State) : Nat := ((List.range 192).find? (fun k => !(s.waves.any (fun w => w.core == k && keepsSlot w)))).getD 0

/-- A context, a team of one wave and the wave, as a loaded program has them; its priority puts it before every other wave of its core. -/
def bootWave (s : State) : State :=
  let id := s.nextId
  let core := bootCore s
  let k : Kernel := { noKernel with args := List.replicate 16 0 }
  let w := { newWave (id + 2) id (id + 1) 0 0 core 0 8 48 0 0 false k s.free s.clk with ctl := { startCtl 0 with fresh := false } }
  let t : Team := { noTeam with id := id + 1, ctx := id, core := core, kernel := k, waves := [id + 2], bars := List.replicate 16 (newBarrier 1),
                                bounds := List.replicate 16 newBound }
  let c : Ctx := { noCtx with id := id, asid := id % 4096 }
  { s with ctxs := s.ctxs ++ [c], teams := s.teams ++ [t], waves := s.waves ++ [w], nextId := id + 3, free := s.free + 256 }

/-- The wave whose instruction is placed: the first that is ready and that an issue slot may choose, or a new one. -/
def fetchWave (s : State) : State × Option Wave :=
  match s.waves.find? (fun w => w.ctl.st == .ready && !w.ctl.preempt && mayChoose s w) with
  | some w => (s, some w)
  | none => let s1 := bootWave s; (s1, s1.waves.getLast?)

/-- A state in which the next step fetches and runs the instruction of the bits `w` (R118, R303, R351): its line is held in the
instruction cache of a wave's core and its translation is cached. -/
def State.withFetchWord (s : State) (nbits w : Nat) : State :=
  let x := w % 2 ^ nbits
  let (s1, wv) := fetchWave s
  match wv with
  | none => s1
  | some v =>
    let opc := bits x 86 10
    let slice := decide (0x300 ≤ opc) && decide (opc ≤ 0x305)
    let pc := if slice then lineAddr v.slice.pc else lineAddr v.ctl.pc
    let c := getCtx s1 v.ctx
    let e : TlbEntry := { asid := c.asid, base := pc.toNat / 4096 * 4096, size := 12, leaf := 0xB, at_ := 0 }
    let v1 : Wave :=
      if slice then { v with slice := { v.slice with pc := pc, stopped := false } }
      else { v with ctl := { v.ctl with pc := pc, line := none, latches := [], fresh := false, needTgt := false } }
    let s2 := cacheXlate (putWave s1 v1) e
    let keep := s2.icache.filter (fun l => !(l.core == v.core && l.asid == c.asid && l.addr == pc))
    { s2 with
      icache := keep ++ [{ core := v.core, asid := c.asid, base := e.base, size := 12, addr := pc, bytes := lineFor x }],
      agenda := [if slice then .slice v.id else .wave v.id] }

end Sys2Proof.Machine
end

