-- ==== Sys2Proof/Safety.lean ====
section
/-! DEFINITION. What a safe run is, the shape that every state of a run keeps, and the terms in which claims say that an instruction
issues and completes. -/

namespace Sys2Proof.Machine

/-- Every memory of a state is in canonical form (rising addresses, no byte that an unlisted address reads as). -/
def State.memOk (s : State) : Prop :=
  s.hbm.wf ∧ s.cxl.wf ∧ s.host.wf ∧ (∀ t ∈ s.teams, t.shelf.wf) ∧ (∀ w ∈ s.waves, w.stack.wf)
    ∧ (∀ c ∈ s.ctxs, ∀ m ∈ c.annex, Memory.wf m)

/-- A run is safe when none of its steps faults or is refused. -/
def safeRun (n : Nat) (s : State) : Prop := ∃ t, Sys2Proof.core.run n s = .next t

/-- An instruction of the wave `w`, whose turn it is, executes: it passes the checks of R135 step 2, its slots are free, its guard is
true, nothing interlocks it, and every queue it names gives an entry without poison on a lane of act. `v` is the wave its effect
starts from: as `w`, with its latches settled (R129) and those entries popped (R263). The scope of the wave is not cancelled (R35),
so that no kill point is taken. -/
structure Issues (s : State) (w v : Wave) (i : Instr) : Prop where
  cur : s.cur = .wave w.id
  found : findWave s w.id = some w
  live : w.ctl.st ≠ .retiring ∧ w.ctl.st ≠ .killed ∧ w.ctl.st ≠ .retired
  check : issueFault s w i = none
  slots : slotsFree w i = true
  guard : guardHolds (insHdr i).grd w.regs.cc = true
  alive : scopeCancelled (getCtx s w.ctx) w.scope = false
  twin : mmaTwin s (freezeLatches w) i = false
  lock : interlocked s (freezeLatches w) i = false
  pops : popAll (putWave s (freezeLatches w)) (freezeLatches w) i = .ok v 0

/-- The instruction completes in sequential flow in the state `t`, in which its effect is made and its wave still stands at it: the wave
is then passed on, its latch taking the destination just after it, or, under NWB, the result alone (R129). -/
def Ends (s : State) (i : Instr) (id : Nat) (t : State) : Prop :=
  ∃ x l, findWave t id = some x ∧ (isNwb i = false → l = destLatch x i) ∧ Sys2Proof.Machine.exec i s = .next (spendLatch i (putWave t (stepPast x i l)))

/-- The instruction completes in sequential flow and changes nothing but its own wave, which is `x` before it is passed on. -/
def Does (s : State) (i : Instr) (x : Wave) : Prop :=
  ∃ l, (isNwb i = false → l = destLatch x i) ∧ Sys2Proof.Machine.exec i s = .next (spendLatch i (putWave s (stepPast x i l)))

/-- The instruction completes in sequential flow, its wave `x` before it is passed on, and the rest of the state as in `t`. -/
def Makes (s : State) (i : Instr) (t : State) (x : Wave) : Prop :=
  ∃ l, (isNwb i = false → l = destLatch x i) ∧ Sys2Proof.Machine.exec i s = .next (spendLatch i (putWave t (stepPast x i l)))

/-- The instruction jumps, its wave being `x` before it does; where the target's line cannot be fetched yet, the wave owes the check of TGT (R134,
log 106). -/
def Jumps (s : State) (i : Instr) (x : Wave) (pc : W64) (pops : Bool) : Prop :=
  Sys2Proof.Machine.exec i s = .next (spendLatch i (putWave s
    (jumped { x with ctl := { x.ctl with needTgt := x.ctl.needTgt || (lineAt s x pc).isNone } } pc pops)))

/-- The instruction is not issued: its wave waits at it, what it had popped is in its queues again, and nothing else changes but that the issue had
begun. -/
def Waits (s : State) (i : Instr) (t : State) (id : Nat) (wt : Wait) : Prop :=
  ∃ w, findWave s id = some w ∧ Sys2Proof.Machine.exec i s = .next (spendLatch i (stayAt (unpop i w t) id wt))

/-- The instruction raises a precise trap, with `w` its wave at its boundary. -/
def Traps (s : State) (i : Instr) (t : State) (w : Wave) (p : PTrap) : Prop :=
  Sys2Proof.Machine.exec i s = .next (spendLatch i (precisely t w i p))

/-- The fields common to every layout, all zero (R124). -/
def plainHdr : Hdr := { grd := .al, msk := 0, typ := .b32, dsc := 0, dsw := 0, nwb := false, lit := none }

/-- A word of the general layout of which every field but OPC is zero (R124, R133). -/
def plainGen : GenW :=
  { hdr := plainHdr, dst := .v 0, a := .v 0, b := .v 0, c := .v 0, opx := 0, ty2 := .b32, sat := false, abs := 0, neg := 0, nan := false, rm := .rn }

/-- The same in the memory layout. -/
def plainMem : MemW :=
  { hdr := plainHdr, dst := .v 0, a := .v 0, b := .v 0, c := .v 0, scope := .w, order := .relaxed, policy := .page, disp := 0 }

/-- The same in the atomic layout. -/
def plainAtom : AtomW :=
  { hdr := plainHdr, dst := .v 0, a := .v 0, b := .v 0, c := .v 0, scope := .w, order := .relaxed, policy := .page, aop := .add, disp := 0 }

/-- The same in the remote layout. -/
def plainRem : RemW :=
  { hdr := plainHdr, dst := .v 0, a := .v 0, b := .v 0, c := .v 0, scope := .w, order := .relaxed, policy := .page, stream := 0, disp := 0 }

/-- The same in the branch layout. -/
def plainBr : BrW := { hdr := plainHdr, dst := .v 0, a := .v 0, offset := 0 }

/-- A scalar register written, unless NWB keeps the result in the latch alone (R129). -/
def wroteS (nwb : Bool) (v : Wave) (d : Nat) (x : W64) : Wave := if nwb then v else setS v d x

/-- A mask register written, unless NWB keeps the result out; k0 and the bits of lanes at or above W are never written (R18, R19). -/
def wroteK (nwb : Bool) (v : Wave) (d : Nat) (m : Mask) : Wave := if nwb then v else setK v d m

/-- Vector elements written, unless NWB keeps them out: after the clamps of the bound registers, with their flags (R210, R211). -/
def wroteV (nwb : Bool) (t : Team) (v : Wave) (ws : List (Nat × List (Nat × W32))) : Wave :=
  if nwb then v else noteFlags (putVRegs v (clampWrites t v ws)) (flagSet t v ws)

/-- Vector elements written under the bindings and the bound registers of a snapshot (R208 to R210). -/
def wroteSnap (t : Team) (v : Wave) (k : Snap) (ws : List (Nat × List (Nat × W32))) : Wave :=
  let x := wroteV false { t with bounds := k.2 } { v with regs := { v.regs with bmap := k.1 } } ws
  { x with regs := { x.regs with bmap := v.regs.bmap } }

/-- No lane of a write is out of the bounds of a trap binding (R210); under NWB nothing is written. -/
def boundsOk (nwb : Bool) (t : Team) (v : Wave) (ws : List (Nat × List (Nat × W32))) : Prop := nwb = true ∨ trapLanes t v ws = 0

/-- %cc set. -/
def withCC (v : Wave) (c : W32) : Wave := { v with regs := { v.regs with cc := c } }

/-! ### The terms of the statements on results -/

/-- What a scalar instruction of result `f` does: from the values of A, B and C it writes DST (unless NWB) and the flags. -/
def ScalarRule (k : GenW → Instr) (f : GenW → W32 → Nat → Nat → Nat → Nat × W32) : Prop :=
  ∀ (s : State) (w v : Wave) (g : GenW), Issues s w v (k g) →
    let r := f g v.regs.cc (src s v g g.a) (src s v g g.b) (src s v g g.c)
    Does s (k g) (withCC (wroteS g.hdr.nwb v (sNum g.dst) (w64 (extTo g.hdr.typ 64 r.1))) r.2)

/-- A result of a scalar instruction whose flags are zn, with V as given (R144). -/
def zn (t : Ty) (cc : W32) (r : Nat) (v : Bool) : Nat × W32 := (r, withFlags cc (r % 2 ^ tyWidth t == 0) (bitAt r (tyWidth t - 1)) false v)

/-- What a mask instruction of result `f` does: bits of lanes below W are written, and Z says whether none is set (R170). -/
def MaskRule (k : GenW → Instr) (f : State → Wave → GenW → Mask) : Prop :=
  ∀ (s : State) (w v : Wave) (g : GenW), Issues s w v (k g) →
    let m := f s v g &&& maskBelow v.width
    Does s (k g) (withCC (wroteK g.hdr.nwb v (kNum g.dst) m) (withFlags v.regs.cc (m == 0) false false false))

/-- What an instruction that reads masks and writes a scalar does, with flag Z. -/
def MaskScalarRule (k : GenW → Instr) (f : State → Wave → GenW → Nat × Bool) : Prop :=
  ∀ (s : State) (w v : Wave) (g : GenW), Issues s w v (k g) →
    Does s (k g) (withCC (wroteS g.hdr.nwb v (sNum g.dst) (w64 (f s v g).1)) (withFlags v.regs.cc (f s v g).2 false false false))

/-- The register writes of lane words: one register, or a pair for a 64-bit type (R175). -/
def laneWrites (d : Nat) (t : Ty) (l : List (Nat × Nat)) : List (Nat × List (Nat × W32)) :=
  if tyWidth t = 64 then [(d, l.map (fun p => (p.1, w32 p.2))), (d + 1, l.map (fun p => (p.1, w32 (p.2 / 2 ^ 32))))]
  else [(d, l.map (fun p => (p.1, w32 p.2)))]

/-- What a vector instruction of lane word `f` does: each lane of act gets its word, unless a trap binding stops it. -/
def LaneRule (k : GenW → Instr) (f : State → Wave → GenW → Nat → Nat) : Prop :=
  ∀ (s : State) (w v : Wave) (g : GenW), Issues s w v (k g) →
    let ws := laneWrites (vNum g.dst) g.hdr.typ ((actLanes v g).map (fun l => (l, f s v g l)))
    boundsOk g.hdr.nwb (getTeam s v.team) v ws → Does s (k g) (wroteV g.hdr.nwb (getTeam s v.team) v ws)

/-- The word of a lane of an instruction that works on each element of its type, with one, two or three sources. -/
def elemLane (f : GenW → Nat → Nat → Nat → Nat) (s : State) (v : Wave) (g : GenW) (l : Nat) : Nat :=
  packElems (tyWidth g.hdr.typ) ((List.range (subs g.hdr.typ)).map (fun j =>
    f g (subElem (tyWidth g.hdr.typ) (vword s v g g.a l) j) (subElem (tyWidth g.hdr.typ) (vword s v g g.b l) j)
      (subElem (tyWidth g.hdr.typ) (vword s v g g.c l) j)))

/-- A word of the general layout with NWB set, or clear. -/
def withNwb (b : Bool) (g : GenW) : GenW := { g with hdr := { g.hdr with nwb := b } }

/-- What the latch of an instruction with a scalar result holds: the register just after it, or, under NWB, what the register would get (R129). -/
def LatchScalar (k : GenW → Instr) : Prop :=
  ∀ (s : State) (w v : Wave) (g : GenW) (n : BitVec 6), g.dst = .s n → Issues s w v (k (withNwb false g)) → Issues s w v (k (withNwb true g)) →
    ∃ (x : Wave) (r : W64),
      Sys2Proof.Machine.exec (k (withNwb false g)) s = .next (spendLatch (k (withNwb false g)) (putWave s
        (stepPast (setS x n.toNat r) (k (withNwb false g)) (.sca (sreg (setS x n.toNat r) n.toNat)))))
      ∧ Sys2Proof.Machine.exec (k (withNwb true g)) s = .next (spendLatch (k (withNwb true g)) (putWave s (stepPast x (k (withNwb true g)) (.sca r))))

/-- The same of a mask result, of which a latch holds only that there is one (log 3). -/
def LatchMask (k : GenW → Instr) : Prop :=
  ∀ (s : State) (w v : Wave) (g : GenW) (n : BitVec 7), g.dst = .k n → Issues s w v (k (withNwb false g)) → Issues s w v (k (withNwb true g)) →
    ∃ (x : Wave) (m : Mask),
      Sys2Proof.Machine.exec (k (withNwb false g)) s = .next (spendLatch (k (withNwb false g)) (putWave s
        (stepPast (setK x n.toNat m) (k (withNwb false g)) .other)))
      ∧ Sys2Proof.Machine.exec (k (withNwb true g)) s = .next (spendLatch (k (withNwb true g)) (putWave s (stepPast x (k (withNwb true g)) .other)))

/-- The same of a vector result, one register or a pair that no bound register is bound to, in a wave that holds no poison: under NWB the lanes that
are not written are zero. -/
def LatchVector (k : GenW → Instr) : Prop :=
  ∀ (s : State) (w v : Wave) (g : GenW) (n : BitVec 8), g.dst = .v n → Issues s w v (k (withNwb false g)) → Issues s w v (k (withNwb true g)) →
    v.regs.poison = [] → (∀ p ∈ v.regs.bmap, p.1 ≠ n.toNat ∧ p.1 ≠ n.toNat + 1) →
    ∃ (x : Wave) (ws : List (Nat × List (Nat × W32))),
      (ws.map (·.1) = [n.toNat] ∨ ws.map (·.1) = [n.toNat, n.toNat + 1])
      ∧ (∀ p ∈ ws, ∀ q ∈ p.2, (actOf v g.hdr.msk).getLsbD q.1 = true)
      ∧ Sys2Proof.Machine.exec (k (withNwb false g)) s = .next (spendLatch (k (withNwb false g)) (putWave s (stepPast (putVRegs x ws) (k (withNwb false g))
          (.vec (ws.map (fun p => ((putVRegs x ws).regs.v[p.1]?).getD []))))))
      ∧ Sys2Proof.Machine.exec (k (withNwb true g)) s = .next (spendLatch (k (withNwb true g)) (putWave s (stepPast x (k (withNwb true g))
          (.vec (ws.map (fun p => putElems (List.replicate v.width 0) p.2))))))

/-- What an instruction does that works on each element of its type. -/
def ElemRule (k : GenW → Instr) (f : GenW → Nat → Nat → Nat → Nat) : Prop := LaneRule k (elemLane f)

/-- What a vector instruction of lane word `f` does outside handler mode when a trap binding stops it: 0x07 with the lanes out of bounds, and
nothing written (R210). -/
def BoundTrapRule (k : GenW → Instr) (f : State → Wave → GenW → Nat → Nat) : Prop :=
  ∀ (s : State) (w v : Wave) (g : GenW), Issues s w v (k g) →
    let ws := laneWrites (vNum g.dst) g.hdr.typ ((actLanes v g).map (fun l => (l, f s v g l)))
    g.hdr.nwb = false → v.hz.handler = false → trapLanes (getTeam s v.team) v ws ≠ 0 →
    Traps s (k g) (putWave s v) (unpopped v w) { precise 0x07 with lanes := trapLanes (getTeam s v.team) v ws }

/-- What a vector compare does: the bit of a lane of act is the predicate of all its elements, or, with .any, of some; other bits stay,
or are zero with .z (R183). -/
def CompareRule (k : GenW → Instr) (p : GenW → Nat → Nat → Bool) : Prop :=
  ∀ (s : State) (w v : Wave) (g : GenW), Issues s w v (k g) →
    let n := tyWidth g.hdr.typ
    let q (l j : Nat) : Bool := p g (subElem n (vword s v g g.a l) j) (subElem n (vword s v g g.b l) j)
    let js := List.range (subs g.hdr.typ)
    let new := maskOf ((actLanes v g).filter (fun l => if bitAt g.opx.toNat 3 then js.any (q l) else js.all (q l)))
    let old : Mask := if bitAt g.opx.toNat 4 then 0 else kreg v (kNum g.dst) &&& ~~~ actOf v g.hdr.msk
    Does s (k g) (wroteK g.hdr.nwb v (kNum g.dst) (new ||| old))

/-- What a count instruction of the scalar group does: the count is written without extension, with flags zn (R168). -/
def CountRule (k : GenW → Instr) (f : GenW → Nat → Nat) : Prop :=
  ∀ (s : State) (w v : Wave) (g : GenW), Issues s w v (k g) →
    Does s (k g) (withCC (wroteS g.hdr.nwb v (sNum g.dst) (w64 (f g (src s v g g.a))))
      (zn g.hdr.typ v.regs.cc (f g (src s v g g.a)) false).2)

/-- The lanes of act that consume poison in a read across lanes of a vector operand of `n` registers, `f` naming the lane that each reads: those
that read one which is not dead and holds poison (R40). -/
def consumers (v : Wave) (g : GenW) (o : Operand) (n : Nat) (f : Nat → Option Nat) : Mask :=
  maskOf ((actLanes v g).filter (fun l => match f l, o with
    | some p, .v r => decide (p < v.width) && !v.regs.dead.getLsbD p && regPoison v r.toNat n p
    | _, _ => false))

/-- The instruction completes with its wave `x`; lanes that consumed poison are dead from then on, and a wave of which every lane is dead retires
(R40). -/
def DoesDying (s : State) (i : Instr) (x : Wave) (dies : Mask) : Prop :=
  (dies = 0 → Does s i x) ∧ (dies ≠ 0 → ∃ l, (isNwb i = false → l = none) ∧
    Sys2Proof.Machine.exec i s = .next (spendLatch i (complete (markDead (putWave s x) x.id dies) x.id i l)))

/-- What an instruction does that reads one operand across lanes: the lanes of act that consume no poison get their words, and a flag set is
written. -/
def LaneFlagRule (k : GenW → Instr) (f : State → Wave → GenW → Nat → Nat) (cc : State → Wave → GenW → W32) (dies : Wave → GenW → Mask) : Prop :=
  ∀ (s : State) (w v : Wave) (g : GenW), Issues s w v (k g) →
    let ws := laneWrites (vNum g.dst) g.hdr.typ (((actLanes v g).filter (fun l => !(dies v g).getLsbD l)).map (fun l => (l, f s v g l)))
    boundsOk g.hdr.nwb (getTeam s v.team) v ws →
    let x := wroteV g.hdr.nwb (getTeam s v.team) v ws
    DoesDying s (k g) (withCC x (mergeCC x.regs.cc (cc s v g))) (dies v g)

/-- What a read across lanes does: each lane of act that consumes no poison reads the lane that `f` names, or zero; D is set when one of those is
dead. -/
def ShuffleRule (k : GenW → Instr) (f : State → Wave → GenW → Nat → Option Nat) : Prop :=
  ∀ (s : State) (w v : Wave) (g : GenW), Issues s w v (k g) →
    let dies := consumers v g g.a (regsOf g.hdr.typ) (f s v g)
    let word (l : Nat) : Nat := match f s v g l with
      | some p => if v.width ≤ p ∨ v.regs.dead.getLsbD p then 0 else vword s v g g.a p
      | none => 0
    let ws := laneWrites (vNum g.dst) g.hdr.typ (((actLanes v g).filter (fun l => !dies.getLsbD l)).map (fun l => (l, word l)))
    boundsOk g.hdr.nwb (getTeam s v.team) v ws →
    let x := wroteV g.hdr.nwb (getTeam s v.team) v ws
    let cc := if (actLanes v g).any (fun l => match f s v g l with
        | some p => decide (p < v.width) && v.regs.dead.getLsbD p
        | none => false) then v.regs.cc ||| 0x10 else v.regs.cc
    DoesDying s (k g) (withCC x (mergeCC x.regs.cc cc)) dies

/-- The base of an access: an address, or what the use of a handle gives, with the handle it brings up to date (R93). None while a move of
the object makes the access wait. -/
def baseOf (s : State) (v : Wave) (h : Hdr) (a : Operand) (store : Bool) : Option (W64 × Via × Option (Nat × Handle)) :=
  match a with
  | .h n => match useHandle s v (hreg v n.toNat) store with
    | .base b lo hi upd => some (b, .handle lo hi, upd.map (fun x => (n.toNat, x)))
    | .null => some (0, .null, none)
    | .bad => some (match hreg v n.toNat with | some x => x.base | none => 0, .badHandle, none)
    | .stall => none
  | a => some (scalarOp s v h.lit a, .raw, none)

/-- A handle that its use brought up to date, written. -/
def keptHandle (t : State) (id : Nat) (upd : Option (Nat × Handle)) : State :=
  match upd with
  | some (n, h) => modWave t id (fun x => setH x n (some h))
  | none => t

/-- Where an element that passes its checks goes. -/
def placedAt (s : State) (v : Wave) (a : Access) (via : Via) (e : Elem) : Elem :=
  match resolve s v a.kind via (elemSize a) e.addr with
  | .ok st => { e with site := st }
  | _ => { e with site := .nowhere }

/-- An access with the place of each of its elements. -/
def placed (s : State) (v : Wave) (a : Access) (via : Via) : Access := { a with elems := a.elems.map (placedAt s v a via) }

/-- Nothing makes an access with its places wait: no damaged lock entry, no replayed slip, no earlier access of its wave that it follows, no pending
line that it must not read, no want of room for its requests. -/
def freeToGo (s : State) (v : Wave) (a : Access) : Prop :=
  locksDamaged s = false ∧ openSlip v = none ∧ holdsBack s v a = false ∧ coreRoom s v.core a = true

/-- Every element of an access passes its checks and lies on the device. -/
def allLocal (s : State) (v : Wave) (a : Access) (via : Via) : Prop :=
  a.elems ≠ [] ∧ ∀ e ∈ a.elems, ∃ sp o, resolve s v a.kind via (elemSize a) e.addr = .ok (.loc sp o)

/-- The access of a memory instruction from its base. -/
def accOf (s : State) (v : Wave) (i : Instr) (m : MemOp) (b : W64) (via : Via) : Access :=
  { kind := m.kind, ty := m.hdr.typ, order := m.order, scope := m.scope, wb := m.wb, vector := m.vec,
    viaHandle := (match via with | .raw => false | _ => true), elems := memElems s v i m b }

/-- An access all of whose elements pass their checks and lie on the device gives the state `t`: its elements performed in order, and its
results, with no poison among them, written. -/
def LocalTo (s : State) (v : Wave) (a : Access) (via : Via) (t : State) : Prop :=
  allLocal s v a via ∧ freeToGo s v (placed s v a via)
  ∧ (let r := perform s v.core (getCtx s v.ctx) (placed s v a via) false
     poisonLanes r.2 = 0 ∧ writeGot r.1 v.id (placed s v a via) r.2 = .ok t)

/-- The instruction has its effect in the state `t` and its wave, unless that effect ended it, is passed on. -/
def Finishes (s : State) (i : Instr) (id : Nat) (t : State) : Prop :=
  ∃ l, (isNwb i = false → l = none) ∧ Sys2Proof.Machine.exec i s = .next (spendLatch i (complete t id i l))

/-- A memory instruction whose access is local, and is neither held nor read lazily, completes with it performed; one of no lane changes
nothing. -/
def LocalRule (i : Instr) (m : Wave → MemOp) : Prop :=
  ∀ (s : State) (w v : Wave) (b : W64) (via : Via) (upd : Option (Nat × Handle)), Issues s w v i →
    let p := putWave s v
    let a := accOf p v i (m v) b via
    baseOf p v (m v).hdr (m v).a (kWrites (m v).kind) = some (b, via, upd) →
    (a.elems = [] → Ends s i v.id (keptHandle p v.id upd))
    ∧ (∀ t, ((m v).mode.hr = true → passed v (v.hz.tag - 1) = true) → (m v).mode.slot = none → LocalTo p v a via t →
      Finishes s i v.id (keptHandle t v.id upd))

/-- A local store that is held (HR, before the horizon has passed the last tag) takes its place among the held stores under the next tag
(R49); one that claims a slot leaves its data to be read (R130). -/
def HeldRule (i : Instr) (m : Wave → MemOp) : Prop :=
  ∀ (s : State) (w v : Wave) (b : W64) (via : Via) (upd : Option (Nat × Handle)), Issues s w v i →
    let p := putWave s v
    let a := placed p v (accOf p v i (m v) b via) via
    let held : Held := { key := heldKey v, h := v.hz.tag, acc := a, failable := false }
    baseOf p v (m v).hdr (m v).a true = some (b, via, upd) → allLocal p v (accOf p v i (m v) b via) via →
    freeToGo p v (atIssue v (m v).mode a) →
    ((m v).mode.hr = true → passed v (v.hz.tag - 1) = false → v.hz.held.length < 64 →
      ((m v).mode.slot = none → Ends s i v.id (keptHandle (putWave s { v with hz := { v.hz with held := v.hz.held ++ [held] } }) v.id upd))
      ∧ (∀ z, (m v).mode.slot = some z → Ends s i v.id (keptHandle (putWave s { v with hz := { v.hz with
          held := v.hz.held ++ [held], lazies := v.hz.lazies ++ [{ z with target := .held (heldKey v) }] } }) v.id upd)))
    ∧ (∀ z, ((m v).mode.hr = true → passed v (v.hz.tag - 1) = true) → (m v).mode.slot = some z →
      Ends s i v.id (keptHandle (putWave s { v with hz := { v.hz with lazies := v.hz.lazies ++ [{ z with target := .store a }] } }) v.id upd))

/-- A failable access issued: it takes the next tag and a slip that waits for its portions, its local part is performed, and its packets join
the queues of their flows; a store that claims a slot performs and sends nothing before its data is read (R43, R46, R82, R130, R318). -/
def sentFrom (p : State) (v : Wave) (i : Instr) (a : Access) (md : StoreMode) : State :=
  let slip := newMemSlip p v (opRecOf p v i) a md false
  let s1 := modWave p v.id (fun y => { y with hz := { y.hz with
    tag := y.hz.tag + 1, slips := y.hz.slips ++ [{ slip with held := false }] } })
  sendPart (addLazy s1 v.id md.slot (.packets v.hz.tag)) v a md.stream v.hz.tag md.slot.isSome

/-- A failable access can be issued: nothing makes it wait, no recipe forbids it, a slip is free, and its packets have room. -/
def mayGo (p : State) (v : Wave) (a : Access) (md : StoreMode) : Prop :=
  freeToGo p v a ∧ (v.ctl.recipe = none ∨ v.hz.handler = true) ∧ v.hz.slips.length < 128
    ∧ packetRoom p a (getCtx p v.ctx).asid md.stream = true ∧ (md.hr = true → passed v (v.hz.tag - 1) = true)

/-- A memory instruction some element of which lies beyond the device is failable, and is issued so. -/
def FarRule (i : Instr) (m : Wave → MemOp) : Prop :=
  ∀ (s : State) (w v : Wave) (b : W64) (via : Via) (upd : Option (Nat × Handle)), Issues s w v i →
    let p := putWave s v
    let a := placed p v (accOf p v i (m v) b via) via
    baseOf p v (m v).hdr (m v).a (kWrites (m v).kind) = some (b, via, upd) →
    (∀ e ∈ memElems p v i (m v) b, ∃ st, resolve p v (m v).kind via (tySize (m v).hdr.typ) e.addr = .ok st) → a.elems.any remote = true →
    mayGo p v a (m v).mode → Finishes s i v.id (keptHandle (sentFrom p v i a (m v).mode) v.id upd)

/-- An access to a named peer that passes its checks is issued; one of no lane changes nothing. -/
def PeerRule (i : Instr) (m : Wave → PeerOp) : Prop :=
  ∀ (s : State) (w v : Wave), Issues s w v i →
    let p := putWave s v
    let l := peerElems p v i (m v)
    let a : Access := { kind := (m v).kind, ty := (m v).hdr.typ, order := (m v).order, scope := (m v).scope, wb := (m v).wb, vector := (m v).vec,
                        viaHandle := false, elems := l.map (·.1) }
    peerTrap (m v) l = none → (l = [] → Does s i v)
    ∧ (l ≠ [] → mayGo p v a (m v).mode → Finishes s i v.id (sentFrom p v i a (m v).mode))

/-- A memory instruction whose access fails checks traps outside handler mode with the first that fails in the order of R222. -/
def CheckRule (i : Instr) (m : Wave → MemOp) : Prop :=
  ∀ (s : State) (w v : Wave) (b : W64) (via : Via) (upd : Option (Nat × Handle)) (r : Nat), Issues s w v i →
    let p := putWave s v
    let a := accOf p v i (m v) b via
    baseOf p v (m v).hdr (m v).a (kWrites (m v).kind) = some (b, via, upd) → v.hz.handler = false → locksDamaged s = false →
    let met : List Met := a.elems.map (fun e => (e, resolve p v a.kind via (elemSize a) e.addr))
    minRank met = some r → Traps s i (heardBy p v (kWrites a.kind) ((met.filter isBad).map (·.1))) (unpopped v w) (checkTrap p a met (m v).mode.block r)

/-- What NPUT, NGET and NATOM do with a good descriptor (R238, R239): a message is issued under the next tag; on a live connection of the
context it joins the messages with the descriptor's fields and the connection's next number. -/
def NetRule (k : GenW → Instr) (op : NetOp) : Prop :=
  ∀ (s : State) (w v : Wave) (g : GenW) (l : List Byte), Issues s w v (k g) →
    let p := putWave s v
    anyRecAt p v (scalarOp p v g.hdr.lit g.a) 64 8 = .ok l → netDescOk op l = true →
    rangeBad p (getCtx p v.ctx) (op != .put) (2 ^ 18 + 2) (fld l 0x10 8) (fld l 0x18 4) = none → v.hz.slips.length < 128 →
    let t := sendMsg p v (k g) op l
    Finishes s (k g) v.id t
    ∧ (connAlive p (fld l 0 4) = true → connAsid p (fld l 0 4) = (getCtx p v.ctx).asid → ∃ m, t.net.msgs = s.net.msgs ++ [m]
      ∧ m.wave = v.id ∧ m.tag = v.hz.tag ∧ m.op = op ∧ m.conn = fld l 0 4 ∧ m.win = fld l 4 2 ∧ m.key = BitVec.ofNat 16 (fld l 6 2)
      ∧ m.roff = w64 (fld l 8 8) ∧ m.laddr = w64 (fld l 0x10 8) ∧ m.len = fld l 0x18 4 ∧ m.cntr = w64 (fld l 0x28 8) ∧ m.failure = none)

/-- The records that a COPY names: one source, or an index record and a source, and a destination (R245, R291). -/
def CopyRecords (p : State) (v : Wave) (g : GenW) (src : Layout) (idx : Option Layout) (dst : Layout) : Prop :=
  let a := scalarOp p v g.hdr.lit g.a
  let b := scalarOp p v g.hdr.lit g.b
  (∃ l, recAt p v (scalarOp p v g.hdr.lit g.dst) 64 8 = .ok l ∧ layoutOf l = some dst)
  ∧ ((b = 0 ∧ idx = none ∧ ∃ l, recAt p v a 64 8 = .ok l ∧ layoutOf l = some src)
    ∨ (b ≠ 0 ∧ ∃ l1 l2 x, idx = some x ∧ recAt p v a 64 8 = .ok l1 ∧ layoutOf l1 = some x ∧ recAt p v b 64 8 = .ok l2 ∧ layoutOf l2 = some src))

/-- The access that CADD makes. -/
def caddAccess (p : State) (v : Wave) (g : GenW) : Access :=
  { kind := .atom .add, ty := .n64, order := .release, scope := (scpOf (g.opx.toNat % 8)).getD .d, wb := .none, vector := false, viaHandle := false,
    elems := [{ lane := 0, piece := 0, addr := scalarOp p v g.hdr.lit g.a, site := .nowhere, data := scalarOp p v g.hdr.lit g.b, cmp := 0 }] }

end Sys2Proof.Machine
end

