-- ==== Sys2Proof/Certificates/Slice0/Obligations.lean ====
section
/-! DEFINITION. The statements for the provers. -/

open Sys2Proof Sys2Proof.Machine

/-! ### Encoding -/

/-- R124, R126, R131, R133, R136: the word and the literal slot that encode a well-formed instruction decode to it. -/
def Obligations.DecodeOfEncode : Prop :=
  ∀ (i : Instr) (w : W96) (l : Option W96), i.wellFormed = true → encode i = some (w, l) → decode w l = some i

/-- R124, R131, R138: a word that decodes is the one encoding of its instruction: no bit of it is without effect on what is read, and its literal
is the low 64 bits of the slot after it. -/
def Obligations.EncodeOfDecode : Prop :=
  ∀ (i : Instr) (w : W96) (l : Option W96), decode w l = some i →
    i.wellFormed = true ∧ ∃ m, encode i = some (w, m) ∧ (w.getLsbD 59 = false → m = none)
      ∧ (w.getLsbD 59 = true → ∃ n, l = some n ∧ m = some ((n.extractLsb' 0 64).setWidth 96))

/-- The words that the spec works out or decodes, one of each family: BRA, LOOP, SADD, KANDN, VADD, VCMP, VFMA, VXSH, BSET, MMA, LD, ATOM, FENCE,
PSTS, COPY, TRYW with its literal, SPAWN, ALD; the word of zeros, which is NOP; and the reserved opcode 0x3FF, the reserved guard code 13 and an
ELECT that names k0, which are no instructions (R138). -/
def Obligations.DecodedWords : Prop :=
  decode 0x005400000000007FFFFFFFFB none = some (.bra { plainBr with hdr := { plainHdr with grd := .gt }, offset := 549755813883 })
  ∧ decode 0x02000000020FA0000000000A none = some (.loop { plainBr with dst := .s 7, a := .imm 64, offset := 10 })
  ∧ decode 0x10800080020A82FFE0000000 none = some (.sadd { plainGen with hdr := { plainHdr with typ := .i32 }, dst := .s 5, a := .s 5, b := .imm 255 })
  ∧ decode 0x20C00000044F11D000000000 none = some (.kandn { plainGen with dst := .k 7, a := .k 3, b := .dead })
  ∧ decode 0x2840120000280AEC80000200 none = some (.vadd { plainGen with hdr := { plainHdr with typ := .i16, msk := 2 }, dst := .v 20, a := .v 21, b := .imm 100, sat := true })
  ∧ decode 0x2B800080044E022120048000 none = some (.vcmp { plainGen with hdr := { plainHdr with typ := .i32 }, dst := .k 7, a := .v 4, b := .s 9, opx := 18 })
  ∧ decode 0x40C829800014010060200001 none = some (.vfma { plainGen with hdr := { plainHdr with grd := .ne, typ := .f32, msk := 5 }, dst := .v 10, a := .v 2, b := .v 3, c := .v 4, rm := .rz })
  ∧ decode 0x584000000002006200000000 none = some (.vxsh { plainGen with dst := .v 1, a := .v 0, b := .imm 16 })
  ∧ decode 0x5B000180000085216000C800 none = some (.bset { plainGen with hdr := { plainHdr with typ := .f32 }, a := .s 10, b := .s 11, opx := 3, ty2 := .n32 })
  ∧ decode 0x680003800080000102005C00 none = some (.mma { plainGen with hdr := { plainHdr with typ := .bf16 }, dst := .v 64, a := .v 0, b := .v 8, c := .v 64, opx := 1, ty2 := .bf16 })
  ∧ decode 0x700001801008840020030000 none = some (.ld { plainMem with hdr := { plainHdr with typ := .f32, nwb := true }, dst := .v 4, a := .s 8, b := .v 1, scope := .d })
  ∧ decode 0x710009801000800040330100 none = some (.atom { plainAtom with hdr := { plainHdr with typ := .f32, msk := 1, nwb := true }, a := .s 0, b := .v 2, c := .v 6, scope := .d, aop := .fadd })
  ∧ decode 0x71C000000228000000040000 none = some (.fence { plainMem with dst := .s 20, scope := .f })
  ∧ decode 0x90800000100C84A080140140 none = some (.psts { plainRem with hdr := { plainHdr with nwb := true }, dst := .v 6, a := .s 9, b := .s 4, c := .v 2, stream := 5, scope := .f })
  ∧ decode 0xA0000000021485E008600000 none = some (.copy { plainGen with dst := .s 10, a := .s 11, b := .imm 0, c := .s 12 })
  ∧ decode 0xA180070008008320FC000000 (some 0x1000) = some (.tryw { plainGen with hdr := { plainHdr with typ := .n64, lit := some 0x1000 }, a := .s 6, b := .s 7, c := .lit })
  ∧ decode 0xB000000002288A8000000000 none = some (.spawn { plainGen with dst := .s 20, a := .s 21 })
  ∧ decode 0xC08000000412816080000000 none = some (.ald { plainGen with dst := .q 1, a := .s 2, b := .imm 4 })
  ∧ decode 0 none = some (.nop plainGen)
  ∧ decode 0xFFC000000000000000000000 none = none
  ∧ decode 0x003400000000000000000000 none = none
  ∧ decode 0xB2C000000440000000000000 none = none

/-- R145: NOP accepts GRD and DSW alone, and the word of zeros is one. It changes no state; with DSW it waits, as a stalled issue, until the named
slots are free. -/
def Obligations.NopChangesNothing : Prop :=
  (∀ g : GenW, (Instr.nop g).wellFormed = true ↔ g = { plainGen with hdr := { plainHdr with grd := g.hdr.grd, dsw := g.hdr.dsw } })
  ∧ decode 0 none = some (.nop plainGen)
  ∧ (∀ (s : State) (w v : Wave) (g : GenW), Issues s w v (.nop g) → Does s (.nop g) v)
  ∧ (∀ (s : State) (w : Wave) (g : GenW), s.cur = .wave w.id → findWave s w.id = some w → issueFault s w (.nop g) = none →
    slotsFree w (.nop g) = false → Sys2Proof.Machine.exec (.nop g) s = .next (stayAt s w.id .stall))

/-- R205: VRSEED has OPC 0x16A; MSK, TYP and DST are zero; A and B accept s, sp, imm and lit. When the guard is true it writes key ← A and ctr ← B,
as 64-bit values. -/
def Obligations.GeneratorSeeded : Prop :=
  (∀ (g : GenW) (w : W96) (l : Option W96), encode (.vrseed g) = some (w, l) → w.extractLsb' 86 10 = 0x16A)
  ∧ (∀ g : GenW, (Instr.vrseed g).wellFormed = true → g.hdr.msk = 0 ∧ g.hdr.typ = .b32 ∧ g.dst = .v 0 ∧ isSSrc g.a = true ∧ isSSrc g.b = true)
  ∧ (∀ a b : Operand, isSSrc a = true → isSSrc b = true → isLit a = false → isLit b = false →
    (Instr.vrseed { plainGen with a := a, b := b }).wellFormed = true)
  ∧ (∀ (o : Operand) (x : W64), isSSrc o = true → isLit o = false → o ≠ .imm 0x80 →
    (Instr.vrseed { plainGen with hdr := { plainHdr with lit := some x }, a := .lit, b := o }).wellFormed = true
    ∧ (Instr.vrseed { plainGen with hdr := { plainHdr with lit := some x }, a := o, b := .lit }).wellFormed = true)
  ∧ (∀ (s : State) (w v : Wave) (g : GenW), Issues s w v (.vrseed g) →
    Does s (.vrseed g) { v with regs := { v.regs with key := scalarOp s v g.hdr.lit g.a, ctr := scalarOp s v g.hdr.lit g.b } })

/-- R19: k0 holds the launch mask at the wave's start; no write of a mask register changes it, a restoration at a .flash entry keeps it, and one at the
kernel's entry gives the launch mask again; an instruction that names k0 as its destination is no legal one, and so raises 0x01 where it is met. -/
def Obligations.LaunchMaskFixed : Prop :=
  (∀ (id ctx team idx role core slot cnt prio depth : Nat) (scope : W64) (fsw : Bool) (k : Kernel) (free clk i : Nat), i < 1024 →
    (kreg (newWave id ctx team idx role core slot cnt prio depth scope fsw k free clk) 0).getLsbD i = decide (i < k.lanes))
  ∧ (∀ (v : Wave) (m : Mask), setK v 0 m = v)
  ∧ (∀ (w : Wave) (l : List Byte) (free : Nat), kreg { w with regs := liveRegs w l free } 0 = kreg w 0)
  ∧ (∀ (k : Kernel) (w : Wave) (free i : Nat), i < 1024 → (kreg (backAtEntry k w free) 0).getLsbD i = decide (i < k.lanes))
  ∧ (∀ i : Instr, dstOp i = some (.k 0) → i.wellFormed = false)
  ∧ (∀ (s : State) (w : Wave) (e : TlbEntry) (l : List Byte) (n : Nat), findWave s w.id = some w → w.ctl.st = .ready →
    let t := refetchAt s w w.ctl.pc
    let x : Wave := { enterLine w l with ctl := { (enterLine w l).ctl with fresh := false, needTgt := false } }
    peekLine t w w.ctl.pc = .ok (e, l) → slotIndex w.ctl.pc = some n → isLitSlot l n = false → entryBad t w l n = false → arrivedBad w l n = false →
    slotIns l n = none →
    fetchRun s w = .next (illegalWord (putWave (cacheLine t w.core e w.ctl.pc l) x) x (slotWord l n)))

/-! ### The step -/

/-- R118 to R121, R135: at its boundary, with no trap pending and no kill due, a wave that an issue slot may choose and whose line passes
its check runs the instruction that its slot decodes to, with what the turn adds around it: the line and its translation are cached, the
wave is in its line, the end of the turn, and the order of the waves it made ready. A slot that decodes to none raises 0x01; a spawned task
whose first slot lacks TGT 0x03, and so does a branch target that was met only now, which is the model's choice (log 106). The line is that
of the instruction cache, where its parity holds, else of memory at the frame address. A slice runs the instruction at its own program counter; an event runs as it comes. -/
def Obligations.StepRunsDecoded : Prop :=
  (∀ (s : State) (r : List Turn) (w : Wave) (e : TlbEntry) (l : List Byte) (n : Nat) (i : Instr), s.agenda = .wave w.id :: r →
    let t : State := { s with agenda := r }
    let f := refetchAt t w w.ctl.pc
    findWave t w.id = some w → w.ctl.st ∉ [.killed, .retired, .preempted, .parked, .retiring] → mayRetry w = true →
    (killableWait w = true → killDue t w = false) → (atBoundary w = true → pendingTrap w = none) →
    yielding t w = false → heldBack w = false → mayChoose t w = true →
    peekLine f w w.ctl.pc = .ok (e, l) → slotIndex w.ctl.pc = some n → isLitSlot l n = false →
    let x : Wave := { enterLine w l with ctl := { (enterLine w l).ctl with fresh := false, needTgt := false } }
    let u := putWave (cacheLine f w.core e w.ctl.pc l) x
    (entryBad f w l n = false → arrivedBad w l n = false →
      decode (slotWord l n) (if (slotWord l n).getLsbD 59 then some (slotWord l (n + 1)) else none) = some i →
      step s = mapNext (Sys2Proof.Machine.exec i { u with cur := .wave w.id }) (fun y => noteReady t (afterTurn y w.id)))
    ∧ (entryBad f w l n = false → arrivedBad w l n = false →
      decode (slotWord l n) (if (slotWord l n).getLsbD 59 then some (slotWord l (n + 1)) else none) = none →
      step s = .next (noteReady t (afterTurn (illegalWord u x (slotWord l n)) w.id)))
    ∧ (entryBad f w l n = true ∨ arrivedBad w l n = true →
      step s = .next (noteReady t (afterTurn (fetchStop (cacheLine f w.core e w.ctl.pc l) w (.trap 0x03 w.ctl.pc)) w.id))))
  ∧ (∀ (s : State) (w : Wave) (pc : W64) (e : TlbEntry), aperOf pc = .global →
    translate s (getCtx s w.ctx).asid (getCtx s w.ctx).ptroot pc.toNat false = .leaf e → leafAper e.leaf.toNat = 0 → leafX e.leaf.toNat = true →
    (∀ x, icacheFind s w.core e.asid (lineAddr pc) = some x → parityOk x.bytes = true → lineOk x.bytes = true → peekLine s w pc = .ok (e, x.bytes))
    ∧ ((∀ x, icacheFind s w.core e.asid (lineAddr pc) = some x → parityOk x.bytes = false) → lineOk (memGets s.hbm (frameAddr e (lineAddr pc).toNat) 64) = true →
      peekLine s w pc = .ok (e, memGets s.hbm (frameAddr e (lineAddr pc).toNat) 64)))
  ∧ (∀ (s : State) (r : List Turn) (w : Wave) (e : TlbEntry) (l : List Byte) (n : Nat) (i : Instr), s.agenda = .slice w.id :: r →
    let t : State := { s with agenda := r }
    let f := refetchAt t w w.slice.pc
    findWave t w.id = some w → w.slice.stopped = false → w.ctl.st ≠ .killed → w.ctl.st ≠ .retired → w.ctl.st ≠ .preempted →
    pastAccess t w w.slice.pc = false → w.slice.skip = none →
    peekLine f w w.slice.pc = .ok (e, l) → slotIndex w.slice.pc = some n → slotIns l n = some i →
    step s = mapNext (Sys2Proof.Machine.exec i { cacheLine f w.core e w.slice.pc l with cur := .slice w.id })
      (fun x => noteReady t { x with cur := .none }))
  ∧ (∀ (s : State) (r : List Turn) (i : Instr), s.agenda = .event i :: r →
    step s = mapNext (Sys2Proof.Machine.exec i { s with agenda := r, cur := .none }) (noteReady { s with agenda := r }))

/-- Every step keeps every memory of the device in its canonical form (log 1). -/
def Obligations.StepKeepsMemories : Prop := ∀ s t : State, s.memOk → step s = .next t → t.memOk

/-- The reset state has its memories in canonical form, and the registers of which the spec gives the reset value at that value (R94, R256, R273,
R281, R287, R309, R312 to R314, R326, R336, R339, R340, R341, R347). -/
def Obligations.ResetState : Prop :=
  State.reset.memOk
  ∧ (∀ q, q < 64 → getQueue State.reset q = { base := 0, en := false, prio := 0, log2n := 0, widx := 0, ridx := 0, err := false, code := 0, held := none, deps := [], seen := [] })
  ∧ (∀ d, d < 4 → (getBindery State.reset d).full = false ∧ (getBindery State.reset d).batch = none)
  ∧ (State.reset.hiTemp = 105 ∧ State.reset.loTemp = 95 ∧ State.reset.govEn = false ∧ State.reset.govBudget = 0x20 ∧ State.reset.ctxEnd = 0
    ∧ State.reset.cxltBase = 0 ∧ State.reset.cxltSize = 0)
  ∧ (State.reset.fab.joined = false ∧ State.reset.fab.id = 0 ∧ State.reset.fab.inc = 0 ∧ State.reset.fab.en = false ∧ State.reset.fab.tmo = 10
    ∧ State.reset.fab.rto = 20 ∧ State.reset.fab.skew = 8 ∧ State.reset.fab.stale = 0 ∧ (∀ a, classOf State.reset a = 1)
    ∧ (∀ n, assoc State.reset.fab.peers n (0, 0) = (0, 0)))
  ∧ State.reset.net.port = 48640
  ∧ (State.reset.rel.errThresh = 16 ∧ State.reset.rel.ceVec = 0 ∧ State.reset.rel.mcVec = 0 ∧ State.reset.rel.latVec = 0 ∧ State.reset.rel.alVec = 0
    ∧ State.reset.rel.req = false ∧ State.reset.rel.wdgEn = true ∧ State.reset.rel.wdgTmo = 100 ∧ State.reset.rel.seq = 0
    ∧ State.reset.rel.badSum = false ∧ State.reset.rel.commit = 0 ∧ State.reset.rel.alarm = 0 ∧ State.reset.rel.lock = false
    ∧ State.reset.rel.erase = false ∧ State.reset.rel.pwr = 0 ∧ (∀ n, assoc State.reset.rel.parts n (true, 0) = (true, 0))
    ∧ (∀ b, (getBank State.reset b).valid = false))

/-! ### Memory and latches -/

/-- R69, R71, R304: the performance of a load changes no byte of any memory. That of a store whose addresses lie outside the global aperture changes
no byte but those of its elements. An element stored through a page changes no byte but its own and those of a leaf whose DIRTY it sets; through
a leaf that is DIRTY already, or outside the global aperture, the bytes stored to local HBM, in its canonical form, are the data's, lowest first. -/
def Obligations.StoreFrame : Prop :=
  (∀ (s : State) (core : Nat) (c : Ctx) (a : Access) (sp : Space), a.kind = .load → getMem (perform s core c a false).1 sp = getMem s sp)
  ∧ (∀ (s : State) (core : Nat) (c : Ctx) (a : Access) (sp : Space) (o : Nat), a.kind = .store → (∀ e ∈ a.elems, aperOf e.addr ≠ .global) →
    o ∉ storedIn s core a false sp → readByte (perform s core c a false).1 sp o = readByte s sp o)
  ∧ (∀ (s : State) (core : Nat) (c : Ctx) (t : Ty) (e : Elem) (sp : Space) (o : Nat),
    let x := (doElem s core c .store t e sp o).1
    let clean := aperOf e.addr ≠ .global ∨ ∃ f, translate (writeBytes (cacheAt s c e.addr) sp o (natToBytes (tySize t) e.data.toNat))
      c.asid c.ptroot e.addr.toNat true = .leaf f ∧ leafDirty f.leaf.toNat = true
    (∀ sp2 o2, (sp2 = sp → o2 < o ∨ o + tySize t ≤ o2) → clean ∨ sp2 ≠ .hbm → readByte x sp2 o2 = readByte s sp2 o2)
    ∧ (∀ f o2, translate (writeBytes (cacheAt s c e.addr) sp o (natToBytes (tySize t) e.data.toNat)) c.asid c.ptroot e.addr.toNat true = .leaf f →
      (sp = .hbm → o2 < o ∨ o + tySize t ≤ o2) → (o2 < f.at_ ∨ f.at_ + 8 ≤ o2) → readByte x .hbm o2 = readByte s .hbm o2)
    ∧ (s.hbm.wf = true → sp = .hbm → forbidden s core sp o = false → clean → ∀ j, j < tySize t →
      readByte x .hbm (o + j) = BitVec.ofNat 8 (e.data.toNat / 2 ^ (8 * j))))

/-- R129: the latch of an instruction holds its destination just after it, or, under NWB, its whole result, with zero in the lanes outside act; it is
the first of the latches that later instructions of the line read. It does so for every instruction with a result in a scalar, mask or vector
register that changes its own wave alone, and for the counts of DRAIN and the status of SRD. A latch read in a line without CHAIN, or of an instruction that does not stand
in the line, raises 0x04, and one of an instruction without a register result 0x01. -/
def Obligations.LatchTakesResult : Prop :=
  (∀ (s : State) (w v : Wave) (g : GenW) (n : BitVec 6), Issues s w v (.sadd g) → g.dst = .s n →
    let w' := tyWidth g.hdr.typ
    let a := src s v g g.a
    let b := src s v g g.b
    let r := narrow g.hdr.typ g.sat (ival g.hdr.typ a + ival g.hdr.typ b)
    let x := withCC (wroteS g.hdr.nwb v n.toNat (w64 (extTo g.hdr.typ 64 r)))
      (withFlags v.regs.cc (r % 2 ^ w' == 0) (bitAt r (w' - 1)) (decide (2 ^ w' ≤ a % 2 ^ w' + b % 2 ^ w')) (addOverflow w' a b))
    Sys2Proof.Machine.exec (.sadd g) s = .next (spendLatch (.sadd g) (putWave s (stepPast x (.sadd g)
      (.sca (if g.hdr.nwb then w64 (extTo g.hdr.typ 64 r) else sreg x n.toNat))))))
  ∧ (∀ (s : State) (w v : Wave) (g : GenW) (n : BitVec 8), Issues s w v (.vadd g) → g.dst = .v n → tyWidth g.hdr.typ ≠ 64 →
    let row := (actLanes v g).map (fun l => (l, w32 (elemLane (fun g a b _ => narrow g.hdr.typ g.sat (ival g.hdr.typ a + ival g.hdr.typ b)) s v g l)))
    boundsOk g.hdr.nwb (getTeam s v.team) v [(n.toNat, row)] →
    let x := wroteV g.hdr.nwb (getTeam s v.team) v [(n.toNat, row)]
    Sys2Proof.Machine.exec (.vadd g) s = .next (spendLatch (.vadd g) (putWave s (stepPast x (.vadd g)
      (.vec [if g.hdr.nwb then putElems (List.replicate v.width 0) row else (x.regs.v[n.toNat]?).getD []])))))
  ∧ (∀ k ∈ [Instr.sadd, .ssub, .smul, .smulh, .smad, .sdiv, .srem, .sand, .sor, .sxor, .sshl, .sshr, .smin, .smax, .sbfe, .sbfi, .sclz, .spopc, .smov,
      .sli, .ssel, .kget, .kpopc, .kfirst, .kpoll, .vred, .vvote], LatchScalar k)
  ∧ (∀ k ∈ [Instr.kand, .kor, .kxor, .kandn, .kmov, .kset, .elect, .vcmp, .vfcmp], LatchMask k)
  ∧ (∀ k ∈ [Instr.vmov, .vadd, .vsub, .vmul, .vmulh, .vmad, .vand, .vor, .vxor, .vshl, .vshr, .vmin, .vmax, .vabs, .vclz, .vpopc, .vbfe, .vbfi, .vsel,
      .vdp4, .vfadd, .vfsub, .vfmul, .vfma, .vdiv, .vfmin, .vfmax, .vfclass, .vrcp, .vrsq, .vsqrt, .vexp2, .vlog2, .vfrnd, .vcvt, .vpack, .vunpk, .vshuf,
      .vxsh, .vbcast, .vsca, .vscan, .vcomp, .vexpd, .vrand], LatchVector k)
  ∧ (∀ (s : State) (w v : Wave) (g : GenW) (x : W64), Issues s w v (.srd g) → g.hdr.nwb = true →
    srdValue (putWave s v) v (srdSel g) (scalarOp s v g.hdr.lit g.b) = some x →
    Sys2Proof.Machine.exec (.srd g) s = .next (spendLatch (.srd g) (putWave s (stepPast v (.srd g) (.sca x)))))
  ∧ (∀ (s : State) (w v : Wave) (g : GenW) (d f a : Nat), Issues s w v (.drain g) → g.hdr.nwb = true → v.ctl.wait = .drain [] d f a →
    Sys2Proof.Machine.exec (.drain g) s = .next (spendLatch (.drain g) (putWave s (stepPast v (.drain g)
      (.sca (w64 (min f 65535 * 2 ^ 32 + min a 65535 * 2 ^ 16 + min d 65535)))))))
  ∧ (∀ (x : Wave) (i : Instr) (l : Latch), takesBack x i = false → x.ctl.recipe = none → (stepPast x i l).ctl.latches = (l :: x.ctl.latches).take 3)
  ∧ (∀ (w : Wave) (i : Instr) (d : Nat), d ∈ xRegs i →
    (w.ctl.chain = false → latchFault w i = some 0x04)
    ∧ (w.ctl.latches.length < d → latchFault w i = some 0x04)
    ∧ (w.ctl.chain = true → (∀ e ∈ xRegs i, e ≤ w.ctl.latches.length) → w.ctl.latches[d - 1]? = some .nothing → latchFault w i = some 0x01))

/-! ### Results of the scalar and mask groups -/

/-- R164, R168, R169: addition, subtraction, products, quotients, logic, shifts, extremes, counts and bit fields of the scalar group. Counts are
never sign-extended. -/
def Obligations.ScalarResultsComplete : Prop :=
  ScalarRule .sadd (fun g cc a b _ =>
    let n := tyWidth g.hdr.typ
    let r := narrow g.hdr.typ g.sat (ival g.hdr.typ a + ival g.hdr.typ b)
    (r, withFlags cc (r % 2 ^ n == 0) (bitAt r (n - 1)) (decide (2 ^ n ≤ a % 2 ^ n + b % 2 ^ n)) (addOverflow n a b)))
  ∧ ScalarRule .ssub (fun g cc a b _ =>
    let n := tyWidth g.hdr.typ
    let r := narrow g.hdr.typ g.sat (ival g.hdr.typ a - ival g.hdr.typ b)
    (r, withFlags cc (r % 2 ^ n == 0) (bitAt r (n - 1)) (decide (a % 2 ^ n < b % 2 ^ n)) (subOverflow n a b)))
  ∧ ScalarRule .smul (fun g cc a b _ =>
    let x := mval g.hdr.typ a * mval g.hdr.typ b
    zn g.hdr.typ cc (narrow g.hdr.typ g.sat x) (mulOverflow g.hdr.typ x))
  ∧ ScalarRule .smulh (fun g cc a b _ => zn g.hdr.typ cc (mulHigh g.hdr.typ a b) false)
  ∧ ScalarRule .smad (fun g cc a b c =>
    let x := mval g.hdr.typ a * mval g.hdr.typ b + mval g.hdr.typ c
    zn g.hdr.typ cc (narrow g.hdr.typ g.sat x) (mulOverflow g.hdr.typ x))
  ∧ ScalarRule .sdiv (fun g cc a b _ => zn g.hdr.typ cc (divRem g.hdr.typ a b).1 (divRem g.hdr.typ a b).2.2)
  ∧ ScalarRule .srem (fun g cc a b _ => zn g.hdr.typ cc (divRem g.hdr.typ a b).2.1 (divRem g.hdr.typ a b).2.2)
  ∧ ScalarRule .sand (fun g cc a b _ => zn g.hdr.typ cc ((a &&& b) % 2 ^ tyWidth g.hdr.typ) false)
  ∧ ScalarRule .sor (fun g cc a b _ => zn g.hdr.typ cc ((a ||| b) % 2 ^ tyWidth g.hdr.typ) false)
  ∧ ScalarRule .sxor (fun g cc a b _ => zn g.hdr.typ cc ((a ^^^ b) % 2 ^ tyWidth g.hdr.typ) false)
  ∧ ScalarRule .sshl (fun g cc a b _ => zn g.hdr.typ cc (if tyWidth g.hdr.typ ≤ b then 0 else a * 2 ^ b % 2 ^ tyWidth g.hdr.typ) false)
  ∧ ScalarRule .sshr (fun g cc a b _ => zn g.hdr.typ cc (shiftRight g.hdr.typ a b) false)
  ∧ ScalarRule .smin (fun g cc a b _ =>
    zn g.hdr.typ cc ((if ival g.hdr.typ a < ival g.hdr.typ b then a else b) % 2 ^ tyWidth g.hdr.typ) false)
  ∧ ScalarRule .smax (fun g cc a b _ =>
    zn g.hdr.typ cc ((if ival g.hdr.typ a < ival g.hdr.typ b then b else a) % 2 ^ tyWidth g.hdr.typ) false)
  ∧ ScalarRule .sbfe (fun g cc a b _ => zn g.hdr.typ cc (fieldGet g.hdr.typ a b) false)
  ∧ ScalarRule .sbfi (fun g cc a b c => zn g.hdr.typ cc (fieldPut g.hdr.typ a b c) false)
  ∧ CountRule .sclz (fun g a => leadingZeros (tyWidth g.hdr.typ) a)
  ∧ CountRule .spopc (fun g a => popcount (tyWidth g.hdr.typ) a)

/-- R165, R166, R167: moves, compares and selection of the scalar group. SMOV to %cc replaces its flags. That it leaves
%cc alone under NWB, the latch alone taking the value (R129), is the model's choice (log 33, DEDUCED: %cc counts as the destination). -/
def Obligations.ScalarMoveCompareCompletes : Prop :=
  (∀ (s : State) (w v : Wave) (g : GenW), Issues s w v (.smov g) → g.dst ≠ .sp .cc →
    let a := src s v g g.a
    Does s (.smov g) (withCC (wroteS g.hdr.nwb v (sNum g.dst) (w64 (extTo g.hdr.typ 64 (a % 2 ^ tyWidth g.hdr.typ))))
      (zn g.hdr.typ v.regs.cc a false).2))
  ∧ (∀ (s : State) (w v : Wave) (g : GenW), Issues s w v (.smov g) → g.dst = .sp .cc →
    Does s (.smov g) (if g.hdr.nwb then v else withCC v (w32 (src s v g g.a) &&& 0x3F)))
  ∧ (∀ (s : State) (w v : Wave) (g : GenW), Issues s w v (.sli g) →
    Does s (.sli g) (wroteS g.hdr.nwb v (sNum g.dst) (scalarOp s v g.hdr.lit g.a)))
  ∧ (∀ (s : State) (w v : Wave) (g : GenW), Issues s w v (.ssel g) →
    let yes : Bool := match guardOf g.opx.toNat with | some c => guardHolds c v.regs.cc | none => false
    Does s (.ssel g) (wroteS g.hdr.nwb v (sNum g.dst) (w64 (extTo g.hdr.typ 64 (src s v g (if yes then g.a else g.b))))))
  ∧ (∀ (s : State) (w v : Wave) (g : GenW), Issues s w v (.scmp g) →
    let n := tyWidth g.hdr.typ
    let a := src s v g g.a
    let b := src s v g g.b
    let r := wrapI ((a : Int) - b) n
    Does s (.scmp g) (withCC v (withFlags v.regs.cc (r % 2 ^ n == 0) (bitAt r (n - 1)) (decide (a % 2 ^ n < b % 2 ^ n)) (subOverflow n a b))))
  ∧ (∀ (s : State) (w v : Wave) (g : GenW), Issues s w v (.stst g) →
    Does s (.stst g) (withCC v (zn g.hdr.typ v.regs.cc ((src s v g g.a &&& src s v g g.b) % 2 ^ tyWidth g.hdr.typ) false).2))

/-- R170 to R173, R255, R261: the mask group, KPOLL and ELECT. -/
def Obligations.MaskGroupCompletes : Prop :=
  MaskRule .kand (fun _ v g => maskOpd v g.a &&& maskOpd v g.b)
  ∧ MaskRule .kor (fun _ v g => maskOpd v g.a ||| maskOpd v g.b)
  ∧ MaskRule .kxor (fun _ v g => maskOpd v g.a ^^^ maskOpd v g.b)
  ∧ MaskRule .kandn (fun _ v g => maskOpd v g.a &&& ~~~ maskOpd v g.b)
  ∧ MaskRule .kmov (fun _ v g => maskOpd v g.a)
  ∧ MaskRule .kset (fun s v g =>
    if g.opx = 0 then
      (kreg v (kNum g.dst) &&& ~~~ (BitVec.ofNat 1024 ((2 ^ 32 - 1) * 2 ^ (32 * (src s v g g.b % 32)))))
        ||| BitVec.ofNat 1024 (src s v g g.a % 2 ^ 32 * 2 ^ (32 * (src s v g g.b % 32)))
    else maskBelow (min (src s v g g.b) v.width) &&& ~~~ maskBelow (min (src s v g g.a) v.width))
  ∧ MaskRule .elect (fun _ v g => match firstLane (actOf v g.hdr.msk) v.width with | some i => oneLane i | none => 0)
  ∧ MaskScalarRule .kget (fun s v g =>
    let x := bits (maskOpd v g.a).toNat (32 * (src s v g g.b % 32)) 32
    (x, x == 0))
  ∧ MaskScalarRule .kpopc (fun _ v g => (maskCount (maskOpd v g.a), maskOpd v g.a == 0))
  ∧ MaskScalarRule .kfirst (fun _ v g =>
    (match firstLane (maskOpd v g.a) v.width with | some i => i | none => 2 ^ 64 - 1, maskOpd v g.a == 0))
  ∧ MaskScalarRule .kpoll (fun s v g =>
    let id := if g.a = .imm 0 then v.scope else scalarOp s v g.hdr.lit g.a
    let st := match findScope (getCtx s v.ctx) id with | some r => if r.cancelled then 1 else 0 | none => 2
    (st, st == 0))

/-! ### Results of the vector groups -/

/-- R178 to R184: the vector integer group, element by element. -/
def Obligations.VectorIntegerCompletes : Prop :=
  ElemRule .vmov (fun _ a _ _ => a)
  ∧ ElemRule .vadd (fun g a b _ => narrow g.hdr.typ g.sat (ival g.hdr.typ a + ival g.hdr.typ b))
  ∧ ElemRule .vsub (fun g a b _ => narrow g.hdr.typ g.sat (ival g.hdr.typ a - ival g.hdr.typ b))
  ∧ ElemRule .vmul (fun g a b _ => narrow g.hdr.typ g.sat (ival g.hdr.typ a * ival g.hdr.typ b))
  ∧ ElemRule .vmulh (fun g a b _ => mulHigh g.hdr.typ a b)
  ∧ ElemRule .vmad (fun g a b c => narrow g.hdr.typ g.sat (ival g.hdr.typ a * ival g.hdr.typ b + ival g.hdr.typ c))
  ∧ ElemRule .vand (fun _ a b _ => a &&& b)
  ∧ ElemRule .vor (fun _ a b _ => a ||| b)
  ∧ ElemRule .vxor (fun _ a b _ => a ^^^ b)
  ∧ LaneRule .vshl (fun s v g l => eachElem g.hdr.typ (fun j =>
    shiftLeft (tyWidth g.hdr.typ) (subElem (tyWidth g.hdr.typ) (vword s v g g.a l) j) (laneWord s v g.hdr.lit .b32 g.b l)))
  ∧ LaneRule .vshr (fun s v g l => eachElem g.hdr.typ (fun j =>
    shiftRight g.hdr.typ (subElem (tyWidth g.hdr.typ) (vword s v g g.a l) j) (laneWord s v g.hdr.lit .b32 g.b l)))
  ∧ ElemRule .vmin (fun g a b _ => (if ival g.hdr.typ a < ival g.hdr.typ b then a else b) % 2 ^ tyWidth g.hdr.typ)
  ∧ ElemRule .vmax (fun g a b _ => (if ival g.hdr.typ a < ival g.hdr.typ b then b else a) % 2 ^ tyWidth g.hdr.typ)
  ∧ ElemRule .vabs (fun g a _ _ => narrow g.hdr.typ g.sat ((ival g.hdr.typ a).natAbs : Nat))
  ∧ ElemRule .vclz (fun g a _ _ => leadingZeros (tyWidth g.hdr.typ) a)
  ∧ ElemRule .vpopc (fun g a _ _ => popcount (tyWidth g.hdr.typ) a)
  ∧ ElemRule .vbfe (fun g a b _ => fieldGet g.hdr.typ a b)
  ∧ ElemRule .vbfi (fun g a b c => fieldPut g.hdr.typ a b c)
  ∧ LaneRule .vsel (fun s v g l => vword s v g (if (maskOpd v g.c).getLsbD l then g.a else g.b) l)
  ∧ CompareRule .vcmp (fun g a b => intPred g.hdr.typ (g.opx.toNat % 8) a b)
  ∧ (∀ (s : State) (w v : Wave) (g : GenW), Issues s w v (.vdp4 g) →
    let sum (l : Nat) : Int := signed (laneWord s v g.hdr.lit .i32 g.c l) 32
      + ival g.hdr.typ (subElem 8 (laneWord s v g.hdr.lit g.hdr.typ g.a l) 0) * ival g.ty2 (subElem 8 (laneWord s v g.hdr.lit g.ty2 g.b l) 0)
      + ival g.hdr.typ (subElem 8 (laneWord s v g.hdr.lit g.hdr.typ g.a l) 1) * ival g.ty2 (subElem 8 (laneWord s v g.hdr.lit g.ty2 g.b l) 1)
      + ival g.hdr.typ (subElem 8 (laneWord s v g.hdr.lit g.hdr.typ g.a l) 2) * ival g.ty2 (subElem 8 (laneWord s v g.hdr.lit g.ty2 g.b l) 2)
      + ival g.hdr.typ (subElem 8 (laneWord s v g.hdr.lit g.hdr.typ g.a l) 3) * ival g.ty2 (subElem 8 (laneWord s v g.hdr.lit g.ty2 g.b l) 3)
    let ws := [(vNum g.dst, (actLanes v g).map (fun l => (l, w32 (narrow .i32 g.sat (sum l)))))]
    boundsOk g.hdr.nwb (getTeam s v.team) v ws → Does s (.vdp4 g) (wroteV g.hdr.nwb (getTeam s v.team) v ws))

/-- R185 to R193: the vector float group, element by element: each exact result rounded once under RM (R107); and its conversions, which write
one sub-element, two, or a register pair, from sources of a float type after NEG and ABS (R176). -/
def Obligations.VectorFloatCompletes : Prop :=
  ElemRule .vfadd (fun g a b _ => roundTo (fmtOf g.hdr.typ) g.rm (fadd g.rm (felem g 0 a) (felem g 1 b)))
  ∧ ElemRule .vfsub (fun g a b _ => roundTo (fmtOf g.hdr.typ) g.rm (fadd g.rm (felem g 0 a) (fneg (felem g 1 b))))
  ∧ ElemRule .vfmul (fun g a b _ => roundTo (fmtOf g.hdr.typ) g.rm (fmul (felem g 0 a) (felem g 1 b)))
  ∧ ElemRule .vfma (fun g a b c => roundTo (fmtOf g.hdr.typ) g.rm (ffma g.rm (felem g 0 a) (felem g 1 b) (felem g 2 c)))
  ∧ ElemRule .vdiv (fun g a b _ => fdivTo (fmtOf g.hdr.typ) g.rm (felem g 0 a) (felem g 1 b))
  ∧ ElemRule .vfmin (fun g a b _ => roundTo (fmtOf g.hdr.typ) .rn (fminmax false (felem g 0 a) (felem g 1 b)))
  ∧ ElemRule .vfmax (fun g a b _ => roundTo (fmtOf g.hdr.typ) .rn (fminmax true (felem g 0 a) (felem g 1 b)))
  ∧ ElemRule .vfclass (fun g a _ _ => fclass (fmtOf g.hdr.typ) a)
  ∧ ElemRule .vrcp (fun g a _ _ => frcpTo (fmtOf g.hdr.typ) g.rm (felem g 0 a))
  ∧ ElemRule .vrsq (fun g a _ _ => frsqTo (fmtOf g.hdr.typ) g.rm (felem g 0 a))
  ∧ ElemRule .vsqrt (fun g a _ _ => fsqrtTo (fmtOf g.hdr.typ) g.rm (felem g 0 a))
  ∧ ElemRule .vexp2 (fun g a _ _ => fexp2To (fmtOf g.hdr.typ) g.rm (felem g 0 a))
  ∧ ElemRule .vlog2 (fun g a _ _ => flog2To (fmtOf g.hdr.typ) g.rm (felem g 0 a))
  ∧ ElemRule .vfrnd (fun g a _ _ => frndTo (fmtOf g.hdr.typ) g.rm (felem g 0 a))
  ∧ CompareRule .vfcmp (fun g a b => floatPred g (g.opx.toNat % 8) a b)
  ∧ LaneRule .vcvt (fun s v g l =>
    let x := cvtTo g.hdr.typ g.rm g.nan (cvtSrc g 0 (subElem (tyWidth g.ty2) (laneWord s v g.hdr.lit g.ty2 g.a l) (g.opx.toNat % 4)))
    if 32 ≤ tyWidth g.hdr.typ then x else putElem (tyWidth g.hdr.typ) (vreg v (vNum g.dst) l).toNat (g.opx.toNat / 4 % 4) x)
  ∧ (∀ (s : State) (w v : Wave) (g : GenW), Issues s w v (.vpack g) →
    let n := tyWidth g.hdr.typ
    let h := if n = 8 then 2 * (g.opx.toNat % 2) else 0
    let cv (k : Nat) (o : Operand) (l : Nat) : Nat := cvtTo g.hdr.typ g.rm g.nan (cvtSrc g k (laneWord s v g.hdr.lit g.ty2 o l % 2 ^ 32))
    let ws := [(vNum g.dst, (actLanes v g).map (fun l =>
      (l, w32 (putElem n (putElem n (vreg v (vNum g.dst) l).toNat h (cv 0 g.a l)) (h + 1) (cv 1 g.b l)))))]
    boundsOk g.hdr.nwb (getTeam s v.team) v ws → Does s (.vpack g) (wroteV g.hdr.nwb (getTeam s v.team) v ws))
  ∧ (∀ (s : State) (w v : Wave) (g : GenW), Issues s w v (.vunpk g) →
    let n := tyWidth g.ty2
    let lo := if n = 8 then 2 * (g.opx.toNat % 2) else 0
    let cv (j l : Nat) : W32 := w32 (cvtTo g.hdr.typ g.rm false (cvtSrc g 0 (subElem n (laneWord s v g.hdr.lit g.ty2 g.a l) j)))
    let ws := [(vNum g.dst, (actLanes v g).map (fun l => (l, cv lo l))), (vNum g.dst + 1, (actLanes v g).map (fun l => (l, cv (lo + 1) l)))]
    boundsOk g.hdr.nwb (getTeam s v.team) v ws → Does s (.vunpk g) (wroteV g.hdr.nwb (getTeam s v.team) v ws))

/-- R40, R195 to R206: reads across lanes, of which a dead lane reads as zero and sets D, and one that reads poison dies; reductions, scans,
compaction and its inverse, votes and the generator. The model's choices here: the canonical NaN for a NaN that VRED and VSCAN find (log 12, DEDUCED),
and VSCA with B = %lane taken as a vector (log 18, DEDUCED). -/
def Obligations.CrossLaneCompletes : Prop :=
  ShuffleRule .vshuf (fun s v g l => some (laneWord s v g.hdr.lit .b32 g.b l))
  ∧ ShuffleRule .vxsh (fun s v g l =>
    let d := src s v g g.b
    match g.opx.toNat with
    | 0 => some (l ^^^ d)
    | 1 => if l < d then none else some (l - d)
    | _ => some (l + d))
  ∧ ShuffleRule .vbcast (fun s v g _ => some (src s v g g.b))
  ∧ LaneFlagRule .vsca (fun s v g l =>
      let vecB := isVec g.b || g.b == .sp .lane
      let bw (x : Nat) : Nat := laneWord s v g.hdr.lit .f32 g.b x
      let sc := fval (fmtOf .f32) (signMod g 1 (fmtOf .f32) (if vecB then crossRead v bw (l / 2 ^ g.opx.toNat) else bw l))
      eachElem g.hdr.typ (fun j => roundTo (fmtOf g.hdr.typ) g.rm (ffma g.rm
        (felem g 0 (subElem (tyWidth g.hdr.typ) (vword s v g g.a l) j)) sc (felem g 2 (subElem (tyWidth g.hdr.typ) (vword s v g g.c l) j)))))
    (fun _ v g => setD v.regs.cc ((isVec g.b || g.b == .sp .lane) && (actLanes v g).any (fun l => crossDead v (l / 2 ^ g.opx.toNat))))
    (fun v g => consumers v g g.b 1 (fun l => some (l / 2 ^ g.opx.toNat)))
  ∧ (∀ (s : State) (w v : Wave) (g : GenW), Issues s w v (.vred g) →
    let l := redList s v g
    Does s (.vred g) (wroteS g.hdr.nwb v (sNum g.dst) (w64 (extTo g.hdr.typ 64 (canonNan g.hdr.typ ((l[l.length - 1]?).getD 0))))))
  ∧ LaneRule .vscan (fun s v g l => canonNan g.hdr.typ (
      if bitAt g.opx.toNat 3 then (if l = 0 then redIdent g.hdr.typ (g.opx.toNat % 8) else ((redList s v g)[l - 1]?).getD 0)
      else ((redList s v g)[l]?).getD 0))
  ∧ (∀ (s : State) (w v : Wave) (g : GenW), Issues s w v (.vcomp g) →
    let sel := lanes (maskOpd v g.b &&& kreg v 0 &&& ~~~ v.regs.dead) v.width
    let dst := actLanes v g
    let cnt := min sel.length dst.length
    let ws := laneWrites (vNum g.dst) g.hdr.typ ((List.range dst.length).map (fun r =>
      ((dst[r]?).getD 0, if r < cnt then vword s v g g.a ((sel[r]?).getD 0) else 0)))
    boundsOk g.hdr.nwb (getTeam s v.team) v ws →
    let x := wroteV g.hdr.nwb (getTeam s v.team) v ws
    Does s (.vcomp g) (withCC (setS x (sNum g.c) (w64 cnt))
      (mergeCC x.regs.cc (withFlags v.regs.cc (cnt == 0) false false (decide (dst.length < sel.length))))))
  ∧ LaneRule .vexpd (fun s v g l =>
    let sel := maskOpd v g.b &&& actOf v g.hdr.msk
    if sel.getLsbD l then vword s v g g.a (((actLanes v g)[(lanes sel l).length]?).getD 0) else 0)
  ∧ (∀ (s : State) (w v : Wave) (g : GenW), Issues s w v (.vvote g) →
    let xs := (actLanes v g).map (fun l => vword s v g g.a l)
    let r : Bool := match g.opx.toNat with
      | 0 => xs.any (· != 0)
      | 1 => xs.all (· != 0)
      | _ => match xs with | [] => true | x :: r => r.all (· == x)
    Does s (.vvote g) (withCC (wroteS g.hdr.nwb v (sNum g.dst) (if r then 1 else 0)) (withFlags v.regs.cc (!r) false false false)))
  ∧ (∀ (s : State) (w v : Wave) (g : GenW), Issues s w v (.vrand g) →
    let ws := [(vNum g.dst, (actLanes v g).map (fun l => (l, randOf v.regs.key v.regs.ctr v.width l)))]
    let v1 := { v with regs := { v.regs with ctr := v.regs.ctr + 1 } }
    boundsOk g.hdr.nwb (getTeam s v.team) v1 ws → Does s (.vrand g) (wroteV g.hdr.nwb (getTeam s v.team) v1 ws))
  ∧ (∀ (s : State) (w v : Wave) (g : GenW), Issues s w v (.vrseed g) →
    Does s (.vrseed g) { v with regs := { v.regs with key := scalarOp s v g.hdr.lit g.a, ctr := scalarOp s v g.hdr.lit g.b } })

/-- R201: VAPND adds the number of selected lanes to a counter in a shelf, gives the lanes consecutive numbers from its old value, and
writes that value to C; with no lane selected it makes no access. -/
def Obligations.VapndCompletes : Prop :=
  (∀ (s : State) (w v : Wave) (g : GenW), Issues s w v (.vapnd g) → lanes (maskOpd v g.b &&& actOf v g.hdr.msk) v.width = [] →
    let ws : List (Nat × List (Nat × W32)) := [(vNum g.dst, [])]
    let x := wroteV g.hdr.nwb (getTeam s v.team) v ws
    Does s (.vapnd g) (withCC (setS x (sNum g.c) 0) (mergeCC x.regs.cc (withFlags v.regs.cc true false false false))))
  ∧ (∀ (s : State) (w v : Wave) (g : GenW) (team o : Nat), Issues s w v (.vapnd g) →
    let sel := lanes (maskOpd v g.b &&& actOf v g.hdr.msk) v.width
    let a := scalarOp s v g.hdr.lit g.a
    let sp := Space.shelf team
    let base := readNat s sp o 4
    let ws := [(vNum g.dst, (List.range sel.length).map (fun r => ((sel[r]?).getD 0, w32 ((base + r) % 2 ^ 32))))]
    let p := putWave s v
    let acc : Access := { apndAccess a sel.length with elems := (apndAccess a sel.length).elems.map (fun e => { e with site := .loc sp o }) }
    sel ≠ [] → resolve p v (.atom .add) .raw 4 a = .ok (.loc sp o) → locksDamaged s = false →
    holdsBack p v (oneAccess (.atom .add) .relaxed a (.loc sp o)) = false → holdsBack p v acc = false → isPoison s sp o = false →
    boundsOk g.hdr.nwb (getTeam s v.team) v ws →
    (match aperOf a with | .shelf _ | .cshelf _ _ => True | _ => False) →
    let t := writeBytes s sp o (natToBytes 4 ((base + sel.length) % 2 ^ 32))
    let x := wroteV g.hdr.nwb (getTeam s v.team) v ws
    Makes s (.vapnd g) t (withCC (setS x (sNum g.c) (w64 base)) (mergeCC x.regs.cc (withFlags v.regs.cc false false false false))))

/-- R208, R209: BSET writes a bound register of the team, BMAP binds or unbinds a range of vector registers of the wave. -/
def Obligations.BoundInstructionsComplete : Prop :=
  (∀ (s : State) (w v : Wave) (g : GenW), Issues s w v (.bset g) →
    let lo := boundVal s v g g.a
    let hi := boundVal s v g g.b
    valOf g.hdr.typ lo ≠ .nan → valOf g.hdr.typ hi ≠ .nan → flt (valOf g.hdr.typ hi) (valOf g.hdr.typ lo) = false →
    Makes s (.bset g) (modTeam s v.team (fun x => { x with
      bounds := setAt x.bounds (g.opx.toNat % 16) { fmt := g.hdr.typ, act := tyCode g.ty2, mn := w32 lo, mx := w32 hi } })) v)
  ∧ (∀ (s : State) (w v : Wave) (g : GenW), Issues s w v (.bmap g) →
    let f := vNum g.a
    let n := src s v g g.b
    f + n ≤ 256 →
    Does s (.bmap g) { v with regs := { v.regs with
      bmap := v.regs.bmap.filter (fun p => p.1 < f || f + n ≤ p.1)
        ++ (if bitAt g.opx.toNat 4 then [] else (List.range n).map (fun k => (f + k, g.opx.toNat % 16))) } })

/-! ### The control and system group -/

/-- R134, R146 to R150: a taken branch whose target is legal jumps to it; BKZ and BKNZ test a mask register over the live lanes, BHZ a
tag; one not taken goes on; CALL leaves the next program counter, after a loop end, in DST. A branch that is taken to a target that is no slot,
or a literal slot, or one whose TGT bit is clear raises 0x03 at the branch, with the target as fault address; at a target whose line cannot be fetched
yet, the fetch there meets the check of TGT, which is the model's choice (log 106). -/
def Obligations.BranchesComplete : Prop :=
  (∀ (s : State) (w v : Wave) (b : BrW), Issues s w v (.bra b) → targetOk s v (brTarget v b) true = true →
    Jumps s (.bra b) v (brTarget v b) true)
  ∧ (∀ (s : State) (w v : Wave) (b : BrW), Issues s w v (.bkz b) →
    let live := kreg v b.hdr.msk.toNat &&& kreg v 0 &&& ~~~ v.regs.dead
    (live = 0 → targetOk s v (brTarget v b) true = true → Jumps s (.bkz b) v (brTarget v b) true)
    ∧ (live ≠ 0 → Does s (.bkz b) v))
  ∧ (∀ (s : State) (w v : Wave) (b : BrW), Issues s w v (.bknz b) →
    let live := kreg v b.hdr.msk.toNat &&& kreg v 0 &&& ~~~ v.regs.dead
    (live ≠ 0 → targetOk s v (brTarget v b) true = true → Jumps s (.bknz b) v (brTarget v b) true)
    ∧ (live = 0 → Does s (.bknz b) v))
  ∧ (∀ (s : State) (w v : Wave) (b : BrW), Issues s w v (.bhz b) →
    (tagPassed s v b.hdr.lit b.a = true → targetOk s v (brTarget v b) true = true → Jumps s (.bhz b) v (brTarget v b) true)
    ∧ (tagPassed s v b.hdr.lit b.a = false → Does s (.bhz b) v))
  ∧ (∀ (s : State) (w v : Wave) (b : BrW), Issues s w v (.call b) → targetOk s v (brTarget v b) true = true →
    let e := loopEnds 5 v (nextPc v.ctl.pc false)
    Jumps s (.call b) (wroteS b.hdr.nwb e.1 (sNum b.dst) e.2.1) (brTarget v b) false)
  ∧ (∀ (s : State) (w v : Wave) (g : GenW), Issues s w v (.ret g) → targetOk s v (scalarOp s v g.hdr.lit g.a) true = true →
    Jumps s (.ret g) v (scalarOp s v g.hdr.lit g.a) true)
  ∧ (∀ (s : State) (w v : Wave) (g : GenW), Issues s w v (.jmpi g) → targetOk s v (scalarOp s v g.hdr.lit g.a) true = true →
    Jumps s (.jmpi g) v (scalarOp s v g.hdr.lit g.a) true)
  ∧ (∀ (s : State) (w v : Wave) (b : BrW), Issues s w v (.bra b) → targetOk s v (brTarget v b) true = false →
    Traps s (.bra b) (putWave s v) (unpopped v w) (preciseAt 0x03 (brTarget v b)))
  ∧ (∀ (s : State) (w v : Wave) (b : BrW), targetOk s v (brTarget v b) true = false →
    let live := kreg v b.hdr.msk.toNat &&& kreg v 0 &&& ~~~ v.regs.dead
    (Issues s w v (.bkz b) → live = 0 → Traps s (.bkz b) (putWave s v) (unpopped v w) (preciseAt 0x03 (brTarget v b)))
    ∧ (Issues s w v (.bknz b) → live ≠ 0 → Traps s (.bknz b) (putWave s v) (unpopped v w) (preciseAt 0x03 (brTarget v b)))
    ∧ (Issues s w v (.bhz b) → tagPassed s v b.hdr.lit b.a = true → Traps s (.bhz b) (putWave s v) (unpopped v w) (preciseAt 0x03 (brTarget v b))))
  ∧ (∀ (s : State) (w v : Wave) (b : BrW), Issues s w v (.call b) → targetOk s v (brTarget v b) true = false →
    Traps s (.call b) (putWave s v) (unpopped v w) (preciseAt 0x03 (brTarget v b)))
  ∧ (∀ (s : State) (w v : Wave) (g : GenW), Issues s w v (.jmpi g) → targetOk s v (scalarOp s v g.hdr.lit g.a) true = false →
    Traps s (.jmpi g) (putWave s v) (unpopped v w) (preciseAt 0x03 (scalarOp s v g.hdr.lit g.a)))
  ∧ (∀ (s : State) (w v : Wave) (g : GenW), Issues s w v (.ret g) → targetOk s v (scalarOp s v g.hdr.lit g.a) true = false →
    Traps s (.ret g) (putWave s v) (unpopped v w) (preciseAt 0x03 (scalarOp s v g.hdr.lit g.a)))

/-- R151: LOOP with a count that is not zero pushes an entry and goes on; with a zero count it writes 0 and jumps to the loop's end. A count
of 2^32 or more, an end that is not the first slot of a later line, or a fifth level, raises 0x01. -/
def Obligations.LoopCompletes : Prop :=
  ∀ (s : State) (w v : Wave) (b : BrW), Issues s w v (.loop b) →
    let cnt := scalarOp s v b.hdr.lit b.a
    let stop := brTarget v b
    let fits := cnt.toNat < 2 ^ 32 ∧ 0 < b.offset.toInt ∧ slotIndex stop = some 0 ∧ v.ctl.loops.length < 4
    (fits → targetOk s v stop true = true → cnt ≠ 0 →
      let x := wroteS b.hdr.nwb v (sNum b.dst) cnt
      Does s (.loop b) { x with ctl := { x.ctl with
        loops := { start := nextPc v.ctl.pc (hasLit (.loop b)), stop := stop, reg := sNum b.dst } :: v.ctl.loops } })
    ∧ (fits → targetOk s v stop true = true → cnt = 0 → Jumps s (.loop b) (wroteS b.hdr.nwb v (sNum b.dst) 0) stop false)
    ∧ (¬ fits → Traps s (.loop b) (putWave s v) (unpopped v w) (precise 0x01))

/-- R145, R152, R155 to R157, R162: NOP; ENDP outside handler mode; YIELD; NOPRE and PRE; SWR; SRD, which writes the value of its selector, and for an
index of a barrier above 15 raises 0x01. The model's choices here: SWR under NWB leaves its register alone (log 33, DEDUCED), ENDP marks EXITED in every
barrier that counts the wave (log 67, DEDUCED), and what selector 7 reads (log 38). -/
def Obligations.SimpleControlCompletes : Prop :=
  (∀ (s : State) (w v : Wave) (g : GenW), Issues s w v (.nop g) → Does s (.nop g) v)
  ∧ (∀ (s : State) (w v : Wave) (g : GenW), Issues s w v (.endp g) → v.hz.handler = false →
    Sys2Proof.Machine.exec (.endp g) s = .next (spendLatch (.endp g) (putWave (noteExit s v)
      { v with popped := [], issued := v.issued + 1,
               ctl := { v.ctl with st := .retiring, wait := .idle, nopre := none, only := none, again := false, rest := none } })))
  ∧ (∀ (s : State) (w v : Wave) (g : GenW), Issues s w v (.yield g) → ∃ l,
    let x := stepPast v (.yield g) l
    Sys2Proof.Machine.exec (.yield g) s = .next (spendLatch (.yield g) (putWave s
      (if x.ctl.st = .ready then setSt x .ready (.yielded (yieldTo (putWave s v) v) (s.clk + 64)) else x))))
  ∧ (∀ (s : State) (w v : Wave) (g : GenW), Issues s w v (.nopre g) →
    Does s (.nopre g) { v with ctl := { v.ctl with nopre := some (match v.ctl.nopre with | some t => t | none => s.ns) } })
  ∧ (∀ (s : State) (w v : Wave) (g : GenW), Issues s w v (.pre g) → Does s (.pre g) { v with ctl := { v.ctl with nopre := none } })
  ∧ (∀ (s : State) (w v : Wave) (g : GenW), Issues s w v (.swr g) →
    let x := scalarOp s v g.hdr.lit g.a
    Does s (.swr g) (if g.hdr.nwb then v else match g.dst with
      | .sp .cc => withCC v (x.setWidth 32 &&& 0x3F)
      | .sp .mstall => { v with regs := { v.regs with mstall := x } }
      | .sp .bflag => { v with regs := { v.regs with bflag := x.setWidth 32 &&& 0xFFFF } }
      | .sp .fault => { v with regs := { v.regs with fault := x &&& 0xCFF7FFFFFFFFFFFF } }
      | _ => v))
  ∧ (∀ (s : State) (w v : Wave) (g : GenW), Issues s w v (.srd g) →
    let n := scalarOp s v g.hdr.lit g.b
    (∀ x, srdValue (putWave s v) v (srdSel g) n = some x → Does s (.srd g) (wroteS g.hdr.nwb v (sNum g.dst) x))
    ∧ (srdSel g = 8 → 15 < n.toNat → Traps s (.srd g) (putWave s v) (unpopped v w) (precise 0x01)))

/-- R55, R153, R154: TRAP takes a precise trap of cause 0x20 whose PCDLV and PCOP are the program counter after it, after any loop end; RFT
in handler mode reloads the program counter and the flags from the frame, leaves handler mode, clears %fault and frees the slip of the
delivered failure; outside handler mode it raises 0x01. That an instruction which a trap has interrupted with lanes unfinished executes for those lanes
alone, when the return goes to it, is the model's choice (log 104). -/
def Obligations.TrapAndReturnComplete : Prop :=
  (∀ (s : State) (w v : Wave) (g : GenW), Issues s w v (.trap g) →
    let e := loopEnds 5 v (nextPc v.ctl.pc (hasLit (.trap g)))
    Traps s (.trap g) (putWave s e.1) (unpopped v w) { precise 0x20 with next := some e.2.1 })
  ∧ (∀ (s : State) (w v : Wave) (g : GenW), Issues s w v (.rft g) →
    let pc := w64 (memNat v.stack (0xFFF00 + 8) 8)
    let back (slips : List Slip) (only : Option Mask) : Wave := { v with
      issued := v.issued + 1, regs := { v.regs with cc := w32 (memNat v.stack (0xFFF00 + 0xF0) 4 % 64), fault := 0 },
      hz := { v.hz with handler := false, slips := slips },
      ctl := { v.ctl with pc := pc, st := .ready, wait := .idle, line := none, latches := [], only := only, again := only.isSome, rest := none } }
    let slips := v.hz.slips.filter (fun x => !x.delivered)
    (v.hz.handler = true → targetOk s v pc false = true → v.ctl.stopping = false →
      ((∀ p, v.ctl.rest = some p → p.1 ≠ pc) →
        Sys2Proof.Machine.exec (.rft g) s
          = .next (spendLatch (.rft g) (settleAll (putWave s (back (slips.map (fun x => { x with openPark := false })) none)) v.id)))
      ∧ (∀ m, v.ctl.rest = some (pc, m) →
        Sys2Proof.Machine.exec (.rft g) s = .next (spendLatch (.rft g) (settleAll (putWave s (back slips (some m))) v.id))))
    ∧ (v.hz.handler = false → Traps s (.rft g) (putWave s v) (unpopped v w) (precise 0x01)))

/-- R158 to R161: HALTCTX, DRAIN, TLBINV and REPLAY. HALTCTX writes 1 in a context that is halted, else halts it and, once every other wave of
the context has stopped, writes 0; DRAIN of a context with no engine operation writes 0, and one that has waited writes the counts; TLBINV with no
access to wait for, or none any more, removes what it covers and goes on; REPLAY lets a parked wave that its token names execute again and writes 0,
else writes 1. Each waits while what it waits for is not there. -/
def Obligations.ContextControlCompletes : Prop :=
  (∀ (s : State) (w v : Wave) (g : GenW), Issues s w v (.haltctx g) →
    let t := haltCtx (putWave s v) v.ctx (some v.id)
    (v.ctl.wait ≠ .halting → (getCtx s v.ctx).halted = true → Does s (.haltctx g) (wroteS g.hdr.nwb v (sNum g.dst) 1))
    ∧ (v.ctl.wait ≠ .halting → (getCtx s v.ctx).halted = false → (∃ c ∈ s.ctxs, c.id = v.ctx) →
      (∀ x ∈ s.waves, x.ctx = v.ctx → x.fsw = false → x.id ≠ v.id → x.ctl.st ≠ .slaved) →
      Ends s (.haltctx g) v.id (modWave t v.id (fun x => wroteS g.hdr.nwb x (sNum g.dst) 0)))
    ∧ (v.ctl.wait ≠ .halting → (getCtx s v.ctx).halted = false → allStopped t v.ctx = false → Waits s (.haltctx g) t v.id .halting)
    ∧ (v.ctl.wait = .halting → allStopped (putWave s v) v.ctx = true → Does s (.haltctx g) (wroteS g.hdr.nwb v (sNum g.dst) 0))
    ∧ (v.ctl.wait = .halting → allStopped (putWave s v) v.ctx = false → Waits s (.haltctx g) (putWave s v) v.id .halting))
  ∧ (∀ (s : State) (w v : Wave) (g : GenW), Issues s w v (.drain g) →
    let ids := (s.ops.filter (fun o => o.ctx == v.ctx)).map (·.id)
    ((∀ o ∈ s.ops, o.ctx ≠ v.ctx) → (∀ l d f a, v.ctl.wait ≠ .drain l d f a) → Does s (.drain g) (wroteS g.hdr.nwb v (sNum g.dst) 0))
    ∧ (ids ≠ [] → (∀ l d f a, v.ctl.wait ≠ .drain l d f a) → Waits s (.drain g)
      (if g.opx = 1 then { putWave s v with ops := s.ops.map (fun o => if ids.contains o.id then askAbort .cancel o else o) } else putWave s v)
      v.id (.drain ids 0 0 0))
    ∧ (∀ d f a, v.ctl.wait = .drain [] d f a →
      Does s (.drain g) (wroteS g.hdr.nwb v (sNum g.dst) (w64 (min f 65535 * 2 ^ 32 + min a 65535 * 2 ^ 16 + min d 65535))))
    ∧ (∀ l d f a, l ≠ [] → v.ctl.wait = .drain l d f a → Waits s (.drain g) (putWave s v) v.id (.drain l d f a)))
  ∧ (∀ (s : State) (w v : Wave) (g : GenW), Issues s w v (.tlbinv g) →
    let r := invRange s v g
    let gone : State := { dropAts s (atsGoes s r) with
      tlb := s.tlb.filter (fun e => !covers r e.asid e.base (e.base + 2 ^ e.size)),
      icache := s.icache.filter (fun l => !covers r l.asid l.base (l.base + 2 ^ l.size)) }
    ((∀ a b c d, v.ctl.wait ≠ .tlbinv a b c d) → invWait (putWave s v) r = .tlbinv [] [] [] [] → Makes s (.tlbinv g) gone v)
    ∧ ((∀ a b c d, v.ctl.wait ≠ .tlbinv a b c d) → invWait (putWave s v) r ≠ .tlbinv [] [] [] [] →
      Waits s (.tlbinv g) (putWave gone v) v.id (invWait (putWave s v) r))
    ∧ (∀ a b c d, v.ctl.wait = .tlbinv a b c d → invLeft (putWave s v) a b c d = .tlbinv [] [] [] [] → Does s (.tlbinv g) v)
    ∧ (∀ a b c d, v.ctl.wait = .tlbinv a b c d → invLeft (putWave s v) a b c d ≠ .tlbinv [] [] [] [] →
      Waits s (.tlbinv g) (putWave s v) v.id (invLeft (putWave s v) a b c d)))
  ∧ (∀ (s : State) (w v : Wave) (g : GenW), Issues s w v (.replay g) →
    let p := putWave s v
    let named (x : Wave) : Bool := x.ctx == v.ctx && x.ctl.st == .parked && !killDue p x
      && (match x.ctl.park with | some k => k.token == scalarOp s v g.hdr.lit g.a | none => false)
    ((∀ x ∈ p.waves, named x = false) → Does s (.replay g) (wroteS g.hdr.nwb v (sNum g.dst) 1))
    ∧ (∀ x, p.waves.find? named = some x →
      Ends s (.replay g) v.id (modWave (replayWave p x) v.id (fun y => wroteS g.hdr.nwb y (sNum g.dst) 0))))

/-- R59, R163: MARK with an id of the kernel's .flash table whose entry is well formed records the flashback point: its id, the program
counter after it, the loop stack with its counters, the generator and the pops; an id beyond the table, and an entry that is not well formed (log 103),
raise 0x01. -/
def Obligations.MarkCompletes : Prop :=
  (∀ (s : State) (w v : Wave) (g : GenW) (id : Nat) (l : List Byte), Issues s w v (.mark g) → markId g = some id →
    let k := (getTeam s v.team).kernel
    k.flash ≠ 0 → id < k.flashN → recAt (putWave s v) v (k.flash + w64 (64 * id)) 1 8 = .ok l → flashOk v.regs.cnt l = true →
    let e := loopEnds 5 v (nextPc v.ctl.pc (hasLit (.mark g)))
    let f : Flash := { id := id, pc := e.2.1, loops := e.1.ctl.loops, counters := e.1.ctl.loops.map (fun x => (x.reg, sreg e.1 x.reg)),
                       key := v.regs.key, ctr := v.regs.ctr, pops := v.pops }
    Does s (.mark g) { v with ctl := { v.ctl with flash := some f, idem := enterIdem s v f } })
  ∧ (∀ (s : State) (w v : Wave) (g : GenW) (id : Nat), Issues s w v (.mark g) → markId g = some id →
    ((getTeam s v.team).kernel.flash = 0 ∨ (getTeam s v.team).kernel.flashN ≤ id) →
    Traps s (.mark g) (putWave s v) (unpopped v w) (precise 0x01))
  ∧ (∀ (s : State) (w v : Wave) (g : GenW) (id : Nat) (l : List Byte), Issues s w v (.mark g) → markId g = some id →
    recAt (putWave s v) v ((getTeam s v.team).kernel.flash + w64 (64 * id)) 1 8 = .ok l → flashOk v.regs.cnt l = false →
    Traps s (.mark g) (putWave s v) (unpopped v w) (precise 0x01))

/-! ### Matrix instructions -/

/-- R40, R208, R209, R214, R216, R287: an MMA that passes its checks, with a governor unit free, enters the array queue of its pair with the bindings
and bound registers of its issue; its wave goes on, or, with a trap binding on its destination in either half, waits at it. Lanes that hold poison in
a fragment it reads die. Under a claimed slot its sources stay to be read. -/
def Obligations.MmaCompletes : Prop :=
  ∀ (s : State) (w v t : Wave) (g : GenW), Issues s w v (.mma g) → mmaOk g (putWave s v) v = some t → unitFree s (pairOf v.core) = true →
    let n := g.opx.toNat
    let ch := chainOf s v (.mma g)
    let pm := fragPoison v ([(vNum g.a, fragRegs n 0), (vNum g.b, fragRegs n 1)] ++ (if ch.isSome then [] else [(vNum g.c, fragRegs n 2)]))
    let op : MmaOp :=
      { id := s.nextId, leader := v.id, twin := t.id, pair := pairOf v.core, shape := n, ta := g.hdr.typ, tb := g.ty2, d := vNum g.dst,
        a := vNum g.a, b := vNum g.b, c := vNum g.c, srcA := regRows v (vNum g.a) (fragRegs n 0), srcB := regRows v (vNum g.b) (fragRegs n 1),
        srcC := regRows v (vNum g.c) (fragRegs n 2), dead := v.regs.dead ||| pm, chained := ch.map (·.id),
        inner := (match ch with | some m => if m.left then m.inner else none | none => none), started := true, left := false,
        lazyLeft := g.hdr.dsc != 0, bindsL := v.regs.bmap, bindsT := t.regs.bmap, bounds := (getTeam s v.team).bounds }
    let u := takeUnit { s with mmas := s.mmas ++ [op], nextId := s.nextId + 1 } (pairOf v.core)
    let traps := trapBound s v (vNum g.dst) (fragRegs n 2) = true ∨ trapBound s t (vNum g.dst) (fragRegs n 2) = true
    ∃ z, (g.hdr.dsc = 0 → z = []) ∧ (g.hdr.dsc ≠ 0 → ∃ y, z = [y] ∧ y.slot = g.hdr.dsc.toNat ∧ y.target = .mma s.nextId)
      ∧ (let x : Wave := { v with hz := { v.hz with lazies := v.hz.lazies ++ z } }
         (¬ traps → pm = 0 → Makes s (.mma g) u x)
         ∧ (¬ traps → Finishes s (.mma g) v.id (markDead (putWave u x) v.id pm))
         ∧ (traps → pm = 0 → Waits s (.mma g) (putWave u x) v.id (.mmaCheck s.nextId)))

/-- R40, R208 to R210, R215, R216: MMA_LEAVES_ARRAY gives the first MMA of its pair that has read its sources its result, and an MMA chained
to it that result as C; lanes of the twin that hold poison in what is read die. MMA_RETIRE then writes D in both halves where no lane is out
of a trap binding that stood at issue, and the twin no longer has to wait; where a lane of either half is out of one, neither half is written, and the
leader, which has waited at the MMA, takes 0x07 there with the lanes of both halves. -/
def Obligations.MmaEventsComplete : Prop :=
  (∀ (s : State) (m : MmaOp), s.mmas.find? (fun x => x.id == m.id) = some m → m.left = false → m.lazyLeft = false →
    (∀ x ∈ mmasBefore s m, x.left = true) →
    let s1 := markDead s m.twin (twinPoison s m)
    Sys2Proof.Machine.exec (.mmaLeavesArray m.id) s = .next { s1 with mmas := s1.mmas.map (fun x =>
      if x.id = m.id then { x with left := true, inner := some (mmaResult s1 m) }
      else if x.chained = some m.id then { x with inner := some (mmaResult s1 m) } else x) })
  ∧ (∀ (s : State) (m : MmaOp) (rL rT : List (List W32)) (vL vT : Wave), s.mmas.find? (fun x => x.id == m.id) = some m →
    m.inner = some (rL, rT) → m.left = true → mmasBefore s m = [] → findWave s m.leader = some vL → findWave s m.twin = some vT →
    vL.id ≠ vT.id → (∀ op, vL.ctl.wait ≠ .mmaCheck op) →
    mmaBad s m.leader (m.bindsL, m.bounds) m.d rL = 0 → mmaBad s m.twin (m.bindsT, m.bounds) m.d rT = 0 →
    Sys2Proof.Machine.exec (.mmaRetire m.id) s = .next (releaseTwin (putWave (putWave { s with mmas := s.mmas.filter (fun x => x.id != m.id) }
      (wroteSnap (getTeam s vL.team) vL (m.bindsL, m.bounds) (mmaWrites vL m.d rL)))
      (wroteSnap (getTeam s vT.team) vT (m.bindsT, m.bounds) (mmaWrites vT m.d rT))) m.twin))
  ∧ (∀ (s : State) (m : MmaOp) (rL rT : List (List W32)) (vL : Wave) (i : Instr), s.mmas.find? (fun x => x.id == m.id) = some m →
    m.inner = some (rL, rT) → m.left = true → mmasBefore s m = [] → findWave s m.leader = some vL →
    let s0 : State := { s with mmas := s.mmas.filter (fun x => x.id != m.id) }
    let bad := mmaBad s0 m.leader (m.bindsL, m.bounds) m.d rL ||| (mmaBad s0 m.twin (m.bindsT, m.bounds) m.d rT <<< 128)
    vL.ctl.wait = .mmaCheck m.id → vL.hz.handler = false → insAt s0 vL vL.ctl.pc = some i → bad ≠ 0 →
    Sys2Proof.Machine.exec (.mmaRetire m.id) s = .next (releaseTwin (precisely s0 vL i { precise 0x07 with lanes := bad }) m.twin))

/-- R40, R217, R218: MSCA scales and adds a fragment over the lanes that are not dead; MTRN transposes each group of 32 lanes. A lane that consumes
poison is written nothing and dies. -/
def Obligations.MatrixShapingCompletes : Prop :=
  (∀ (s : State) (w v : Wave) (g : GenW), Issues s w v (.msca g) →
    let nc := fragRegs (g.opx.toNat % 4) 2
    let n := (shapeNK (g.opx.toNat % 4)).1
    let ls := lanes (~~~ v.regs.dead) v.width
    let dies := mscaPoison g v nc n ls
    let ws := (List.range nc).map (fun j => (vNum g.dst + j,
      (ls.filter (fun l => !dies.getLsbD l)).map (fun l => (l, w32 (mscaElem g s v nc n j l).1))))
    mscaOk g v nc = true → boundsOk g.hdr.nwb (getTeam s v.team) v ws →
    let x := wroteV g.hdr.nwb (getTeam s v.team) v ws
    DoesDying s (.msca g) (withCC x (mergeCC x.regs.cc
      (setD v.regs.cc ((List.range nc).any (fun j => ls.any (fun l => (mscaElem g s v nc n j l).2)))))) dies)
  ∧ (∀ (s : State) (w v : Wave) (g : GenW), Issues s w v (.mtrn g) →
    let ls := actLanes v g
    let a := vNum g.a
    let dies := maskOf (ls.filter (fun i => (List.range 32).any (fun j => regPoison v (a + i % 32) 1 (i / 32 * 32 + j))))
    let ws := (List.range 32).map (fun j => (vNum g.dst + j, (ls.filter (fun l => !dies.getLsbD l)).map (fun i =>
      (i, w32 (crossRead v (fun p => (vreg v (a + i % 32) p).toNat) (i / 32 * 32 + j))))))
    (vNum g.dst = a ∨ vNum g.dst + 32 ≤ a ∨ a + 32 ≤ vNum g.dst) → boundsOk g.hdr.nwb (getTeam s v.team) v ws →
    let x := wroteV g.hdr.nwb (getTeam s v.team) v ws
    DoesDying s (.mtrn g) (withCC x (mergeCC x.regs.cc
      (setD v.regs.cc (ls.any (fun i => (List.range 32).any (fun j => crossDead v (i / 32 * 32 + j))))))) dies)

/-! ### Memory instructions -/

/-- R221 to R227, R230, R231: an access of which every element passes its checks and lies on the device is performed at once, element by
element, and its results are written; a handle that its use brought up to date is written too (R93). -/
def Obligations.LocalAccessCompletes : Prop :=
  (∀ m : MemW, LocalRule (.ld m) (fun _ => ldOp m)) ∧ (∀ m : MemW, LocalRule (.st m) (stOp m))
  ∧ (∀ m : MemW, LocalRule (.ldb m) (fun _ => ldbOp m)) ∧ (∀ m : MemW, LocalRule (.stb m) (stbOp m))
  ∧ (∀ m : AtomW, LocalRule (.atom m) (fun _ => atomOp m .none (anyVec [m.b, m.c])))
  ∧ (∀ m : AtomW, LocalRule (.atomr m) (fun _ => atomOp m (loadDest m.dst) (isV m.dst)))
  ∧ (∀ m : MemW, LocalRule (.cas m) (fun _ => casOp m)) ∧ (∀ m : MemW, LocalRule (.ldh m) (fun _ => ldhOp m))
  ∧ (∀ m : MemW, LocalRule (.sth m) (sthOp m))

/-- R43, R46, R49, R130, R221 to R227, R230, R231: held stores, and stores that claim a slot; an access that reaches a peer, the CXL tier or
the host is failable: it takes a tag and a slip. -/
def Obligations.FailableAccessCompletes : Prop :=
  (∀ m : MemW, HeldRule (.st m) (stOp m)) ∧ (∀ m : MemW, HeldRule (.stb m) (stbOp m)) ∧ (∀ m : MemW, HeldRule (.sth m) (sthOp m))
  ∧ (∀ m : MemW, FarRule (.ld m) (fun _ => ldOp m)) ∧ (∀ m : MemW, FarRule (.st m) (stOp m))
  ∧ (∀ m : MemW, FarRule (.ldb m) (fun _ => ldbOp m)) ∧ (∀ m : MemW, FarRule (.stb m) (stbOp m))
  ∧ (∀ m : AtomW, FarRule (.atom m) (fun _ => atomOp m .none (anyVec [m.b, m.c])))
  ∧ (∀ m : AtomW, FarRule (.atomr m) (fun _ => atomOp m (loadDest m.dst) (isV m.dst)))
  ∧ (∀ m : MemW, FarRule (.cas m) (fun _ => casOp m)) ∧ (∀ m : MemW, FarRule (.ldh m) (fun _ => ldhOp m))
  ∧ (∀ m : MemW, FarRule (.sth m) (sthOp m))

/-- R234 to R237: the accesses to a named peer. -/
def Obligations.PeerAccessCompletes : Prop :=
  (∀ m : RemW, PeerRule (.pld m) (fun _ => remOp m .load (loadDest m.dst) (isV m.dst) {}))
  ∧ (∀ m : RemW, PeerRule (.pst m) (fun v => remOp m .store .none (peerVec m.dst m.a m.c false) { slot := lazyOf v (.pst m) (regsOf m.hdr.typ) m.dst }))
  ∧ (∀ m : RemW, PeerRule (.psts m) (fun v => remOp m .store .none (peerVec m.dst m.a m.c false)
      { slot := lazyOf v (.psts m) (regsOf m.hdr.typ) m.dst, stream := some m.stream.toNat }))
  ∧ (∀ m : AtomW, PeerRule (.patom m) (fun _ => patomOp m .none (peerVec m.dst m.a m.c false)))
  ∧ (∀ m : AtomW, PeerRule (.patomr m) (fun _ => patomOp m (loadDest m.dst) (isV m.dst)))

/-- R40, R219, R220: MLDF and MSTF of a legal descriptor whose every element passes its checks and lies on the device are performed at once; an
MSTF that claims a slot leaves its data to be read. Lanes that hold poison in a fragment to be stored die, and store nothing. -/
def Obligations.FragmentAccessCompletes : Prop :=
  (∀ (m : MemW) (s : State) (w v : Wave) (b : W64) (via : Via) (upd : Option (Nat × Handle)), Issues s w v (.mldf m) →
    let p := putWave s v
    let desc := scalarOp p v m.hdr.lit m.b
    let base := b + BitVec.ofInt 64 (m.disp.toInt * tySize m.hdr.typ)
    let a : Access :=
      { kind := .load, ty := m.hdr.typ, order := m.order, scope := m.scope,
        wb := .frag (vNum m.dst) (bits desc.toNat 32 2) (bits desc.toNat 34 2), vector := true,
        viaHandle := (match via with | .raw => false | _ => true), elems := fragElems p v (.mldf m) m.hdr.typ desc base }
    baseOf p v m.hdr m.a false = some (b, via, upd) →
    fragOk v m.hdr.typ (vNum m.dst) desc = true → base.toNat % tySize m.hdr.typ = 0 → bits desc.toNat 0 32 % tySize m.hdr.typ = 0 →
    (a.elems = [] → Ends s (.mldf m) v.id (keptHandle p v.id upd))
    ∧ (∀ t, LocalTo p v a via t → Finishes s (.mldf m) v.id (keptHandle t v.id upd)))
  ∧ (∀ (m : MemW) (s : State) (w v : Wave) (b : W64) (via : Via) (upd : Option (Nat × Handle)), Issues s w v (.mstf m) →
    let desc := scalarOp (putWave s v) v m.hdr.lit m.b
    let f := fragDies (putWave s v) v .store (vNum m.c, fragRegs (bits desc.toNat 32 2) (bits desc.toNat 34 2))
    let p := f.1
    let x := f.2
    let base := b + BitVec.ofInt 64 (m.disp.toInt * tySize m.hdr.typ)
    let a : Access :=
      { kind := .store, ty := m.hdr.typ, order := m.order, scope := m.scope, wb := .none, vector := true,
        viaHandle := (match via with | .raw => false | _ => true), elems := fragElems p x (.mstf m) m.hdr.typ desc base }
    baseOf (putWave s v) v m.hdr m.a true = some (b, via, upd) →
    fragOk v m.hdr.typ (vNum m.c) desc = true → base.toNat % tySize m.hdr.typ = 0 → bits desc.toNat 0 32 % tySize m.hdr.typ = 0 →
    (v.regs.poison = [] → p = putWave s v ∧ x = v)
    ∧ (a.elems = [] → Finishes s (.mstf m) v.id (keptHandle p v.id upd))
    ∧ (∀ t, m.hdr.dsc = 0 → LocalTo p x a via t → Finishes s (.mstf m) v.id (keptHandle t v.id upd))
    ∧ (∀ z, lazyOf v (.mstf m) (fragRegs (bits desc.toNat 32 2) (bits desc.toNat 34 2)) m.c = some z → allLocal p x a via →
      freeToGo p x (placed p x a via) → Finishes s (.mstf m) v.id (keptHandle
        (modWave p v.id (fun y => { y with hz := { y.hz with lazies := y.hz.lazies ++ [{ z with target := .store (placed p x a via) }] } })) v.id upd)))

/-- R222: an access whose elements fail checks raises, outside handler mode, the cause of the first failed check in the order of R222, with the
address of the lowest lane that fails it and, in the vector form, the lanes that do. Nothing is performed. -/
def Obligations.AccessCheckTraps : Prop :=
  (∀ m : MemW, CheckRule (.ld m) (fun _ => ldOp m)) ∧ (∀ m : MemW, CheckRule (.st m) (stOp m))
  ∧ (∀ m : MemW, CheckRule (.ldb m) (fun _ => ldbOp m)) ∧ (∀ m : MemW, CheckRule (.stb m) (stbOp m))
  ∧ (∀ m : AtomW, CheckRule (.atom m) (fun _ => atomOp m .none (anyVec [m.b, m.c])))
  ∧ (∀ m : AtomW, CheckRule (.atomr m) (fun _ => atomOp m (loadDest m.dst) (isV m.dst)))
  ∧ (∀ m : MemW, CheckRule (.cas m) (fun _ => casOp m)) ∧ (∀ m : MemW, CheckRule (.ldh m) (fun _ => ldhOp m))
  ∧ (∀ m : MemW, CheckRule (.sth m) (sthOp m))

/-- R79, R80, R228, R229: FENCE writes the failure accumulator once every store it waits for is performed, and clears it at the scopes .f and .s;
before that it waits. What follows it is ordered after the failable accesses before it. PRF changes nothing but the program counter. -/
def Obligations.FenceAndPrefetchComplete : Prop :=
  (∀ (s : State) (w v : Wave) (m : MemW), Issues s w v (.fence m) →
    let wide := m.scope = .f ∨ m.scope = .s
    let done := v.hz.held = [] ∧ (∀ z ∈ v.hz.lazies, match z.target with
        | .store _ | .held _ => False | .packets _ => ¬ wide | .mma _ => True)
      ∧ (∀ x ∈ v.hz.slips, x.hr = true → x.ended = true) ∧ (wide → ∀ x ∈ v.hz.slips, x.fenced = true → x.ended = true)
    (done →
      let x := setS v (sNum m.dst) (v.hz.facc.setWidth 64)
      (wide → Does s (.fence m) (fenced { x with hz := { v.hz with facc := 0 } })) ∧ (¬ wide → Does s (.fence m) (fenced x)))
    ∧ (¬ done → Waits s (.fence m) (putWave s v) v.id .fence))
  ∧ (∀ (s : State) (w v : Wave) (m : MemW), Issues s w v (.prf m) → Does s (.prf m) v)

/-- R232, R233: HMOV copies a handle, writes its reference word, or resolves one; PIN and UNPIN of an object whose catalogue entry is held count
its pins and its pages, and a count that would overflow or fall below zero raises 0x0B. That UNPIN frees a STABLE entry with its last pin is the
model's choice (log 19, DESIGN CHOICE). -/
def Obligations.HandleInstructionsComplete : Prop :=
  (∀ (s : State) (w v : Wave) (g : GenW) (n : BitVec 4), Issues s w v (.hmov g) → g.opx = 0 → g.a = .h n →
    Does s (.hmov g) (if g.hdr.nwb then v else setH v (hNum g.dst) (hreg v n.toNat)))
  ∧ (∀ (s : State) (w v : Wave) (g : GenW), Issues s w v (.hmov g) → g.opx = 1 →
    Does s (.hmov g) (wroteS g.hdr.nwb v (sNum g.dst) (refWord (hreg v (hNum g.a)))))
  ∧ (∀ (s : State) (w v : Wave) (g : GenW) (q : Resolved), Issues s w v (.hmov g) → 2 ≤ g.opx.toNat →
    resolveRef s v (scalarOp s v g.hdr.lit g.a) = some q →
    Does s (.hmov g) (if g.hdr.nwb then v else setH v (hNum g.dst) q.h))
  ∧ (∀ (s : State) (w v : Wave) (g : GenW) (h : Handle) (b lo hi : W64) (d : HeapDesc) (e : CatEntry), Issues s w v (.pin g) →
    hreg v (hNum g.a) = some h → useHandle s v (some h) true = .base b lo hi none → heapDesc s (getCtx s v.ctx) h.heap.toNat = some d →
    catLookup s (getCtx s v.ctx) d b = some e → e.st ≠ 2 → e.pins < 65535 → pageFull s (getCtx s v.ctx) d (objPages b e.size) = false →
    let c := getCtx s v.ctx
    Ends s (.pin g) v.id (let t := countPages (putCat (putWave s v) c { e with pins := e.pins + 1 }) c d (objPages b e.size) true
      putWave t (wroteS g.hdr.nwb v (sNum g.dst) b)))
  ∧ (∀ (s : State) (w v : Wave) (g : GenW) (h : Handle) (b lo hi : W64) (d : HeapDesc) (e : CatEntry), Issues s w v (.pin g) →
    hreg v (hNum g.a) = some h → useHandle s v (some h) true = .base b lo hi none → heapDesc s (getCtx s v.ctx) h.heap.toNat = some d →
    catLookup s (getCtx s v.ctx) d b = some e → e.st ≠ 2 → 65535 ≤ e.pins ∨ pageFull s (getCtx s v.ctx) d (objPages b e.size) = true →
    Traps s (.pin g) (putWave s v) (unpopped v w) (precise 0x0B))
  ∧ (∀ (s : State) (w v : Wave) (g : GenW) (h : Handle) (b lo hi : W64) (upd : Option Handle) (d : HeapDesc) (e : CatEntry), Issues s w v (.unpin g) →
    hreg v (hNum g.a) = some h → useHandle s v (some h) false = .base b lo hi upd → heapDesc s (getCtx s v.ctx) h.heap.toNat = some d →
    catLookup s (getCtx s v.ctx) d b = some e → e.pins ≠ 0 → pageEmpty s (getCtx s v.ctx) d (objPages b e.size) = false →
    let c := getCtx s v.ctx
    Ends s (.unpin g) v.id (countPages (putCat (putWave s v) c
      { e with pins := e.pins - 1, st := if e.pins = 1 && e.st == 1 then 0 else e.st }) c d (objPages b e.size) false))
  ∧ (∀ (s : State) (w v : Wave) (g : GenW) (h : Handle) (b lo hi : W64) (upd : Option Handle) (d : HeapDesc) (e : CatEntry), Issues s w v (.unpin g) →
    hreg v (hNum g.a) = some h → useHandle s v (some h) false = .base b lo hi upd → heapDesc s (getCtx s v.ctx) h.heap.toNat = some d →
    catLookup s (getCtx s v.ctx) d b = some e → e.pins = 0 ∨ pageEmpty s (getCtx s v.ctx) d (objPages b e.size) = true →
    Traps s (.unpin g) (putWave s v) (unpopped v w) (precise 0x0B))

/-! ### Vector writes and their bounds -/

/-- R20, R175, R210: a vector write changes the named lanes of the named register and no other element, nor a scalar, mask or handle register;
under a clamp binding each element is brought inside its bounds. A write that a trap binding finds out of bounds raises 0x07. -/
def Obligations.VectorWriteFrame : Prop :=
  (∀ (t : Team) (v : Wave) (d : Nat) (row : List (Nat × W32)), v.regs.bmap = [] →
    let x := wroteV false t v [(d, row)]
    (∀ r l, (r ≠ d ∨ ∀ y, (l, y) ∉ row) → vreg x r l = vreg v r l)
    ∧ (∀ l y, (row.map (·.1)).Nodup → (l, y) ∈ row → d < v.regs.v.length → l < ((v.regs.v[d]?).getD []).length → vreg x d l = y)
    ∧ x = { v with regs := { v.regs with v := x.regs.v, poison := cleanse v.regs.poison [(d, row)] } })
  ∧ (∀ (t : Team) (v : Wave) (d l n : Nat) (y : W32) (b : Bound), boundOf t v d = some (n, b) → b.act = 2 → d < v.regs.v.length →
    l < ((v.regs.v[d]?).getD []).length →
    vreg (wroteV false t v [(d, [(l, y)])]) d l = w32 (packElems (tyWidth b.fmt) ((boundElems b y).map (clampElem b))))
  ∧ BoundTrapRule .vmov (elemLane (fun _ a _ _ => a))
  ∧ BoundTrapRule .vadd (elemLane (fun g a b _ => narrow g.hdr.typ g.sat (ival g.hdr.typ a + ival g.hdr.typ b)))
  ∧ BoundTrapRule .vfadd (elemLane (fun g a b _ => roundTo (fmtOf g.hdr.typ) g.rm (fadd g.rm (felem g 0 a) (felem g 1 b))))
  ∧ BoundTrapRule .vfmul (elemLane (fun g a b _ => roundTo (fmtOf g.hdr.typ) g.rm (fmul (felem g 0 a) (felem g 1 b))))
  ∧ BoundTrapRule .vfma (elemLane (fun g a b c => roundTo (fmtOf g.hdr.typ) g.rm (ffma g.rm (felem g 0 a) (felem g 1 b) (felem g 2 c))))

/-! ### The network, the engines and counters -/

/-- R238 to R241: NPUT, NGET and NATOM; NFLUSH of a live connection of the context; WREV, which writes the next generation of a window of the
context's ASID, or all ones. -/
def Obligations.NetworkOperationsComplete : Prop :=
  NetRule .nput .put ∧ NetRule .nget .get ∧ NetRule .natom .atom
  ∧ (∀ (s : State) (w v : Wave) (g : GenW), Issues s w v (.nflush g) → v.hz.slips.length < 128 →
    let p := putWave s v
    let x := (scalarOp p v g.hdr.lit g.a).toNat
    let ids := (s.net.msgs.filter (fun m => m.wave == v.id && m.conn == x && m.serial == connNat p x 0x30 8 && (m.op == .put || m.op == .atom))).map (·.id)
    (x < 2 ^ 20 → connAlive p x = true → connAsid p x = (getCtx p v.ctx).asid →
      Finishes s (.nflush g) v.id (flushAll (newSlip p v (.nflush g) (.flush x ids)) x))
    ∧ ((2 ^ 20 ≤ x ∨ connAlive p x = false ∨ connAsid p x ≠ (getCtx p v.ctx).asid) →
      Finishes s (.nflush g) v.id (slipFail (newSlip p v (.nflush g) (.flush x ids)) v.id v.hz.tag 0x11 0 0)))
  ∧ (∀ (s : State) (w v : Wave) (g : GenW), Issues s w v (.wrev g) →
    let n := (scalarOp s v g.hdr.lit g.a).toNat
    let at_ := s.net.winBase.toNat + 32 * n
    let mine := n < 65536 ∧ readNat s .hbm (at_ + 0x17) 1 % 2 = 1 ∧ readNat s .hbm (at_ + 0x10) 2 = (getCtx s v.ctx).asid
    let gen := (readNat s .hbm (at_ + 0x14) 2 + 1) % 65536
    (mine → Makes s (.wrev g) (writeRange s .hbm (at_ + 0x14) (natToBytes 2 gen)) (wroteS g.hdr.nwb v (sNum g.dst) (w64 gen)))
    ∧ (¬ mine → Does s (.wrev g) (wroteS g.hdr.nwb v (sNum g.dst) (BitVec.allOnes 64))))

/-- R242 to R247, R288 to R296: COPY, COPYM and CHAIN with good records: the operation is registered with its locks and handed to its unit. -/
def Obligations.EngineOperationsComplete : Prop :=
  (∀ (s : State) (w v : Wave) (g : GenW) (src : Layout) (idx : Option Layout) (dst : Layout) (r0 r1 r2 : Range), Issues s w v (.copy g) →
    let p := putWave s v
    let comp := scalarOp p v g.hdr.lit g.c
    CopyRecords p v g src idx dst → copyOk src idx dst = true → layoutSkew src = false → (∀ x, idx = some x → layoutSkew x = false) →
    layoutSkew dst = false → recRange p v (idx.getD src) false = .ok r1 → recRange p v src false = .ok r0 → recRange p v dst true = .ok r2 →
    compCheck p v comp = .ok () → engRoom p v (.copy src idx dst) [r1, r2] = true →
    Finishes s (.copy g) v.id (engQueued p v (.copy g) (.copy src idx dst) comp [r1, r2]))
  ∧ (∀ (s : State) (w v : Wave) (g : GenW) (l : List Byte) (src : Layout) (r : Range), Issues s w v (.copym g) →
    let p := putWave s v
    let comp := scalarOp p v g.hdr.lit g.c
    let mask := (scalarOp p v g.hdr.lit g.b).toNat
    let off := (scalarOp p v g.hdr.lit g.dst).toNat
    let n := boxCount src * tySize src.ty
    let ts := maskTeams p v mask
    let kind := EngKind.multi src off (ts.map (·.2.id)) (if bitAt g.opx.toNat 4 then none else some (g.opx.toNat % 16))
    let rs := r :: ts.map (fun q => (LockKey.shelf q.2.id, off, off + n, true))
    recAt p v (scalarOp p v g.hdr.lit g.a) 64 8 = .ok l → layoutOf l = some src → mask < 2 ^ 16 → layoutSkew src = false →
    recRange p v src false = .ok r → (∀ q ∈ ts, off + n ≤ q.2.shelfSize) → compCheck p v comp = .ok () → engRoom p v kind rs = true →
    Finishes s (.copym g) v.id (engQueued p v (.copym g) kind comp rs))
  ∧ (∀ (s : State) (w v : Wave) (g : GenW) (l : List Byte) (c : Chain) (rs : List Range), Issues s w v (.chain g) →
    let p := putWave s v
    let comp := scalarOp p v g.hdr.lit g.c
    recAt p v (scalarOp p v g.hdr.lit g.a) 64 8 = .ok l → chainDesc l = some c →
    (∀ q ∈ chainStreams c, q.1.toNat % tySize q.2.1 = 0) →
    allRanges ((chainStreams c).map (fun q => streamRange p v q.1 q.2.1 c.count q.2.2)) = .ok rs → compCheck p v comp = .ok () →
    engRoom p v (.chain c) rs = true → Finishes s (.chain g) v.id (engQueued p v (.chain g) (.chain c) comp rs))

/-- R248 to R251: CLOSE numbers the open batch and opens the next; WAITB gives the flags of the batches it covers once none has an operation
live; CADD adds to a counter as an atomic of release order, on the device or beyond it. TRYW reads its counter at once: it ends with Z when
the target is reached, with no flag when its limit is 0, else it is suspended; a later read that finds the target reached, or the end of the
limit, ends it. -/
def Obligations.BatchesAndCountersComplete : Prop :=
  (∀ (s : State) (w v : Wave) (g : GenW), Issues s w v (.close g) →
    let b := v.batchNo + 1
    Does s (.close g) (wroteS g.hdr.nwb { v with
      batchNo := b, batches := v.batches ++ [{ num := b + 1, live := [], failed := false, aborted := false }] } (sNum g.dst) (b.setWidth 64)))
  ∧ (∀ (s : State) (w v : Wave) (g : GenW), Issues s w v (.waitb g) →
    let n := w32 (scalarOp s v g.hdr.lit g.a).toNat
    let bs := waitBatches v n
    ((∀ b ∈ bs, b.live = []) → Does s (.waitb g) (wroteS g.hdr.nwb v (sNum g.dst)
      (w64 ((if bs.any (·.failed) then 2 else 0) + (if bs.any (·.aborted) then 1 else 0)))))
    ∧ (∀ b ∈ bs, b.live ≠ [] → Waits s (.waitb g) (putWave s v) v.id (.waitb n)))
  ∧ (∀ (s : State) (w v : Wave) (g : GenW), Issues s w v (.cadd g) →
    let p := putWave s v
    let a := caddAccess p v g
    (∀ t, LocalTo p v a .raw t → Finishes s (.cadd g) v.id t)
    ∧ (∀ st, resolve p v (.atom .add) .raw 8 (scalarOp p v g.hdr.lit g.a) = .ok st → (placed p v a .raw).elems.any remote = true →
      mayGo p v (placed p v a .raw) {} → Finishes s (.cadd g) v.id (sentFrom p v (.cadd g) (placed p v a .raw) {})))
  ∧ (∀ (s : State) (w v : Wave) (g : GenW) (sp : Space) (o : Nat), Issues s w v (.tryw g) → (∀ a b c, v.ctl.wait ≠ .tryw a b c) →
    let p := forgetReads (putWave s v) v.id
    let limit := (scalarOp p v g.hdr.lit g.c).toNat
    let target := scalarOp p v g.hdr.lit g.b
    limit ≤ 4096 → (placeAt p v .load 8 (scalarOp p v g.hdr.lit g.a) .acquire = .ok (.loc sp o)
      ∨ placeAt p v .load 8 (scalarOp p v g.hdr.lit g.a) .acquire = .ok (.link sp o)) → isPoison p sp o = false → forbidden p v.core sp o = false →
    linkRefuses p sp o 8 = false →
    (target.toNat ≤ readNat p sp o 8 → Makes s (.tryw g) p (withCC v (withFlags v.regs.cc true false false false)))
    ∧ (readNat p sp o 8 < target.toNat → limit = 0 → Makes s (.tryw g) p (withCC v (withFlags v.regs.cc false false false false)))
    ∧ (readNat p sp o 8 < target.toNat → limit ≠ 0 → Waits s (.tryw g) p v.id (.tryw target (s.clk + limit) (some s.clk))))
  ∧ (∀ (s : State) (v : Wave) (g : GenW) (sp : Space) (o d : Nat) (l : Option Nat) (target : W64), findWave s v.id = some v →
    v.ctl.wait = .tryw target d l → killDue s v = false → insAt s v v.ctl.pc = some (.tryw g) → (l = none ∨ s.clk < d) →
    (placeAt s v .load 8 (scalarOp s v g.hdr.lit g.a) .acquire = .ok (.loc sp o)
      ∨ placeAt s v .load 8 (scalarOp s v g.hdr.lit g.a) .acquire = .ok (.link sp o)) → isPoison s sp o = false → forbidden s v.core sp o = false →
    linkRefuses s sp o 8 = false →
    (target.toNat ≤ readNat s sp o 8 → Sys2Proof.Machine.exec (.trywPeriodicRead v.id) s
      = .next (complete (putWave s (withCC v (withFlags v.regs.cc true false false false))) v.id (.tryw g) none))
    ∧ (readNat s sp o 8 < target.toNat → s.clk < d → Sys2Proof.Machine.exec (.trywPeriodicRead v.id) s
      = .next (stayAt s v.id (.tryw target d (some s.clk)))))
  ∧ (∀ (s : State) (v : Wave) (g : GenW) (d l : Nat) (target : W64), findWave s v.id = some v → v.ctl.wait = .tryw target d (some l) →
    killDue s v = false → insAt s v v.ctl.pc = some (.tryw g) → d ≤ s.clk →
    Sys2Proof.Machine.exec (.trywLimitExpiry v.id) s
      = .next (complete (putWave s (withCC v (withFlags v.regs.cc false false false false))) v.id (.tryw g) none))

/-! ### Tasks, scopes, barriers, registers and waits -/

/-- R31 to R35, R252 to R254: SPAWN writes its status and, with status 0, hands the task over under the next tag; CSCOPE opens a scope under
the wave's, or says why it cannot; CANCEL marks a live scope; TASK_ACCEPT ends a SPAWN. -/
def Obligations.TasksAndScopesComplete : Prop :=
  (∀ (s : State) (w v : Wave) (g : GenW) (l : List Byte) (d : TaskDesc), Issues s w v (.spawn g) →
    let p := putWave s v
    let scope := if d.scope = 0 then v.scope else d.scope
    let st := spawnStatus p v d scope
    recAt p v (scalarOp p v g.hdr.lit g.a) 64 24 = .ok l → taskDesc l = some d →
    (st ≠ 0 → Does s (.spawn g) (wroteS g.hdr.nwb v (sNum g.dst) (w64 st)))
    ∧ (st = 0 → v.hz.slips.length < 128 → ∃ y, findWave (spawnTask p v (.spawn g) d scope) v.id = some y ∧ y.hz.tag = v.hz.tag + 1
      ∧ Finishes s (.spawn g) v.id (putWave (spawnTask p v (.spawn g) d scope) (wroteS g.hdr.nwb y (sNum g.dst) 0))))
  ∧ (∀ (s : State) (w v : Wave) (g : GenW), Issues s w v (.cscope g) →
    let c := getCtx s v.ctx
    let ctr := scalarOp s v g.hdr.lit g.a
    let parent := if v.fsw then none else findScope c v.scope
    let depth := match parent with | some r => r.depth + 1 | none => 1
    let gave (id : W64) : Wave := withCC (wroteS g.hdr.nwb v (sNum g.dst) id) (zn .n64 v.regs.cc id.toNat false).2
    ctr.toNat % 8 = 0 →
    (16 < depth → Does s (.cscope g) (gave 0x8000000000000001))
    ∧ (depth ≤ 16 → freeScope c = none → Does s (.cscope g) (gave 0x8000000000000002))
    ∧ (∀ slot, depth ≤ 16 → freeScope c = some slot →
      let o := openScope (putWave s v) v.ctx slot depth (parent.map (·.slot)) ctr (some v.id) none
      Finishes s (.cscope g) v.id (putWave o.1 (gave o.2))))
  ∧ (∀ (s : State) (w v : Wave) (g : GenW), Issues s w v (.cancel g) →
    let f := findScope (getCtx s v.ctx) (scalarOp s v g.hdr.lit g.a)
    (f = none → Does s (.cancel g) (wroteS g.hdr.nwb v (sNum g.dst) 2))
    ∧ (∀ r, f = some r → r.cancelled = true → Does s (.cancel g) (wroteS g.hdr.nwb v (sNum g.dst) 1))
    ∧ (∀ r, f = some r → r.cancelled = false →
      let t := cancelMark (putWave s v) v.ctx r.slot
      ∃ y, findWave t v.id = some y ∧ Finishes s (.cancel g) v.id (putWave t (wroteS g.hdr.nwb y (sNum g.dst) 0))))
  ∧ (∀ (s : State) (t : Task), s.tasks.find? (fun x => x.id == t.id) = some t → t.accepted = false →
    (entryCause s (getCtx s t.ctx) t.kernel.exec = none → Sys2Proof.Machine.exec (.taskAccept t.id) s
      = .next (slipOk { s with tasks := s.tasks.map (fun x => if x.id = t.id then { x with accepted := true } else x) } t.wave t.tag))
    ∧ (∀ c, entryCause s (getCtx s t.ctx) t.kernel.exec = some c → Sys2Proof.Machine.exec (.taskAccept t.id) s
      = .next (freeAll (slipFail { s with tasks := s.tasks.filter (fun x => x.id != t.id) } t.wave t.tag c t.kernel.exec 0) t.ctx)))

/-- R256, R257: BARA arrives and goes on; BARS arrives and waits unless its phase completes; BARW waits for the phase the wave arrived in. A
wave that has arrived in the phase stalls, as does an arrival whose earlier stores are still to be made; a barrier above 15, or 65,536
landings at BARA or BARS, raises 0x01. -/
def Obligations.BarriersComplete : Prop :=
  (∀ (s : State) (w v : Wave) (g : GenW), Issues s w v (.bara g) →
    let p := putWave s v
    let n := (scalarOp s v g.hdr.lit g.a).toNat
    let land := (scalarOp s v g.hdr.lit g.b).toNat
    (n < 16 → land < 2 ^ 16 → (barOf s v n).arrived &&& waveBit v.idx = 0 → releaseWaits p v = false → Finishes s (.bara g) v.id (arrive p v n land))
    ∧ (n < 16 → land < 2 ^ 16 → (barOf s v n).arrived &&& waveBit v.idx ≠ 0 ∨ releaseWaits p v = true → Waits s (.bara g) p v.id .stall)
    ∧ (16 ≤ n ∨ 2 ^ 16 ≤ land → Traps s (.bara g) p (unpopped v w) (precise 0x01)))
  ∧ (∀ (s : State) (w v : Wave) (g : GenW), Issues s w v (.bars g) →
    let p := putWave s v
    let n := (scalarOp s v g.hdr.lit g.a).toNat
    let land := (scalarOp s v g.hdr.lit g.b).toNat
    let t := arrive p v n land
    (16 ≤ n ∨ 2 ^ 16 ≤ land → Traps s (.bars g) p (unpopped v w) (precise 0x01))
    ∧ (n < 16 → land < 2 ^ 16 → (barOf s v n).arrived &&& waveBit v.idx ≠ 0 ∨ releaseWaits p v = true → Waits s (.bars g) p v.id .stall)
    ∧ (n < 16 → land < 2 ^ 16 → (barOf s v n).arrived &&& waveBit v.idx = 0 → releaseWaits p v = false →
    ((barOf t v n).phase ≠ (barOf s v n).phase → Finishes s (.bars g) v.id t)
    ∧ ((barOf t v n).phase = (barOf s v n).phase → ∃ l, Sys2Proof.Machine.exec (.bars g) s = .next (spendLatch (.bars g)
      (modWave (complete t v.id (.bars g) l) v.id (fun x => match x.ctl.st with
        | .ready => setSt x .waiting (.bars n (barOf s v n).phase)
        | _ => x))))))
  ∧ (∀ (s : State) (w v : Wave) (g : GenW), Issues s w v (.barw g) →
    let p := putWave s v
    let n := (scalarOp s v g.hdr.lit g.a).toNat
    (16 ≤ n → Traps s (.barw g) p (unpopped v w) (precise 0x01))
    ∧ (n < 16 → (v.ctl.barPhase[n]?).getD none = none → Does s (.barw g) v)
    ∧ (∀ ph, n < 16 → (v.ctl.barPhase[n]?).getD none = some ph → (barOf s v n).phase ≠ ph → Does s (.barw g) v)
    ∧ (∀ ph, n < 16 → (v.ctl.barPhase[n]?).getD none = some ph → (barOf s v n).phase = ph → Waits s (.barw g) p v.id (.barw n ph)))
  ∧ (∀ (s : State) (v : Wave) (n land : Nat), n < 16 →
    let b := barOf s v n
    (getTeam s v.team).bars[n]? = some b →
    let b1 : Barrier := { b with arrived := b.arrived ||| waveBit v.idx, bal := b.bal + land }
    s.teams.find? (fun t => t.id == v.team) = some (getTeam s v.team) →
    barOf (arrive s v n land) v n = if barComplete b1 then { b1 with phase := b.phase + 1, arrived := 0, waited := 0, fired := false } else b1)

/-- R26 to R28, R258: GIVE releases the top registers once nothing issued uses them; CLAIM takes registers when its half has them and no CLAIM is
before it, else joins the queue; a waiting GIVE ends with GIVE_RELEASE. -/
def Obligations.RegisterPoolCompletes : Prop :=
  (∀ (s : State) (w v : Wave) (g : GenW), Issues s w v (.give g) →
    let p := putWave s v
    let n := (scalarOp s v g.hdr.lit g.a).toNat
    (n = 0 → Does s (.give g) v)
    ∧ (n ≠ 0 → n % 8 = 0 → n + 8 ≤ v.regs.cnt → rangeBusy p v (v.regs.cnt - n) n = false →
      Finishes s (.give g) v.id (serveClaims 16 (modPool (modWave p v.id (fun x => setCount x (x.regs.cnt - n))) v (fun k => k + n)) v))
    ∧ (n ≠ 0 → n % 8 = 0 → n + 8 ≤ v.regs.cnt → rangeBusy p v (v.regs.cnt - n) n = true → Waits s (.give g) p v.id (.give n))
    ∧ (n ≠ 0 → n % 8 ≠ 0 ∨ v.regs.cnt < n + 8 → Traps s (.give g) p (unpopped v w) (precise 0x01)))
  ∧ (∀ (s : State) (w v : Wave) (g : GenW), Issues s w v (.claim g) →
    let p := putWave s v
    let n := (scalarOp s v g.hdr.lit g.a).toNat
    let first := claimQueue s v = [] ∨ (claimQueue s v).head? = some v.id
    (n = 0 → Does s (.claim g) v)
    ∧ (n ≠ 0 → n % 8 = 0 → v.regs.cnt + n ≤ 256 → first → poolHas s v n = true → Finishes s (.claim g) v.id (takeRegs p v n))
    ∧ (n ≠ 0 → n % 8 = 0 → v.regs.cnt + n ≤ 256 → v.id ∉ claimQueue s v → ¬ first ∨ poolHas s v n = false → Waits s (.claim g)
      (modTeam p v.team (fun t => { t with claims := setAt t.claims (halfOf t v.idx) (((t.claims[halfOf t v.idx]?).getD []) ++ [v.id]) }))
      v.id (.claim n))
    ∧ (n ≠ 0 → n % 8 ≠ 0 ∨ 256 < v.regs.cnt + n → Traps s (.claim g) p (unpopped v w) (precise 0x01)))
  ∧ (∀ (s : State) (v : Wave) (g : GenW) (k n : Nat), findWave s v.id = some v → v.ctl.wait = .give k → insAt s v v.ctl.pc = some (.give g) →
    n = (scalarOp s v g.hdr.lit g.a).toNat → n ≠ 0 → n % 8 = 0 → n + 8 ≤ v.regs.cnt → rangeBusy s v (v.regs.cnt - n) n = false →
    Sys2Proof.Machine.exec (.giveRelease v.id) s = .next (complete
      (serveClaims 16 (modPool (modWave s v.id (fun x => setCount x (x.regs.cnt - n))) v (fun k => k + n)) v) v.id (.give g) none))

/-- R48, R130, R155, R259, R260: HWAIT waits for the horizon to pass its tag, WAITT for slots; a YIELD ends when the others have issued or its
64 clk are over. -/
def Obligations.WaitsComplete : Prop :=
  (∀ (s : State) (w v : Wave) (g : GenW), Issues s w v (.hwait g) → (∀ x, v.ctl.wait ≠ .hwait x) →
    let t := waitTag v (w32 (scalarOp s v g.hdr.lit g.a).toNat)
    (passed v t = true → Does s (.hwait g) v) ∧ (passed v t = false → Waits s (.hwait g) (putWave s v) v.id (.hwait t)))
  ∧ (∀ (s : State) (w v : Wave) (g : GenW) (t : W32), Issues s w v (.hwait g) → v.ctl.wait = .hwait t →
    (passed v t = true → Does s (.hwait g) v) ∧ (passed v t = false → Waits s (.hwait g) (putWave s v) v.id (.hwait t)))
  ∧ (∀ (s : State) (w v : Wave) (g : GenW), Issues s w v (.waitt g) →
    let m := (scalarOp s v g.hdr.lit g.a).toNat
    (bitAt m 0 = true → Traps s (.waitt g) (putWave s v) (unpopped v w) (precise 0x01))
    ∧ (bitAt m 0 = false → (∀ j, 1 ≤ j → j ≤ 7 → bitAt m j = true → slotHeld v j = false) → Does s (.waitt g) v)
    ∧ (bitAt m 0 = false → (∃ j, 1 ≤ j ∧ j ≤ 7 ∧ bitAt m j = true ∧ slotHeld v j = true) → Waits s (.waitt g) (putWave s v) v.id .waitt))
  ∧ (∀ (s : State) (v : Wave) (others : List (Nat × Nat)) (lim : Nat), findWave s v.id = some v → v.ctl.wait = .yielded others lim →
    yieldLeft s others = [] ∨ lim ≤ s.clk → ∃ t, Sys2Proof.Machine.exec (.yieldExpiry v.id) s = .next t
      ∧ findWave t v.id = some (setSt v v.ctl.st .idle) ∧ (∀ n, n ≠ v.id → findWave t n = findWave s n))

/-! ### The access slice -/

/-- R262 to R268: the instructions of the access slice, with what they do to its loops, queues and address registers. ALOOP with a count of 2^32 or
more, or of a fifth level, is an illegal use; ALD makes no access for an entry that a restoration has it discard (R264). That ALD waits, while its
core has as many requests outstanding as R8 lets it have, is read so by log 89 (DEDUCED). -/
def Obligations.AccessSliceCompletes : Prop :=
  ∀ (s : State) (v : Wave) (g : GenW), s.cur = .slice v.id → findWave s v.id = some v →
    let at_ (i : Instr) : W64 := nextPc v.slice.pc (hasLit i)
    let val := sliceVal v g.hdr.lit
    ((val g.a).toNat < 2 ^ 32 → (val g.a).toNat ≠ 0 → v.slice.loops.length < 4 → Sys2Proof.Machine.exec (.aloop g) s = .next (putWave s { v with
      slice := { v.slice with pc := at_ (.aloop g),
                              loops := { start := at_ (.aloop g), count := (val g.a).toNat, index := 0 } :: v.slice.loops } }))
    ∧ (∀ pc, val g.a = 0 → afterAend s v 65536 0 (at_ (.aloop g)) = .found pc →
      Sys2Proof.Machine.exec (.aloop g) s = .next (putWave s { v with slice := { v.slice with pc := pc, skip := none } }))
    ∧ (∀ pc d, val g.a = 0 → afterAend s v 65536 0 (at_ (.aloop g)) = .blocked pc d →
      Sys2Proof.Machine.exec (.aloop g) s = .next (putWave s { v with slice := { v.slice with pc := pc, skip := some d } }))
    ∧ (∀ l r, v.slice.loops = l :: r → l.index + 1 < l.count → Sys2Proof.Machine.exec (.aend g) s = .next (putWave s { v with
      slice := { v.slice with pc := l.start, loops := { l with index := l.index + 1 } :: r } }))
    ∧ (∀ l r, v.slice.loops = l :: r → l.count ≤ l.index + 1 → Sys2Proof.Machine.exec (.aend g) s = .next (putWave s { v with
      slice := { v.slice with pc := at_ (.aend g), loops := r } }))
    ∧ (2 ^ 32 ≤ (val g.a).toNat ∨ (val g.a ≠ 0 ∧ 4 ≤ v.slice.loops.length) → Sys2Proof.Machine.exec (.aloop g) s = .next (sliceIllegal s v.id))
    ∧ (∀ d, (v.slice.discard[qNum g.dst]?).getD 0 = d → 0 < d → Sys2Proof.Machine.exec (.ald g) s = .next (putWave s { v with
      slice := { v.slice with pc := at_ (.ald g), discard := setAt v.slice.discard (qNum g.dst) (d - 1) } }))
    ∧ ((v.slice.discard[qNum g.dst]?).getD 0 = 0 → ((v.queues[qNum g.dst]?).getD []).length < 8 → locksDamaged s = false → coreOut s v.core < 1024 →
      let e := aldEntry s v g
      Sys2Proof.Machine.exec (.ald g) s = .next (putWave e.1 { v with
        queues := setAt v.queues (qNum g.dst) (((v.queues[qNum g.dst]?).getD []) ++ [e.2]), slice := { v.slice with pc := at_ (.ald g) } }))
    ∧ Sys2Proof.Machine.exec (.apf g) s = .next (putWave s { v with slice := { v.slice with pc := at_ (.apf g) } })
    ∧ (∀ n : BitVec 6, g.dst = .s n → Sys2Proof.Machine.exec (.aadv g) s = .next (putWave s { v with slice := { v.slice with
      pc := at_ (.aadv g),
      a := setAt v.slice.a n.toNat (if g.opx = 0 then (v.slice.a[n.toNat]?).getD 0 + val g.b else val g.b) } }))
    ∧ Sys2Proof.Machine.exec (.ahalt g) s = .next (putWave s { v with slice := { v.slice with stopped := true } })
    ∧ (v.slice.loops = [] → Sys2Proof.Machine.exec (.aend g) s = .next (sliceIllegal s v.id))

/-! ### Issue -/

/-- R26, R33, R62, R129, R135, R137, R138: an instruction that fails a check of its issue raises the check's cause, whatever its guard. The
opcodes of the access slice raise 0x01 in a wave's own code. An instruction whose guard is false has no effect but that its queue entries
are discarded: its wave goes on, or, in a chained line, waits while an MMA in flight still owes what its latch is to hold. One that waits for a
dependence slot is not issued. A wave of a cancelled scope is killed at a kill point. -/
def Obligations.IssueChecks : Prop :=
  (∀ (s : State) (w : Wave) (g : GenW) (m : MemW) (c : Nat), s.cur = .wave w.id → findWave s w.id = some w →
    (issueFault s w (.st m) = some c → Sys2Proof.Machine.exec (.st m) s = .next (precisely s w (.st m) (precise c)))
    ∧ (issueFault s w (.vadd g) = some c → Sys2Proof.Machine.exec (.vadd g) s = .next (precisely s w (.vadd g) (precise c)))
    ∧ (issueFault s w (.haltctx g) = some c → Sys2Proof.Machine.exec (.haltctx g) s = .next (precisely s w (.haltctx g) (precise c)))
    ∧ (issueFault s w (.drain g) = some c → Sys2Proof.Machine.exec (.drain g) s = .next (precisely s w (.drain g) (precise c)))
    ∧ (issueFault s w (.tlbinv g) = some c → Sys2Proof.Machine.exec (.tlbinv g) s = .next (precisely s w (.tlbinv g) (precise c)))
    ∧ (issueFault s w (.replay g) = some c → Sys2Proof.Machine.exec (.replay g) s = .next (precisely s w (.replay g) (precise c)))
    ∧ (issueFault s w (.mark g) = some c → Sys2Proof.Machine.exec (.mark g) s = .next (precisely s w (.mark g) (precise c))))
  ∧ (∀ (s : State) (w : Wave) (g : GenW), s.cur = .wave w.id → findWave s w.id = some w →
    Sys2Proof.Machine.exec (.aloop g) s = .next (precisely s w (.aloop g) (precise 0x01))
    ∧ Sys2Proof.Machine.exec (.aend g) s = .next (precisely s w (.aend g) (precise 0x01))
    ∧ Sys2Proof.Machine.exec (.ald g) s = .next (precisely s w (.ald g) (precise 0x01))
    ∧ Sys2Proof.Machine.exec (.apf g) s = .next (precisely s w (.apf g) (precise 0x01))
    ∧ Sys2Proof.Machine.exec (.aadv g) s = .next (precisely s w (.aadv g) (precise 0x01))
    ∧ Sys2Proof.Machine.exec (.ahalt g) s = .next (precisely s w (.ahalt g) (precise 0x01)))
  ∧ (∀ (s : State) (w : Wave) (g : GenW), w.hz.handler = false → w.fsw = false → (getCtx s w.ctx).priv = false →
    issueFault s w (.haltctx g) = some 0x01 ∧ issueFault s w (.drain g) = some 0x01 ∧ issueFault s w (.replay g) = some 0x01
    ∧ issueFault s w (.tlbinv g) = some 0x01)
  ∧ (∀ (s : State) (w x : Wave) (i : Instr) (f : Body), issueFault s w i = none → slotsFree w i = true →
    guardHolds (insHdr i).grd w.regs.cc = false →
    (offWaits (putWave s (freezeLatches w)) (freezeLatches w) i = false → discardPops (freezeLatches w) (qRegs i) = some x →
      ∃ l, issueWave s w i f = complete (putWave (putWave s (freezeLatches w)) x) w.id i l)
    ∧ (offWaits (putWave s (freezeLatches w)) (freezeLatches w) i = true →
      issueWave s w i f = stayAt (putWave s (freezeLatches w)) w.id .stall))
  ∧ (∀ (s : State) (w : Wave) (i : Instr) (f : Body), issueFault s w i = none → slotsFree w i = false → issueWave s w i f = stayAt s w.id .stall)
  ∧ (∀ (s : State) (w : Wave) (i : Instr) (f : Body), issueFault s w i = none → slotsFree w i = true →
    guardHolds (insHdr i).grd w.regs.cc = true → killDue s (freezeLatches w) = true →
    killPoint (putWave s (freezeLatches w)) (freezeLatches w) i = true →
    issueWave s w i f = killWave (putWave s (freezeLatches w)) w.id)

/-- R53 to R56: a trap of any class of a wave outside handler mode, under a policy that names a handler, writes the frame, enters handler mode at the
first slot of .trap with %fault zero and waits, latches and parks gone; one of the horizon class first discards the held stores younger than its tag.
In the fault-service wave, or for a machine check, it is logged and kills the wave; in handler mode it halts the context; under the policy to halt the
context halts, and under the policy to cancel, or where no handler is named, the wave is killed and its scope cancelled. Causes 0x05 to 0x0B in handler
mode are left out of the third: an instruction that raises one is secondary, it has no effect but on %fault, and the wave goes on. PROV of a frame counts
the slips as they stand before the discard, which is the model's choice (log 81). -/
def Obligations.TrapEntry : Prop :=
  (∀ (s : State) (w : Wave) (t : TrapInfo), findWave s w.id = some w →
    let k := (getTeam s w.team).kernel
    let d : Wave × Nat := match t.cls, t.tag with
      | .horizon, some g => discardHeld w g
      | _, _ => (w, 0)
    let x := takePending d.1 t
    let frame := frameBytes w t d.2 (morePending x)
    let s1 := claimLeave (putWave s x) x
    let logged := flogWrite (putWave s1 (match t.tag with | some g => dropSlip x g | none => x)) w.ctx frame
    let own := t.cls ≠ .machine ∧ w.fsw = false
    (own → w.hz.handler = false → w.ctl.stopping = false → k.policy = 1 → k.trapPc ≠ 0 → k.fromFsw = false →
      ∃ y, takeTrap s w.id t = putWave (writeRange s1 (.stack w.id) frameOff frame) y
        ∧ y.id = w.id ∧ y.hz.handler = true ∧ y.ctl.pc = k.trapPc ∧ y.ctl.st = .ready ∧ y.ctl.wait = .idle ∧ y.ctl.latches = []
        ∧ y.ctl.park = none ∧ y.ctl.only = none ∧ y.popped = [] ∧ y.hz.held = d.1.hz.held
        ∧ y.regs = { w.regs with fault := 0 } ∧ y.stack = memPuts w.stack frameOff frame)
    ∧ (¬ own → takeTrap s w.id t = killWave logged w.id)
    ∧ (own → w.hz.handler = true → t.cause < 0x05 ∨ 0x0B < t.cause → takeTrap s w.id t = haltCheck (haltCtx logged w.ctx none) w.ctx)
    ∧ (own → w.hz.handler = false → k.policy = 2 → k.fromFsw = false → takeTrap s w.id t = haltCheck (haltCtx logged w.ctx none) w.ctx)
    ∧ (own → w.hz.handler = false → k.fromFsw = true ∨ (k.policy ≠ 2 ∧ (k.policy ≠ 1 ∨ k.trapPc = 0)) →
      ((∀ r, findScope (getCtx s w.ctx) w.scope = some r → r.cancelled = true) → takeTrap s w.id t = killWave logged w.id)
      ∧ (∀ r, findScope (getCtx s w.ctx) w.scope = some r → r.cancelled = false →
        takeTrap s w.id t = cancelMark (killWave logged w.id) w.ctx r.slot)))
  ∧ (∀ (s : State) (w : Wave) (i : Instr) (t : PTrap), findWave s w.id = some w → w.hz.handler = true → 5 ≤ t.cause → t.cause ≤ 0x0B → w.popped = [] →
    (∀ x ∈ s.waves, x.id = w.id → x = w) → precisely s w i t = complete (putWave s (noteFault w t.cause t.faddr)) w.id i none)

/-! ### Events of waves and teams -/

/-- R33 to R35, R39 to R41, R65, R278, R331: the kill of a wave that waits at a kill point, is parked or is saved; retirement; a machine check of a
wave's state machine; the overrun of a NOPRE region; the acknowledgement of a cancelled scope that has quiesced, with which a grid whose root it is
ends. The address and syndrome that the event of a machine check does not carry are free values in its record (log 115). -/
def Obligations.WaveEventsComplete : Prop :=
  (∀ (s : State) (w : Wave), findWave s w.id = some w → killDue s w = true → w.ctl.stopping = false →
    (w.ctl.st = .parked ∨ w.ctl.st = .preempted ∨ ((w.ctl.st = .waiting ∨ w.ctl.st = .suspended) ∧ ((∃ t, w.ctl.wait = .hwait t)
      ∨ (∃ n, w.ctl.wait = .waitb n) ∨ w.ctl.wait = .waitt ∨ (∃ n, w.ctl.wait = .claim n) ∨ (∃ n p, w.ctl.wait = .bars n p)
      ∨ (∃ n p, w.ctl.wait = .barw n p) ∨ (∃ t d l, w.ctl.wait = .tryw t d l)))) →
    Sys2Proof.Machine.exec (.waveKill w.id) s = .next (killWave s w.id))
  ∧ (∀ (s : State) (w : Wave), findWave (settleAll s w.id) w.id = some w → retireReady (settleAll s w.id) w = true →
    Sys2Proof.Machine.exec (.waveRetire w.id) s = .next (retireWave (settleAll s w.id) w))
  ∧ (∀ (s : State) (w : Wave), findWave s w.id = some w → w.ctl.st ≠ .killed → w.ctl.st ≠ .retired → w.ctl.st ≠ .preempted →
    Sys2Proof.Machine.exec (.waveStateMachineCheck w.id) s = .next (modWave (rowRecord s (some (.row w.core)) (clusterOf w.core) 3 5 none none (miscOf w.core w.slot)) w.id
      (fun x => { x with hz := { x.hz with machineCheck := true } })))
  ∧ (∀ (s : State) (w : Wave) (t : Nat), findWave s w.id = some w → w.ctl.nopre = some t → t + 2000000 ≤ s.ns →
    Sys2Proof.Machine.exec (.nopreOverrun w.id) s = .next (putWave s { w with
      ctl := { w.ctl with nopre := none }, hz := { w.hz with overrun := true } }))
  ∧ (∀ (s : State) (ctx slot : Nat) (r : ScopeRec), (getCtx s ctx).scopes.find? (fun x => x.slot == slot) = some r → r.cancelled = true →
    scopeIdle s (getCtx s ctx) slot = true → (getCtx s ctx).status < 2 → r.grid = none →
    Sys2Proof.Machine.exec (.scopeQuiesceAck ctx slot) s = .next (freeAll
      (dropScope (if r.counter = 0 then s else bumpFor s (getCtx s ctx) r.opener r.counter) ctx slot) ctx))
  ∧ (∀ (s : State) (ctx slot g : Nat) (r : ScopeRec), (getCtx s ctx).scopes.find? (fun x => x.slot == slot) = some r → r.cancelled = true →
    scopeIdle s (getCtx s ctx) slot = true → (getCtx s ctx).status < 2 → r.grid = some g →
    let s2 := dropScope (if r.counter = 0 then s else bumpFor s (getCtx s ctx) r.opener r.counter) ctx slot
    Sys2Proof.Machine.exec (.scopeQuiesceAck ctx slot) s = .next (freeAll
      { s2 with grids := s2.grids.map (fun x => if x.id = g then { x with ended := true } else x) } ctx))

/-- R35, R43, R46, R53, R305, R306, R309: the end of an access over a link, and of the data of an NPUT, which a link may refuse; the delivery of the
trap that comes first, but not to a wave that is to be killed where it waits; the fault record of the oldest park, with PROD raised. -/
def Obligations.DeliveryEventsComplete : Prop :=
  (∀ (s : State) (w : Wave) (x : Slip) (a : Access) (got : List Got) (r : Reply), findWave s w.id = some w → findSlip s w.id x.tag = some x →
    x.ended = false → x.held = false →
    (x.op = .mem a got true → lazyLeft w x.tag = false → linkWaits s w x.tag a got = false → Sys2Proof.Machine.exec (.slipResolve w.id x.tag r) s = .next (linkEnds s w x a got r))
    ∧ (∀ m, x.op = .net m.id → s.net.msgs.find? (fun y => y.id == m.id) = some m → m.failure = none → m.op = .put →
      m.parts.any (fun p => !p.sent) = true → Sys2Proof.Machine.exec (.slipResolve w.id x.tag r) s
        = .next (if replyFails r && overLinks s (getCtx s m.ctx) m.laddr m.len then msgFail s m 0x10 else putLeaves s m)))
  ∧ (∀ (s : State) (w : Wave) (t : TrapInfo), findWave s w.id = some w →
    ((killableWait w = true → killDue s w = false) → atBoundary w = true → pendingTrap w = some t →
      Sys2Proof.Machine.exec (.trapDelivery w.id) s = .next (takeTrap s w.id t))
    ∧ (killableWait w = true → killDue s w = true → Sys2Proof.Machine.exec (.trapDelivery w.id) s = .next (killWave s w.id)))
  ∧ (∀ (s : State) (w : Wave) (p : Park) (base prod cons : W64) (n k l : Nat), findWave s w.id = some w → w.ctl.park = some p →
    faultQueue s (getCtx s w.ctx) = some (base, n, prod, cons) → p.written = false → (getCtx s w.ctx).records.head? = some w.id → n ≠ 0 →
    let c := getCtx s w.ctx
    ctxAsks s c prod 8 true = [] → ctxAsks s c cons 8 false = [] → ctxAsks s c (base + w64 (64 * (k % n))) 64 true = [] →
    ctxNat s c prod 8 = some k → ctxNat s c cons 8 = some l → (k + 2 ^ 64 - l) % 2 ^ 64 < n →
    let s2 := ctxPut (ctxPut s c (base + w64 (64 * (k % n))) (recordBytes p)) c prod (natToBytes 8 ((k + 1) % 2 ^ 64))
    Sys2Proof.Machine.exec (.faultRecordWrite w.id) s = .next (modCtx
      (modWave s2 w.id (fun x => { x with ctl := { x.ctl with park := some { p with written := true } } })) w.ctx
      (fun c => { c with records := c.records.filter (fun x => x != w.id) })))

/-- R60, R62, R68, R283, R284: PREEMPTION saves a context whose slice has ended while another waits, and goes on with one that it has begun to
save; TEAM_RESTORE brings back the saved team that
comes first among those with a core, on a core that it may take. -/
def Obligations.PreemptionEventsComplete : Prop :=
  (∀ (s : State) (ctx t p : Nat), (getCtx s ctx).since = some t → topPrio s ctx = some p → (getCtx s ctx).slice ≠ 0 →
    t + (getCtx s ctx).slice * 1000 ≤ s.ns → (getCtx s ctx).halted = false → areaFits s (getCtx s ctx) = true → otherWaits s ctx p = true →
    Sys2Proof.Machine.exec (.preemption ctx) s = .next (saveTeams s ctx false))
  ∧ (∀ (s : State) (ctx : Nat), (getCtx s ctx).halted = false → saving s ctx = true →
    Sys2Proof.Machine.exec (.preemption ctx) s = .next (saveTeams s ctx false))
  ∧ (∀ (s : State) (e : Pend) (t : Team) (core : Nat), (pendings s).find? (fun x => (pendCore s x).isSome) = some e → e.ref = .saved t →
    mayTake s (getCtx s t.ctx) (savedShape s t) (savedSlot t) (mayReturn s t) core = true →
    Sys2Proof.Machine.exec (.teamRestore t.id core) s = .next (bringBack s t core))

/-- R94, R95: a doorbell queues a batch record, or sets FULL; a batch with a good header marks its entries and advances the colour; the
drain ends when no cache holds the old colour; then the objects are copied, the entries are MOVED, and STATUS and the counter are written. That the
entry of an object which cannot be copied is freed, with RESULT 2, is the model's choice (log 118). -/
def Obligations.BinderyEventsComplete : Prop :=
  (∀ (s : State) (die : Nat) (x : W64), die < 4 → x.getLsbD 1 = false → w64 (x.toNat / 64 * 64) ≠ 0 →
    ((getBindery s die).queue.length < 16 → Sys2Proof.Machine.exec (.bdyDoorbell die x) s
      = .next (modBindery s die (fun b => { b with queue := b.queue ++ [w64 (x.toNat / 64 * 64)] })))
    ∧ (16 ≤ (getBindery s die).queue.length → Sys2Proof.Machine.exec (.bdyDoorbell die x) s = .next (modBindery s die (fun b => { b with full := true }))))
  ∧ (∀ (s : State) (die : Nat) (a : W64) (q : List W64) (c : Ctx) (d : HeapDesc), (getBindery s die).batch = none →
    (getBindery s die).queue = a :: q → ctxOfAsid s (Config.batchAsid a) = some c → headOk s c a (batchHead s c a) = true →
    heapDesc s c (batchHead s c a).heap = some d →
    let r := (List.range (batchHead s c a).count).foldl (markEnt c d a) (modBindery s die (fun b => { b with queue := b.queue.drop 1 }), [], [])
    Sys2Proof.Machine.exec (.binderyBatchStart die) s = .next (modBindery (advanceColour r.1 c (batchHead s c a).heap d) die
      (fun x => { x with batch := some a, step := 2, moving := r.2.1 })))
  ∧ (∀ (s : State) (die : Nat) (a : W64) (c : Ctx), (getBindery s die).batch = some a → ctxOfAsid s (Config.batchAsid a) = some c →
    (getBindery s die).step = 2 → (∀ x ∈ s.colours, ¬ (x.2.1 = c.id ∧ x.2.2.1 = (batchHead s c a).heap)) →
    pendingMove s c a (getBindery s die).moving = false →
    Sys2Proof.Machine.exec (.binderyDrainDone die) s = .next (modBindery s die (fun x => { x with step := 3 })))
  ∧ (∀ (s : State) (die : Nat) (a : W64) (c : Ctx) (d : HeapDesc), (getBindery s die).batch = some a → ctxOfAsid s (Config.batchAsid a) = some c →
    (getBindery s die).step = 3 → heapDesc s c (batchHead s c a).heap = some d →
    let s2 := ((getBindery s die).moving.map (fun p => (p.2, batchEnt s c a p.1))).foldl (moveEnt c a d.colour.toNat) s
    Sys2Proof.Machine.exec (.binderyBatchDone die) s = .next (modBindery
      (bindBump (ctxPut s2 c (a + 4) (natToBytes 4 0)) c (batchHead s c a).cntr) die (fun x => { x with batch := none, step := 0, moving := [] })))
  ∧ (∀ (s : State) (c : Ctx) (a : W64) (col : Nat) (p : W64) (e : BatchEnt),
    (∀ t, moveObject s c e = some t → moveEnt c a col s (p, e) = putResult (putCat t c
      { addr := p, old := e.old, new := e.new, size := e.size, pins := 0, st := 3, mcol := col }) c a e.idx 0)
    ∧ (moveObject s c e = none → moveEnt c a col s (p, e) = putResult (putCat s c
      { addr := p, old := 0, new := 0, size := 0, pins := 0, st := 0, mcol := 0 }) c a e.idx 2))

/-- R87, R242, R243: an operation starts when no lock it conflicts with is live and its unit has room; a chunk runs once what it needs is
there; a whole operation without poison ends with code 0; one to be aborted for a cancelled scope ends with code 3. -/
def Obligations.EngineEventsComplete : Prop :=
  (∀ (s : State) (o : EngOp), s.ops.find? (fun x => x.id == o.id) = some o → o.running = false → o.abort = none → lockConflict s o = false →
    (let chain := match o.kind with | .chain _ => true | _ => false
     ((unitOps s chain o.core).filter (fun x => x.running && x.engine == o.engine)).length < (if chain then 8 else 16)) →
    Sys2Proof.Machine.exec (.engineOpStart o.id) s = .next (modOp s o.id (fun x => { x with running := true })))
  ∧ (∀ (s : State) (o : EngOp), s.ops.find? (fun x => x.id == o.id) = some o → o.running = true → o.abort = none → o.fault = none →
    o.chunk < engChunks o → o.far = [] → (∀ p ∈ opPackets s o.id, p.kind ≠ 1) →
    (∀ r, chunkNeeds s o (chunkElems o o.chunk) = ([], []) → Sys2Proof.Machine.exec (.engineChunk ⟨o.id, r⟩) s = .next (runChunk s o r))
    ∧ (∀ r els, els ≠ [] → chunkNeeds s o (chunkElems o o.chunk) = ([], els) →
      Sys2Proof.Machine.exec (.engineChunk ⟨o.id, r⟩) s = .next (sendFetches s o els)))
  ∧ (∀ (s : State) (o : EngOp), s.ops.find? (fun x => x.id == o.id) = some o → o.running = true → o.abort = none → o.fault = none → o.poison = none →
    o.stage = 0 → engChunks o ≤ o.chunk → opPackets s o.id = [] → o.far = [] →
    Sys2Proof.Machine.exec (.engineOpComplete o.id) s = .next (finishOp s o 0 0 .ok 0)
    ∧ (o.comp = 0 → finishOp s o 0 0 .ok 0 = endOp (dropLocks s o.id) o 0 .ok))
  ∧ (∀ (s : State) (o : EngOp), s.ops.find? (fun x => x.id == o.id) = some o → o.abort = some .cancel → o.stage = 0 → opPackets s o.id = [] →
    o.far = [] → pastAbort o = false →
    Sys2Proof.Machine.exec (.engineOpAbort o.id) s = .next (finishOp (poisonRecord (if o.running then loseRest s o else s) o) o 0 3 .aborted 10))

/-! ### Launches and contexts -/

/-- R158, R271 to R280: the doorbell writes WIDX; a packet that is served joins the grids and is held, one that is refused records its code;
a held launch whose dependences are met becomes pending; one team is placed, from the first entry that has a core; a grid that is over
credits DONE and goes with its scopes; a context whose aborts have finished takes status 2 and raises its vector; CTX_END halts a live
context, or kills the wave that had halted it. The model's choices here: RIDX is incremented as a packet is taken (log 55, DESIGN CHOICE), a packet waits
at the queue's head while the host is asked for a page (logs 55 and 92), when the fault-service wave is placed (log 56, DEDUCED), and the instruction
lines of the ASID that a launch drops (log 57, DEDUCED). -/
def Obligations.LaunchAndEndEventsComplete : Prop :=
  (∀ (s : State) (q : Nat) (x : W32), q < 64 → (getQueue s q).en = false ∨ (x - (getQueue s q).ridx).toNat ≤ 2 ^ (getQueue s q).log2n →
    q < s.queues.length → Sys2Proof.Machine.exec (.lqDoorbell q x) s = .next (modQueue s q (fun y => { y with widx := x })))
  ∧ (∀ (s : State) (q : Nat) (h : Bool), q < 64 → s.rel.powered = true →
    let b := getQueue s q
    b.en = true → b.ridx ≠ b.widx → b.held = none → overran b = false →
    (∀ s1 code, servePacket s q (packetAt s b) h = .refused s1 code → Sys2Proof.Machine.exec (.launchPacketRead ⟨q, h⟩) s = .next (refuseLaunch s1 q code))
    ∧ (∀ s1, servePacket s q (packetAt s b) h = .wait s1 → Sys2Proof.Machine.exec (.launchPacketRead ⟨q, h⟩) s = .next s1)
    ∧ (∀ s1 g deps, servePacket s q (packetAt s b) h = .taken s1 g deps → Sys2Proof.Machine.exec (.launchPacketRead ⟨q, h⟩) s
      = .next (modQueue s1 q (fun x => { x with ridx := x.ridx + 1, held := some g.id, deps := deps }))))
  ∧ (∀ (s : State) (q : Nat) (g : Grid), (getQueue s q).held = some g.id → s.grids.find? (fun x => x.id == g.id) = some g →
    depsMet (depWords s (getQueue s q) (getCtx s g.ctx) ((getQueue s q).deps.map (·.1))) (getQueue s q).deps = true →
    let s1 := modQueue (dropDeps s q) q (fun y => { y with held := none, deps := [] })
    Sys2Proof.Machine.exec (.launchPending q) s = .next { s1 with
      nextId := s1.nextId + 1, icache := s1.icache.filter (fun l => l.asid != (getCtx s g.ctx).asid),
      grids := s1.grids.map (fun y => if y.id = g.id then { y with pending := true, order := s1.nextId, since := s1.ns } else y) })
  ∧ (∀ (s : State) (r : EntryRef) (k : Nat), s.rel.powered = true →
    let s1 := placeServices s
    (pendings s1).findSome? (fun e => (pendCore s1 e).map (fun k => (e.ref, k))) = some (r, k) →
    Sys2Proof.Machine.exec .teamPlacement s = .next (match r with
      | .task t => placeTask s1 t k | .grid g => placeGrid s1 g k | .saved t => bringBack s1 t k))
  ∧ (∀ (s : State) (g : Grid), s.grids.find? (fun x => x.id == g.id) = some g → gridOver g = true →
    let s1 := if g.done = 0 then s else bumpFor s (getCtx s g.ctx) none g.done
    Sys2Proof.Machine.exec (.gridEnd g.id) s = .next (freeAll { s1 with grids := s1.grids.filter (fun x => x.id != g.id) } g.ctx))
  ∧ (∀ (s : State) (ctx : Nat), (getCtx s ctx).status = 3 → (∀ o ∈ s.ops, o.ctx ≠ ctx) →
    Sys2Proof.Machine.exec (.contextEndInterrupt ctx) s = .next (raiseVec (setStatus s ctx 2) (getCtx s ctx).vec))
  ∧ (∀ (s : State) (x : W64) (c : Ctx),
    let s1 : State := { s with ctxEnd := w64 (x.toNat / 128 * 128) }
    heldCtx s1 (w64 (x.toNat / 128 * 128)) = some c →
    (c.halted = false → Sys2Proof.Machine.exec (.ctxEnd x) s = .next (haltCheck (haltCtx s1 c.id none) c.id))
    ∧ (∀ w, c.halted = true → c.haltWave = some w → Sys2Proof.Machine.exec (.ctxEnd x) s = .next (killWave s1 w)))

/-! ### The host link -/

/-- R307, R308: the answers to translation and page requests, an invalidation that nothing delays, a page request within the allowance, the records of
a PASID whose requests are stopped, responses of every code, and the host's write of the capability. The model's choices here: each page request is a
group of its own, under the next free index (log 63, DESIGN CHOICE), and a refusal of the host is kept for one access (`refusedPages`, log 92,
DEDUCED). -/
def Obligations.HostLinkEventsComplete : Prop :=
  (∀ (s : State) (pasid : Nat) (page : W64), (pasid, page) ∈ s.link.asked →
    let l := s.link
    let asked := l.asked.filter (fun x => x != (pasid, page))
    let gone (x : Nat × W64 × AtsEntry) : Bool := x.1 == pasid && x.2.1 == page
    let kept := l.ats.filter (fun x => !gone x)
    let left := (l.left ++ l.ats.filter gone).eraseDups
    (∀ e, Sys2Proof.Machine.exec (.atsTranslationResponse pasid page (some e)) s
      = .next (retryDues { s with link := { l with asked := asked, left := left, ats := kept ++ [(pasid, page, e)] } }))
    ∧ Sys2Proof.Machine.exec (.atsTranslationResponse pasid page none) s
      = .next (retryDues { s with link := { l with
          asked := asked, left := left, ats := kept, refusedPages := (l.refusedPages ++ [(pasid, page)]).eraseDups } }))
  ∧ (∀ (s : State) (pasid len : Nat) (va : W64),
    let hit := (s.link.ats ++ s.link.left).filter (fun x => atsCovered pasid va len x.1 x.2.1)
    (frameInUse s pasid (hit.map (fun x => x.2.2.frame.toNat / 4096)) = true → Sys2Proof.Machine.exec (.atsInvalidateRequest pasid va len) s = .next s)
    ∧ (frameInUse s pasid (hit.map (fun x => x.2.2.frame.toNat / 4096)) = false →
    Sys2Proof.Machine.exec (.atsInvalidateRequest pasid va len) s = .next { s with link := { s.link with
      ats := s.link.ats.filter (fun x => !atsCovered pasid va len x.1 x.2.1),
      left := s.link.left.filter (fun x => !atsCovered pasid va len x.1 x.2.1),
      refusedPages := s.link.refusedPages.filter (fun x => !atsCovered pasid va len x.1 x.2) } }))
  ∧ (∀ (s : State) (asid : Nat) (page : W64), pageWaves s asid page ≠ [] →
    (∀ r ∈ s.link.requests, ¬ (r.asid = asid ∧ r.page = page)) →
    (asid ∈ s.link.stopped → Sys2Proof.Machine.exec (.priPageRequest asid page) s = .next ((pageWaves s asid page).foldl (pageRecord 0xFF) s))
    ∧ (∀ g, asid ∉ s.link.stopped → s.link.requests.length < s.link.allowance → freeGroup s.link = some g →
      (∀ r ∈ s.link.requests, r.group ≠ g) ∧ Sys2Proof.Machine.exec (.priPageRequest asid page) s = .next { s with link := { s.link with
        requests := s.link.requests ++ [{ asid := asid, page := page, sent := true, group := g }], nextGroup := (g + 1) % 512 } }))
  ∧ (∀ (s : State) (group : Nat),
    let rs := s.link.requests.filter (fun r => r.group == group)
    let gone (x : Nat × W64) : Bool := rs.any (fun r => r.asid == x.1 && r.page == x.2)
    let ws := rs.flatMap (fun r => pageWaves s r.asid r.page)
    let s1 : State := { s with link := { s.link with requests := s.link.requests.filter (fun r => r.group != group) } }
    rs ≠ [] →
    (let s2 := dropAts s1 (fun a p => gone (a, p))
     Sys2Proof.Machine.exec (.priResponse group 0) s = .next (ws.foldl (fun x w => replayWave x w)
      { s2 with link := { s2.link with refusedPages := s2.link.refusedPages.filter (fun x => !gone x) } }))
    ∧ (∀ code : BitVec 4, code ≠ 0 → code ≠ 15 → Sys2Proof.Machine.exec (.priResponse group code) s = .next (ws.foldl (pageRecord code.toNat) s1))
    ∧ (let s2 := ws.foldl (pageRecord 15) s1
       Sys2Proof.Machine.exec (.priResponse group 15) s
        = .next { s2 with link := { s2.link with stopped := (s2.link.stopped ++ rs.map (·.asid)).eraseDups } }))
  ∧ (∀ (s : State) (n a : Nat), Sys2Proof.Machine.exec (.priCapabilityWrite n (some a)) s
    = .next { s with link := { s.link with allowance := n, stopped := s.link.stopped.filter (· != a) } })

/-! ### The fabric -/

/-- R82 to R84, R316, R319, R320, R322: a request of a peer that is in sequence is served and answered, and its number accepted unless its tag fails; in
a stream in which a packet has been refused a later one is refused too, until the ends resynchronise (log 45, DESIGN CHOICE); a
read that every record of which has its place answers with the values, and that of an acquire load waits while one of them lies in an uncommitted
line; a duplicate is answered again; a stale packet is dropped and counted. -/
def Obligations.FabricRequestsComplete : Prop :=
  ∀ (s : State) (pkt : Packet),
    let q := reqOf pkt
    let x := spaceIn s (reqSpace q)
    let r0 := replyTo q x.space q.seq 0
    let answer (a : Served) : State :=
      sendReply (if a.2.2 then putSpaceIn a.1 (acceptIn (spaceIn a.1 x.space) q.seq a.2.1) else a.1) a.2.1
    q.headerOk = true → s.fab.joined = true → q.dst = s.fab.id →
    (staleIn s q.src.toNat q.dinc q.sinc = false → seqCheck x q = .fresh →
      (q.kind = 0 → x.refused = false → ∃ a, serveWrite q s r0 = some a ∧ Sys2Proof.Machine.exec (.fabricWritePacket pkt) s = .next (retryDues (answer a)))
      ∧ (q.kind = 0 → x.refused = true → q.tagOk = true → Sys2Proof.Machine.exec (.fabricWritePacket pkt) s
        = .next (retryDues (answer (s, nakOf r0 1, true))))
      ∧ (∀ a, q.kind = 1 → x.refused = false → serveRead q s r0 = some a → Sys2Proof.Machine.exec (.fabricReadPacket pkt) s = .next (answer a))
      ∧ (∀ a, q.kind = 2 → x.refused = false → serveAtomic q s r0 = some a → Sys2Proof.Machine.exec (.fabricAtomicPacket pkt) s = .next (answer a))
      ∧ (∀ c ps, q.kind = 1 → x.refused = false → q.tagOk = true → servePlaces s q .load (q.recs.map (·.addr)) = some (c, ps) →
        ((q.acquire = true → ∀ p ∈ ps, placePending s p = false) → Sys2Proof.Machine.exec (.fabricReadPacket pkt) s = .next (answer (s,
          { r0 with kind := 3, results := ps.map (fun p => w64 (readNat s p.1 p.2 (tySize q.etype))), poison := recPoison s ps }, true)))
        ∧ (∀ p ∈ ps, q.acquire = true → placePending s p = true → Sys2Proof.Machine.exec (.fabricReadPacket pkt) s = .next s))
      ∧ (∀ c ps, q.kind = 2 → x.refused = false → q.tagOk = true → servePlaces s q (.atom q.aop) (q.recs.map (·.addr)) = some (c, ps) →
        ∀ p ∈ ps, placePending s p = true → Sys2Proof.Machine.exec (.fabricAtomicPacket pkt) s = .next s))
    ∧ (∀ r, staleIn s q.src.toNat q.dinc q.sinc = false → seqCheck x q = .again (some r) →
      (q.kind = 0 → Sys2Proof.Machine.exec (.fabricWritePacket pkt) s = .next (retryDues (sendReply s r)))
      ∧ (q.kind = 1 → Sys2Proof.Machine.exec (.fabricReadPacket pkt) s = .next (sendReply s r))
      ∧ (q.kind = 2 → Sys2Proof.Machine.exec (.fabricAtomicPacket pkt) s = .next (sendReply s r)))
    ∧ (staleIn s q.src.toNat q.dinc q.sinc = true → s.fab.stale ≠ BitVec.allOnes 32 →
      let t : State := { s with fab := { s.fab with stale := s.fab.stale + 1 } }
      (q.kind = 0 → Sys2Proof.Machine.exec (.fabricWritePacket pkt) s = .next (retryDues t))
      ∧ (q.kind = 1 → Sys2Proof.Machine.exec (.fabricReadPacket pkt) s = .next t)
      ∧ (q.kind = 2 → Sys2Proof.Machine.exec (.fabricAtomicPacket pkt) s = .next t))

/-- R84, R314, R318 to R322: the answers to this device's packets, one that is stale among them, the expiry of its timers, and the resynchronisation
of a stream. The model's choices here: an acknowledgement of a streamed packet answers every lower number too (log 61, DESIGN CHOICE), and a
destination takes its next number from PSTS_RESYNC and forgets the answers it has kept (log 45, DESIGN CHOICE). -/
def Obligations.FabricAnswersComplete : Prop :=
  (∀ (s : State) (ans : Answer),
    let a := ansOf ans
    a.headerOk = true → s.fab.joined = true → a.dst = s.fab.id →
    (a.kind = 5 → a.space.streamed = true → a.tagOk = true → staleIn s a.space.peer a.dinc a.sinc = false → Sys2Proof.Machine.exec (.fabricAck ans) s
      = .next (retryDues (((outIn s a.space).filter (fun p => p.first.isSome && (p.seq == a.seq || tagBefore p.seq a.seq))).foldl
          (fun x p => if p.kind = 0 then packetDone x p [] [] else x) s)))
    ∧ (∀ p, a.tagOk = true → staleIn s a.space.peer a.dinc a.sinc = false → sentPkt s a.space a.seq = some p →
      (a.kind = 5 → a.space.streamed = false → p.kind = 0 → Sys2Proof.Machine.exec (.fabricAck ans) s = .next (retryDues (packetDone s p [] [])))
      ∧ (a.kind = 6 → a.status = 1 → Sys2Proof.Machine.exec (.fabricNak ans) s = .next (retryDues (failFrom s 0x10 p)))
      ∧ (a.kind = 6 → a.status ≠ 1 → a.space.streamed = false → Sys2Proof.Machine.exec (.fabricNak ans) s = .next (retryDues (retransmit s p)))
      ∧ (a.kind = 6 → a.status ≠ 1 → a.space.streamed = true → Sys2Proof.Machine.exec (.fabricNak ans) s
        = .next (retryDues (requeue s ((outIn s a.space).map (·.id)))))
      ∧ (a.kind = 3 ∨ a.kind = 4 → p.kind ≠ 0 → a.status = 0 →
        Sys2Proof.Machine.exec (.fabricResponse ans) s = .next (retryDues (packetDone s p a.results a.poison)))
      ∧ (a.kind = 3 ∨ a.kind = 4 → p.kind ≠ 0 → a.status = 1 → Sys2Proof.Machine.exec (.fabricResponse ans) s = .next (retryDues (failFrom s 0x10 p))))
    ∧ (staleIn s a.space.peer a.dinc a.sinc = true → s.fab.stale ≠ BitVec.allOnes 32 →
      let t : State := { s with fab := { s.fab with stale := s.fab.stale + 1 } }
      (a.kind = 5 → Sys2Proof.Machine.exec (.fabricAck ans) s = .next t)
      ∧ (a.kind = 6 → Sys2Proof.Machine.exec (.fabricNak ans) s = .next t)
      ∧ (a.kind = 3 ∨ a.kind = 4 → Sys2Proof.Machine.exec (.fabricResponse ans) s = .next t)))
  ∧ (∀ (s : State) (p : OutPkt) (t : Nat), s.fab.out.find? (fun x => x.id == p.id) = some p → p.first = some t →
    (p.queued = false → p.last + 1000 * (if s.fab.rto = 0 then 1 else s.fab.rto) ≤ s.ns →
      Sys2Proof.Machine.exec (.fabricRtoExpiry p.id) s = .next (retransmit s p))
    ∧ (t + 10000 * (if s.fab.tmo = 0 then 1 else s.fab.tmo) ≤ s.ns → Sys2Proof.Machine.exec (.fabricTmoExpiry p.id) s = .next (retryDues (failFrom s 0x11 p))))
  ∧ (∀ (s : State) (sp : SeqSpace), (spaceOut s sp).resync = true → outIn s sp = [] →
    Sys2Proof.Machine.exec (.pstsResync ⟨sp, none⟩) s = .next (putSpaceOut s { spaceOut s sp with resync := false }))
  ∧ (∀ (s : State) (sp : SeqSpace) (n : W32), sp.streamed = true → Sys2Proof.Machine.exec (.pstsResync ⟨sp, some n⟩) s
    = .next (putSpaceIn s { spaceIn s sp with refused := false, expected := n, accepted := [], responses := [] }))

/-- R312, R313, R315, R316, R321, R323, R324: joining, what the manager says of a peer, planes that come up and go down, link retries, and a packet or
reply that leaves a port. The model's choice here is a later join: EN ends the joined state until it is complete, it fails what is outstanding with
0x11, and begins every sequence space anew (log 61, DESIGN CHOICE; R312 gives it the id and the incarnation). -/
def Obligations.FabricStateEventsComplete : Prop :=
  (∀ s : State, s.rel.powered = true → s.rel.links = true →
    Sys2Proof.Machine.exec .fabCtlEn s = .next { s with fab := { s.fab with en := true, joining := true, joined := false } })
  ∧ (∀ s : State, s.rel.powered = false ∨ s.rel.links = false → Sys2Proof.Machine.exec .fabCtlEn s = .next s)
  ∧ (∀ (s : State) (id : BitVec 9) (inc : BitVec 16), s.fab.joining = true → s.rel.powered = true → s.rel.links = true →
    (s.fab.everJoined = false → Sys2Proof.Machine.exec (.fabricJoin id inc) s = .next { s with fab := { s.fab with
      joined := true, joining := false, everJoined := true, id := id, inc := inc } })
    ∧ (s.fab.everJoined = true →
      let x := failAll s
      Sys2Proof.Machine.exec (.fabricJoin id inc) s = .next { x with fab := { x.fab with
        joined := true, joining := false, everJoined := true, id := s.fab.id, inc := s.fab.inc + 1, spacesOut := [], spacesIn := [] } }))
  ∧ (∀ (s : State) (peer : BitVec 9) (st : BitVec 2) (inc : BitVec 16),
    let old := assoc s.fab.peers peer.toNat (0, 0)
    let s1 : State := { s with fab := { s.fab with peers := assocPut s.fab.peers peer.toNat (some (st, inc)) } }
    (old.2 = inc → st = 1 → Sys2Proof.Machine.exec (.fabricPeerUpdate peer st inc) s = .next s1)
    ∧ (old.2 ≠ inc → Sys2Proof.Machine.exec (.fabricPeerUpdate peer st inc) s = .next (resetSpaces (failPeer s1 peer.toNat 0x12 old.2) peer.toNat))
    ∧ (old.2 = inc → st ≠ 1 → Sys2Proof.Machine.exec (.fabricPeerUpdate peer st inc) s
      = .next (resyncPeer (failPeer s1 peer.toNat 0x11 old.2) peer.toNat ((s.fab.out.map (·.space)).eraseDups))))
  ∧ (∀ (s : State) (k : Nat), s.rel.powered = true → k < 32 → k ∉ s.fab.planes → Sys2Proof.Machine.exec (.fabricPlaneUp k) s
    = .next { s with fab := { s.fab with planes := s.fab.planes ++ [k], retries := s.fab.retries.filter (fun r => r.1 != k) } })
  ∧ (∀ (s : State) (k : Nat), Sys2Proof.Machine.exec (.planeDown k) s = .next { s with fab := { s.fab with
      planes := s.fab.planes.filter (· != k), flows := s.fab.flows.filter (fun f => f.plane != k),
      retries := s.fab.retries.filter (fun r => r.1 != k) } })
  ∧ (∀ (s : State) (k flit : Nat), k ∈ s.fab.planes → flit < assoc s.fab.sent k 0 →
    let n := flitRetries s k flit
    (n < 15 → Sys2Proof.Machine.exec (.flitLinkRetry ⟨k, flit⟩) s = .next { s with fab := { s.fab with
      retries := s.fab.retries.filter (fun r => !(r.1 == k && r.2.1 == flit)) ++ [(k, flit, n + 1)] } })
    ∧ (15 ≤ n → Sys2Proof.Machine.exec (.flitLinkRetry ⟨k, flit⟩) s = Sys2Proof.Machine.exec (.planeDown k) s))
  ∧ (∀ (s : State) (k : Nat) (x : Outgoing), s.fab.joined = true → s.fab.en = true → k ∈ s.fab.planes → pickPacket s k = some x →
    Sys2Proof.Machine.exec (.fabricPacketSend k) s = .next (leaveOn s k x))

/-! ### The network -/

/-- R239, R240, R326 to R330: a packet that arrives, is parked or is turned away; a context that has been fetched; the answers to this device's
messages, with what a Congestion Experienced mark does to the send window; and the resending of a packet: after sixteen resends the connection dies
instead. The model's choices here: the send window and its count at 0x24 and 0x28 of the connection's entry (log 95, DESIGN CHOICE), and the host asked
for the page of a response, which comes again (log 92, DEDUCED). -/
def Obligations.NetworkEventsComplete : Prop :=
  (∀ (s : State) (p : NetPacket), p.tagOk = true →
    (∀ s1, s.net.cache.contains p.conn = true → cacheConn s p.conn = some s1 → Sys2Proof.Machine.exec (.netPacketArrival p) s = .next (netPlace s1 p))
    ∧ (s.net.cache.contains p.conn = false → (s.net.parked.map parkSize).foldl (· + ·) (parkSize p) ≤ 2 ^ 18 →
      Sys2Proof.Machine.exec (.netPacketArrival p) s = .next { s with net := { s.net with parked := s.net.parked ++ [p] } })
    ∧ (s.net.cache.contains p.conn = false → 2 ^ 18 < (s.net.parked.map parkSize).foldl (· + ·) (parkSize p) →
      Sys2Proof.Machine.exec (.netPacketArrival p) s = .next { s with net := { s.net with
        replies := s.net.replies ++ [{ conn := p.conn, msg := p.msg, off := p.off, status := 4, data := [] }] } }))
  ∧ (∀ (s s1 : State) (conn : Nat), s.net.parked.filter (fun p => p.conn == conn) ≠ [] → cacheConn s conn = some s1 →
    Sys2Proof.Machine.exec (.netContextFetchDone conn) s = .next ((s.net.parked.filter (fun p => p.conn == conn)).foldl netPlace
      { s1 with net := { s1.net with parked := s1.net.parked.filter (fun p => p.conn != conn) } }))
  ∧ (∀ (s : State) (a : NetAnswer) (m : NetMsg) (q : NetPart), answered s a = some m →
    m.parts.find? (fun p => p.off == a.off && p.sent && !p.acked) = some q →
    let s0 := heardAnswer s a
    (m.op = .put → Sys2Proof.Machine.exec (.netAck a) s
      = .next (flushAll (modMsg (windowAck s0 m.conn) m.id (fun _ => ackPart m a.off)) m.conn))
    ∧ (m.op = .get ∨ m.op = .atom →
      let c := getCtx s0 m.ctx
      let b := m.laddr + w64 q.off
      let m1 := ackPart m q.off
      (ctxAsks s0 c b q.len true ≠ [] → Sys2Proof.Machine.exec (.netAck a) s = .next (askAll s0 c (ctxAsks s0 c b q.len true)))
      ∧ (∀ s2, ctxAsks s0 c b q.len true = [] → ownerWrite (modMsg s0 m.id (fun _ => m1)) c b (a.data.take q.len) = some s2 →
        Sys2Proof.Machine.exec (.netAck a) s = .next (flushAll (if m1.parts.all (·.acked) then msgLocal (windowAck s2 m.conn) m1 else s2) m.conn))
      ∧ (ctxAsks s0 c b q.len true = [] → ownerWrite (modMsg s0 m.id (fun _ => m1)) c b (a.data.take q.len) = none →
        let s1 := modMsg s0 m.id (fun _ => m1)
        Sys2Proof.Machine.exec (.netAck a) s = .next (msgFail (heardAll s1 c b q.len true) m1 (lostCause s1 c b q.len true))))
    ∧ (a.status = 1 → Sys2Proof.Machine.exec (.netNak a) s = .next (msgFail (modMsg s0 m.id (fun x => ackPart x a.off)) m 0x10))
    ∧ (a.status ≠ 1 → Sys2Proof.Machine.exec (.netNak a) s = .next (modMsg s0 m.id (fun x => { x with parts := x.parts.map (fun p =>
      if p.off = a.off then { p with wanted := true, last := s.ns } else p) }))))
  ∧ (∀ (s : State) (a : NetAnswer), answered s a = none → Sys2Proof.Machine.exec (.netAck a) s = .next (heardAnswer s a)
    ∧ Sys2Proof.Machine.exec (.netNak a) s = .next (heardAnswer s a)
    ∧ (connAlive s a.conn = true → heardAnswer s a = congested s a.conn a.ce))
  ∧ (∀ (s : State) (conn : Nat), congested s conn false = s
    ∧ congested s conn true = connPut (connPut s conn 0x24 4 (max 1 (sendWindow s conn / 2))) conn 0x28 4 0)
  ∧ (∀ (s : State) (m : NetMsg) (p : NetPart), findPart s p.id = some (m, p) → p.acked = false → m.failure = none →
    (p.wanted = true → p.last + 4000 ≤ s.ns → Sys2Proof.Machine.exec (.netParkResend p.id) s = .next (resend s m p))
    ∧ (p.sent = true → p.last + 40000 ≤ s.ns → Sys2Proof.Machine.exec (.netRetransmitTimeout p.id) s = .next (resend s m p))
    ∧ (16 ≤ p.resent → resend s m p = connDead s m.conn)
    ∧ (∀ l, p.resent < 16 → m.op = .put → partData s m p = .data l →
      resend s m p = modPart s m.id p.id (fun q => { q with resent := q.resent + 1, wanted := false, last := s.ns, data := l })))

/-! ### Reliability, power and the board -/

/-- R331 to R340: errors in arrays, self-tests of a row, a lane or core logic and what they retire, a damaged lock entry, the clearing of a bank,
in-field tests, the watchdog, which fires a phase that is due whether or not a wave still waits at it (log 98, DEDUCED). The syndrome of a record whose
event carries none is a free value (log 115). -/
def Obligations.ReliabilityEventsComplete : Prop :=
  (∀ (s : State) (e : ArrayError),
    (∀ sp a h, e.site = .line sp a h → Sys2Proof.Machine.exec (.arrayUncorrectableError e) s = .next (arrayRecord (addPoison s sp (a / 64)) e 2)
      ∧ Sys2Proof.Machine.exec (.arrayCorrectedError e) s = .next (arrayRecord s e 1))
    ∧ (∀ w r m, e.site = .vreg w r m → Sys2Proof.Machine.exec (.arrayUncorrectableError e) s = .next (arrayRecord (spoilRegs s w r m) e 2)
      ∧ Sys2Proof.Machine.exec (.arrayCorrectedError e) s = .next (arrayRecord s e 1))
    ∧ (∀ core asid a n, e.site = .icache core asid a n → Sys2Proof.Machine.exec (.arrayUncorrectableError e) s = .next (spoilLine s core asid a n)
      ∧ Sys2Proof.Machine.exec (.arrayCorrectedError e) s = .next (spoilLine s core asid a n))
    ∧ ((∃ core asid base, e.site = .translation core asid base) ∨ (∃ core ctx heap, e.site = .catalogue core ctx heap) →
      Sys2Proof.Machine.exec (.arrayUncorrectableError e) s = .next (arrayRecord (dropEntry s e.site) e 1)
      ∧ Sys2Proof.Machine.exec (.arrayCorrectedError e) s = .next (arrayRecord (dropEntry s e.site) e 1)))
  ∧ (∀ (s : State) (n k row : Nat) (o : TestOutcome), (.l2Slice n, row) ∈ s.rel.tests →
    let u : FailUnit := .l2Slice n
    Sys2Proof.Machine.exec (.selfTestComplete u ⟨k, row, .pass⟩) s = .next (testOver (markBank s (12 + n / 16) (fun b => { b with transient := true })) u row none)
    ∧ (o ≠ .pass → spareUsed s.rel u k < 4 → Sys2Proof.Machine.exec (.selfTestComplete u ⟨k, row, o⟩) s
      = .next (testOver (markBank (modRel s (fun r => takeSpare r u k)) (12 + n / 16) (fun b => { b with spared := true })) u row none))
    ∧ (o ≠ .pass → 4 ≤ spareUsed s.rel u k → Sys2Proof.Machine.exec (.selfTestComplete u ⟨k, row, o⟩) s
      = .next (testOver (raiseVec (retireUnit (markBank s (12 + n / 16) (fun b => { b with retired := true })) u) s.rel.ceVec) u row none)))
  ∧ (∀ (s : State) (n row : Nat) (r : TestReport), (.l2Slice n, row) ∉ s.rel.tests → r.row = row →
    Sys2Proof.Machine.exec (.selfTestComplete (.l2Slice n) r) s = .next s)
  ∧ (∀ (s : State) (c k row : Nat) (o : TestOutcome),
    let s1 := evacuateCores (holdCore s c) (fun x => x == c)
    Sys2Proof.Machine.exec (.selfTestComplete (.core c) ⟨k, row, o⟩) s
      = .next (if coreBusy s1 c then s1 else testOver (testDone s1 (.core c) k o) (.core c) row (some c)))
  ∧ (∀ (s : State) (l : Lock), s.locks.find? (fun x => x.die == l.die && x.index == l.index) = some l →
    Sys2Proof.Machine.exec (.rangeLockEntryError l.die l.index true) s = .next (rowRecord { s with
      locks := s.locks.map (fun x => if x.die = l.die ∧ x.index = l.index then { x with damaged := true } else x),
      ops := s.ops.map (fun o => if o.id == l.op then askAbort .lock o else o) }
      (some (.lockTable l.die)) (12 + l.die) 2 1 (some (w64 l.index)) none (miscOf 0 l.index)))
  ∧ (∀ (s : State) (b : Nat), Sys2Proof.Machine.exec (.errStatusClear b) s = .next { s with rel := { s.rel with banks := assocPut s.rel.banks b none } })
  ∧ (∀ (s : State) (c : Nat), c < 12 → s.rel.testing.contains c = false → Sys2Proof.Machine.exec (.infieldTestDue c) s
    = .next (evacuateCores { s with rel := { s.rel with testing := s.rel.testing ++ [c] } } (fun x => clusterOf x == c)))
  ∧ (∀ (s : State) (c : Nat), s.rel.testing.contains c = true → ctxsOn s (fun x => clusterOf x == c) = [] →
    Sys2Proof.Machine.exec (.infieldTestEnd c []) s = .next { s with rel := { s.rel with testing := s.rel.testing.filter (· != c) } })
  ∧ (∀ (s : State) (team bar : Nat) (b : Barrier), (getTeam s team).bars[bar]? = some b → s.rel.wdgEn = true → resident (getTeam s team) = true →
    b.fired = false → barComplete b = false → 1000000 * (if s.rel.wdgTmo = 0 then 1 else s.rel.wdgTmo) ≤ b.waited →
    let ws := s.waves.filter (fun (w : Wave) => w.team == team && !killDue s w && (match w.ctl.wait with | .bars m _ | .barw m _ => m == bar | _ => false))
    Sys2Proof.Machine.exec (.watchdogFire team bar) s = .next (ws.foldl (fireAt bar (barStatus b) b.phase)
      (modTeam s team (fun x => { x with bars := setAt x.bars bar { b with fired := true } }))))

/-- R281, R287, R338, R343 to R348: the crossbar's commit, swap and recovery, the latency window, alarms, firmware, power modes, the governor, hot and
drooping cores, bring-up and the loss of main power. The model's choices here: what becomes of SEQ and of a STATE of 0, 2 or 3 that is written, and the
copy at a boot with STATE 2 or 3 (log 66, DESIGN CHOICE), the images that run as a list (log 99, DESIGN CHOICE), and what a loss of main power keeps
(log 65, DEDUCED), HBM reading as at reset (log 1, DESIGN CHOICE). -/
def Obligations.BoardEventsComplete : Prop :=
  (∀ (s : State) (x : W64), x.getLsbD 2 = false →
    (x.toNat % 4 = 1 → s.rel.commit ≠ 3 →
      Sys2Proof.Machine.exec (.xbarCommitPrepare x) s = .next { s with rel := { s.rel with commit := 1, seq := w32 (x.toNat / 2 ^ 32) } })
    ∧ (x.toNat % 4 = 1 → s.rel.commit = 3 →
      Sys2Proof.Machine.exec (.xbarCommitPrepare x) s = .next { s with rel := { s.rel with seq := w32 (x.toNat / 2 ^ 32) } })
    ∧ (x.toNat % 4 ≠ 1 →
      Sys2Proof.Machine.exec (.xbarCommitPrepare x) s = .next { s with rel := { s.rel with commit := x.toNat % 4, seq := w32 (x.toNat / 2 ^ 32) } }))
  ∧ (∀ s : State, (s.rel.commit = 1 → s.rel.cksum = shadowSum s →
      Sys2Proof.Machine.exec .xbarSwap s = .next { s with rel := { s.rel with act := s.rel.shd, commit := 2 } }
      ∧ Sys2Proof.Machine.exec .mpWatchdogReset s = .next { s with rel := { s.rel with act := s.rel.shd, commit := 2 } })
    ∧ (s.rel.commit ≠ 1 ∨ s.rel.cksum ≠ shadowSum s → Sys2Proof.Machine.exec .xbarSwap s = .next { s with rel := { s.rel with badSum := true } })
    ∧ (s.rel.commit = 1 → s.rel.cksum ≠ shadowSum s →
      Sys2Proof.Machine.exec .mpWatchdogReset s = .next { s with rel := { s.rel with shd := s.rel.act, commit := 0 } })
    ∧ (s.rel.commit ≠ 1 → Sys2Proof.Machine.exec .mpWatchdogReset s = .next { s with rel := { s.rel with shd := s.rel.act } }))
  ∧ (∀ s : State, (s.latWin < s.ns / 10 ^ 7 → ∃ t, Sys2Proof.Machine.exec .latencyWindowEnd s = .next t ∧ t.rel.samples = [] ∧ t.latWin = s.ns / 10 ^ 7)
    ∧ (s.ns / 10 ^ 7 ≤ s.latWin → Sys2Proof.Machine.exec .latencyWindowEnd s = .next s))
  ∧ (∀ (s : State) (k : BitVec 2), Sys2Proof.Machine.exec (.securityAlarm k) s = .next (alarm s k.toNat)
    ∧ (s.rel.erase = true → s.rel.keys = true → (alarm s k.toNat).rel.keys = false))
  ∧ (∀ (s : State) (i : FirmwareImage), i.rsaOk = true → i.slhOk = true → s.rel.minVersion ≤ i.version →
    i.management = true ∨ s.rel.mpRunning = true → Sys2Proof.Machine.exec (.firmwareImageVerify i) s = .next { s with rel := { s.rel with
      images := s.rel.images.filter (fun x => x.name != i.name) ++ [i], mpRunning := s.rel.mpRunning || i.management } })
  ∧ (∀ (s : State) (i : FirmwareImage), i.rsaOk = false ∨ i.slhOk = false ∨ i.version < s.rel.minVersion → i.management = true ∨ s.rel.mpRunning = true →
    Sys2Proof.Machine.exec (.firmwareImageVerify i) s = .next (alarm s 3))
  ∧ (∀ (s : State) (x : W64), Sys2Proof.Machine.exec (.pwrMode x) s
    = .next { s with rel := { s.rel with pwr := BitVec.ofNat 2 (x.toNat % 4), pwrGoal := some (BitVec.ofNat 2 (x.toNat % 4)) } })
  ∧ (∀ s : State, Sys2Proof.Machine.exec .pwrModeChangeComplete s = .next { s with rel := { s.rel with pwrGoal := none } })
  ∧ (∀ s : State, (s.govWin < govNow s → Sys2Proof.Machine.exec .governorWindow s = .next { s with units := [], govWin := govNow s })
    ∧ (govNow s ≤ s.govWin → Sys2Proof.Machine.exec .governorWindow s = .next s))
  ∧ (∀ (s : State) (c t : Nat), (s.hiTemp < t → s.hot.contains c = false → Sys2Proof.Machine.exec (.coreHotMark c t) s = .next { s with hot := s.hot ++ [c] })
    ∧ (t ≤ s.hiTemp → t < lowTemp s → Sys2Proof.Machine.exec (.coreHotMark c t) s = .next { s with hot := s.hot.filter (· != c) }))
  ∧ (∀ (s : State) (c : Nat), ∃ t, Sys2Proof.Machine.exec (.coreDroop c) s = .next t ∧ (c, droopWin s) ∈ t.droops
    ∧ (∀ k, k ≠ c → ((c, k) ∈ t.skipped ↔ (c, k) ∈ s.skipped)))
  ∧ (∀ (s : State) (i : FirmwareImage) (rows : List W64), s.rel.powered = false → i.rsaOk = true → i.slhOk = true → s.rel.minVersion ≤ i.version →
    ∃ t, Sys2Proof.Machine.exec (.powerOn i rows) s = .next t ∧ t.rel.powered = true ∧ t.rel.mpRunning = true ∧ t.rel.links = true ∧ t.rel.commit = 2
      ∧ t.rel.act = rows96 rows ∧ t.rel.shd = rows96 rows ∧ t.waves = s.waves ∧ t.hbm = s.hbm)
  ∧ (∀ s : State, ∃ t, Sys2Proof.Machine.exec .mainPowerLoss s = .next t ∧ t.hbm = [] ∧ t.waves = [] ∧ t.teams = [] ∧ t.ctxs = [] ∧ t.host = s.host
    ∧ t.cxl = s.cxl ∧ t.rel.powered = false ∧ t.rel.minVersion = s.rel.minVersion)

/-- R273, R310, R336, R340, R349: writes to registers of BAR 0 by the agent that may write them, which no other agent's write changes, and
accesses of the host to HBM. That one which runs beyond HBM stops with the fault barOutside is the model's choice (log 31, DESIGN CHOICE): R310 gives
the window and not what lies beyond it. -/
def Obligations.RegisterAccessCompletes : Prop :=
  (∀ (s : State) (x : W64), s.rel.links = true →
    (∀ q, q < 64 → Sys2Proof.Machine.exec (.registerWrite .host (0x1000 + 32 * q) x) s
      = .next (modQueue s q (fun y => { y with base := w64 (x.toNat / 256 * 256) })))
    ∧ (∀ q, q < 64 → Sys2Proof.Machine.exec (.registerWrite .host (0x1008 + 32 * q) x) s = .next (modQueue s q (fun y => { y with
      en := bitAt x.toNat 31, prio := min (bits x.toNat 16 6) 47, log2n := min (bits x.toNat 0 5) 16 })))
    ∧ Sys2Proof.Machine.exec (.registerWrite .host 0x20008 x) s = .next { s with net := { s.net with winBase := x } }
    ∧ Sys2Proof.Machine.exec (.registerWrite .host 0x41000 x) s = .next { s with rel := { s.rel with
      errThresh := bits x.toNat 48 16, alVec := bits x.toNat 30 10, latVec := bits x.toNat 20 10, mcVec := bits x.toNat 10 10,
      ceVec := bits x.toNat 0 10 } }
    ∧ Sys2Proof.Machine.exec (.registerWrite .host 0x70000 x) s
      = .next (fireDue { s with rel := { s.rel with wdgEn := bitAt x.toNat 31, wdgTmo := x.toNat % 65536 } })
    ∧ Sys2Proof.Machine.exec (.registerWrite .host 0x10010 x) s = .next { s with fab := { s.fab with stale := s.fab.stale &&& ~~~ w32 x.toNat } })
  ∧ (∀ (s : State) (x : W64), s.rel.mpRunning = true →
    Sys2Proof.Machine.exec (.registerWrite .mp 0x2000 x) s = .next { s with hiTemp := bits x.toNat 8 8, loTemp := bits x.toNat 0 8 }
    ∧ Sys2Proof.Machine.exec (.registerWrite .mp 0x2008 x) s = .next { s with govEn := bitAt x.toNat 31, govBudget := bits x.toNat 0 8 }
    ∧ Sys2Proof.Machine.exec (.registerWrite .mp 0x53000 x) s = .next { s with rel := { s.rel with cksum := w32 x.toNat } })
  ∧ (∀ (s : State) (o : Nat) (x : W64), Sys2Proof.Machine.exec (.registerWrite .other o x) s = .next s)
  ∧ (∀ (s : State) (a n : Nat), a + n ≤ 0x8000000000 → s.rel.links = true →
    (∀ l : List Byte, l.length = n → Sys2Proof.Machine.exec (.hostBarAccess a n (some l)) s = .next (writeRange s .hbm a l))
    ∧ Sys2Proof.Machine.exec (.hostBarAccess a n none) s = .next { s with link := { s.link with barRead := memGets s.hbm a n } })
  ∧ (∀ (s : State) (a n : Nat) (st : Option (List Byte)), 0x8000000000 < a + n → Sys2Proof.Machine.exec (.hostBarAccess a n st) s = .fault .barOutside)
end

