-- ==== Sys2Proof/Laws/State.lean ====
section
/-! SUPPORT. The small lemmas of State's operations: what each leaves and changes. -/

namespace Sys2Proof.Machine

/-! ### What an update in place leaves: every field but its own -/

@[simp] theorem putWave_hbm (s : State) (w : Wave) : (putWave s w).hbm = s.hbm := rfl
@[simp] theorem putWave_cxl (s : State) (w : Wave) : (putWave s w).cxl = s.cxl := rfl
@[simp] theorem putWave_host (s : State) (w : Wave) : (putWave s w).host = s.host := rfl
@[simp] theorem putWave_poison (s : State) (w : Wave) : (putWave s w).poison = s.poison := rfl
@[simp] theorem putWave_pending (s : State) (w : Wave) : (putWave s w).pending = s.pending := rfl
@[simp] theorem putWave_clk (s : State) (w : Wave) : (putWave s w).clk = s.clk := rfl
@[simp] theorem putWave_ns (s : State) (w : Wave) : (putWave s w).ns = s.ns := rfl
@[simp] theorem putWave_teams (s : State) (w : Wave) : (putWave s w).teams = s.teams := rfl
@[simp] theorem putWave_ctxs (s : State) (w : Wave) : (putWave s w).ctxs = s.ctxs := rfl
@[simp] theorem putWave_grids (s : State) (w : Wave) : (putWave s w).grids = s.grids := rfl
@[simp] theorem putWave_tasks (s : State) (w : Wave) : (putWave s w).tasks = s.tasks := rfl
@[simp] theorem putWave_queues (s : State) (w : Wave) : (putWave s w).queues = s.queues := rfl
@[simp] theorem putWave_ops (s : State) (w : Wave) : (putWave s w).ops = s.ops := rfl
@[simp] theorem putWave_locks (s : State) (w : Wave) : (putWave s w).locks = s.locks := rfl
@[simp] theorem putWave_mmas (s : State) (w : Wave) : (putWave s w).mmas = s.mmas := rfl
@[simp] theorem putWave_units (s : State) (w : Wave) : (putWave s w).units = s.units := rfl
@[simp] theorem putWave_bindery (s : State) (w : Wave) : (putWave s w).bindery = s.bindery := rfl
@[simp] theorem putWave_colours (s : State) (w : Wave) : (putWave s w).colours = s.colours := rfl
@[simp] theorem putWave_fab (s : State) (w : Wave) : (putWave s w).fab = s.fab := rfl
@[simp] theorem putWave_net (s : State) (w : Wave) : (putWave s w).net = s.net := rfl
@[simp] theorem putWave_rel (s : State) (w : Wave) : (putWave s w).rel = s.rel := rfl
@[simp] theorem putWave_link (s : State) (w : Wave) : (putWave s w).link = s.link := rfl
@[simp] theorem putWave_tlb (s : State) (w : Wave) : (putWave s w).tlb = s.tlb := rfl
@[simp] theorem putWave_icache (s : State) (w : Wave) : (putWave s w).icache = s.icache := rfl
@[simp] theorem putWave_hiTemp (s : State) (w : Wave) : (putWave s w).hiTemp = s.hiTemp := rfl
@[simp] theorem putWave_loTemp (s : State) (w : Wave) : (putWave s w).loTemp = s.loTemp := rfl
@[simp] theorem putWave_hot (s : State) (w : Wave) : (putWave s w).hot = s.hot := rfl
@[simp] theorem putWave_droops (s : State) (w : Wave) : (putWave s w).droops = s.droops := rfl
@[simp] theorem putWave_skipped (s : State) (w : Wave) : (putWave s w).skipped = s.skipped := rfl
@[simp] theorem putWave_govEn (s : State) (w : Wave) : (putWave s w).govEn = s.govEn := rfl
@[simp] theorem putWave_govBudget (s : State) (w : Wave) : (putWave s w).govBudget = s.govBudget := rfl
@[simp] theorem putWave_govWin (s : State) (w : Wave) : (putWave s w).govWin = s.govWin := rfl
@[simp] theorem putWave_latWin (s : State) (w : Wave) : (putWave s w).latWin = s.latWin := rfl
@[simp] theorem putWave_dues (s : State) (w : Wave) : (putWave s w).dues = s.dues := rfl
@[simp] theorem putWave_refusals (s : State) (w : Wave) : (putWave s w).refusals = s.refusals := rfl
@[simp] theorem putWave_ctxEnd (s : State) (w : Wave) : (putWave s w).ctxEnd = s.ctxEnd := rfl
@[simp] theorem putWave_cxltBase (s : State) (w : Wave) : (putWave s w).cxltBase = s.cxltBase := rfl
@[simp] theorem putWave_cxltSize (s : State) (w : Wave) : (putWave s w).cxltSize = s.cxltSize := rfl
@[simp] theorem putWave_serials (s : State) (w : Wave) : (putWave s w).serials = s.serials := rfl
@[simp] theorem putWave_interrupts (s : State) (w : Wave) : (putWave s w).interrupts = s.interrupts := rfl
@[simp] theorem putWave_mpInterrupts (s : State) (w : Wave) : (putWave s w).mpInterrupts = s.mpInterrupts := rfl
@[simp] theorem putWave_regions (s : State) (w : Wave) : (putWave s w).regions = s.regions := rfl
@[simp] theorem putWave_accEnds (s : State) (w : Wave) : (putWave s w).accEnds = s.accEnds := rfl
@[simp] theorem putWave_agenda (s : State) (w : Wave) : (putWave s w).agenda = s.agenda := rfl
@[simp] theorem putWave_cur (s : State) (w : Wave) : (putWave s w).cur = s.cur := rfl
@[simp] theorem putWave_free (s : State) (w : Wave) : (putWave s w).free = s.free := rfl
@[simp] theorem putWave_nextId (s : State) (w : Wave) : (putWave s w).nextId = s.nextId := rfl
@[simp] theorem putWave_getTeam (s : State) (w : Wave) (n : Nat) : getTeam (putWave s w) n = getTeam s n := rfl
@[simp] theorem putWave_getCtx (s : State) (w : Wave) (n : Nat) : getCtx (putWave s w) n = getCtx s n := rfl

@[simp] theorem modWave_hbm (s : State) (n : Nat) (g : Wave → Wave) : (modWave s n g).hbm = s.hbm := rfl
@[simp] theorem modWave_cxl (s : State) (n : Nat) (g : Wave → Wave) : (modWave s n g).cxl = s.cxl := rfl
@[simp] theorem modWave_host (s : State) (n : Nat) (g : Wave → Wave) : (modWave s n g).host = s.host := rfl
@[simp] theorem modWave_poison (s : State) (n : Nat) (g : Wave → Wave) : (modWave s n g).poison = s.poison := rfl
@[simp] theorem modWave_pending (s : State) (n : Nat) (g : Wave → Wave) : (modWave s n g).pending = s.pending := rfl
@[simp] theorem modWave_clk (s : State) (n : Nat) (g : Wave → Wave) : (modWave s n g).clk = s.clk := rfl
@[simp] theorem modWave_ns (s : State) (n : Nat) (g : Wave → Wave) : (modWave s n g).ns = s.ns := rfl
@[simp] theorem modWave_teams (s : State) (n : Nat) (g : Wave → Wave) : (modWave s n g).teams = s.teams := rfl
@[simp] theorem modWave_ctxs (s : State) (n : Nat) (g : Wave → Wave) : (modWave s n g).ctxs = s.ctxs := rfl
@[simp] theorem modWave_grids (s : State) (n : Nat) (g : Wave → Wave) : (modWave s n g).grids = s.grids := rfl
@[simp] theorem modWave_tasks (s : State) (n : Nat) (g : Wave → Wave) : (modWave s n g).tasks = s.tasks := rfl
@[simp] theorem modWave_queues (s : State) (n : Nat) (g : Wave → Wave) : (modWave s n g).queues = s.queues := rfl
@[simp] theorem modWave_ops (s : State) (n : Nat) (g : Wave → Wave) : (modWave s n g).ops = s.ops := rfl
@[simp] theorem modWave_locks (s : State) (n : Nat) (g : Wave → Wave) : (modWave s n g).locks = s.locks := rfl
@[simp] theorem modWave_mmas (s : State) (n : Nat) (g : Wave → Wave) : (modWave s n g).mmas = s.mmas := rfl
@[simp] theorem modWave_units (s : State) (n : Nat) (g : Wave → Wave) : (modWave s n g).units = s.units := rfl
@[simp] theorem modWave_bindery (s : State) (n : Nat) (g : Wave → Wave) : (modWave s n g).bindery = s.bindery := rfl
@[simp] theorem modWave_colours (s : State) (n : Nat) (g : Wave → Wave) : (modWave s n g).colours = s.colours := rfl
@[simp] theorem modWave_fab (s : State) (n : Nat) (g : Wave → Wave) : (modWave s n g).fab = s.fab := rfl
@[simp] theorem modWave_net (s : State) (n : Nat) (g : Wave → Wave) : (modWave s n g).net = s.net := rfl
@[simp] theorem modWave_rel (s : State) (n : Nat) (g : Wave → Wave) : (modWave s n g).rel = s.rel := rfl
@[simp] theorem modWave_link (s : State) (n : Nat) (g : Wave → Wave) : (modWave s n g).link = s.link := rfl
@[simp] theorem modWave_tlb (s : State) (n : Nat) (g : Wave → Wave) : (modWave s n g).tlb = s.tlb := rfl
@[simp] theorem modWave_icache (s : State) (n : Nat) (g : Wave → Wave) : (modWave s n g).icache = s.icache := rfl
@[simp] theorem modWave_hiTemp (s : State) (n : Nat) (g : Wave → Wave) : (modWave s n g).hiTemp = s.hiTemp := rfl
@[simp] theorem modWave_loTemp (s : State) (n : Nat) (g : Wave → Wave) : (modWave s n g).loTemp = s.loTemp := rfl
@[simp] theorem modWave_hot (s : State) (n : Nat) (g : Wave → Wave) : (modWave s n g).hot = s.hot := rfl
@[simp] theorem modWave_droops (s : State) (n : Nat) (g : Wave → Wave) : (modWave s n g).droops = s.droops := rfl
@[simp] theorem modWave_skipped (s : State) (n : Nat) (g : Wave → Wave) : (modWave s n g).skipped = s.skipped := rfl
@[simp] theorem modWave_govEn (s : State) (n : Nat) (g : Wave → Wave) : (modWave s n g).govEn = s.govEn := rfl
@[simp] theorem modWave_govBudget (s : State) (n : Nat) (g : Wave → Wave) : (modWave s n g).govBudget = s.govBudget := rfl
@[simp] theorem modWave_govWin (s : State) (n : Nat) (g : Wave → Wave) : (modWave s n g).govWin = s.govWin := rfl
@[simp] theorem modWave_latWin (s : State) (n : Nat) (g : Wave → Wave) : (modWave s n g).latWin = s.latWin := rfl
@[simp] theorem modWave_dues (s : State) (n : Nat) (g : Wave → Wave) : (modWave s n g).dues = s.dues := rfl
@[simp] theorem modWave_refusals (s : State) (n : Nat) (g : Wave → Wave) : (modWave s n g).refusals = s.refusals := rfl
@[simp] theorem modWave_ctxEnd (s : State) (n : Nat) (g : Wave → Wave) : (modWave s n g).ctxEnd = s.ctxEnd := rfl
@[simp] theorem modWave_cxltBase (s : State) (n : Nat) (g : Wave → Wave) : (modWave s n g).cxltBase = s.cxltBase := rfl
@[simp] theorem modWave_cxltSize (s : State) (n : Nat) (g : Wave → Wave) : (modWave s n g).cxltSize = s.cxltSize := rfl
@[simp] theorem modWave_serials (s : State) (n : Nat) (g : Wave → Wave) : (modWave s n g).serials = s.serials := rfl
@[simp] theorem modWave_interrupts (s : State) (n : Nat) (g : Wave → Wave) : (modWave s n g).interrupts = s.interrupts := rfl
@[simp] theorem modWave_mpInterrupts (s : State) (n : Nat) (g : Wave → Wave) : (modWave s n g).mpInterrupts = s.mpInterrupts := rfl
@[simp] theorem modWave_regions (s : State) (n : Nat) (g : Wave → Wave) : (modWave s n g).regions = s.regions := rfl
@[simp] theorem modWave_accEnds (s : State) (n : Nat) (g : Wave → Wave) : (modWave s n g).accEnds = s.accEnds := rfl
@[simp] theorem modWave_agenda (s : State) (n : Nat) (g : Wave → Wave) : (modWave s n g).agenda = s.agenda := rfl
@[simp] theorem modWave_cur (s : State) (n : Nat) (g : Wave → Wave) : (modWave s n g).cur = s.cur := rfl
@[simp] theorem modWave_free (s : State) (n : Nat) (g : Wave → Wave) : (modWave s n g).free = s.free := rfl
@[simp] theorem modWave_nextId (s : State) (n : Nat) (g : Wave → Wave) : (modWave s n g).nextId = s.nextId := rfl
@[simp] theorem modWave_getTeam (s : State) (n : Nat) (g : Wave → Wave) (k : Nat) : getTeam (modWave s n g) k = getTeam s k := rfl
@[simp] theorem modWave_getCtx (s : State) (n : Nat) (g : Wave → Wave) (k : Nat) : getCtx (modWave s n g) k = getCtx s k := rfl

@[simp] theorem modTeam_hbm (s : State) (n : Nat) (g : Team → Team) : (modTeam s n g).hbm = s.hbm := rfl
@[simp] theorem modTeam_cxl (s : State) (n : Nat) (g : Team → Team) : (modTeam s n g).cxl = s.cxl := rfl
@[simp] theorem modTeam_host (s : State) (n : Nat) (g : Team → Team) : (modTeam s n g).host = s.host := rfl
@[simp] theorem modTeam_poison (s : State) (n : Nat) (g : Team → Team) : (modTeam s n g).poison = s.poison := rfl
@[simp] theorem modTeam_pending (s : State) (n : Nat) (g : Team → Team) : (modTeam s n g).pending = s.pending := rfl
@[simp] theorem modTeam_clk (s : State) (n : Nat) (g : Team → Team) : (modTeam s n g).clk = s.clk := rfl
@[simp] theorem modTeam_ns (s : State) (n : Nat) (g : Team → Team) : (modTeam s n g).ns = s.ns := rfl
@[simp] theorem modTeam_waves (s : State) (n : Nat) (g : Team → Team) : (modTeam s n g).waves = s.waves := rfl
@[simp] theorem modTeam_ctxs (s : State) (n : Nat) (g : Team → Team) : (modTeam s n g).ctxs = s.ctxs := rfl
@[simp] theorem modTeam_grids (s : State) (n : Nat) (g : Team → Team) : (modTeam s n g).grids = s.grids := rfl
@[simp] theorem modTeam_tasks (s : State) (n : Nat) (g : Team → Team) : (modTeam s n g).tasks = s.tasks := rfl
@[simp] theorem modTeam_queues (s : State) (n : Nat) (g : Team → Team) : (modTeam s n g).queues = s.queues := rfl
@[simp] theorem modTeam_ops (s : State) (n : Nat) (g : Team → Team) : (modTeam s n g).ops = s.ops := rfl
@[simp] theorem modTeam_locks (s : State) (n : Nat) (g : Team → Team) : (modTeam s n g).locks = s.locks := rfl
@[simp] theorem modTeam_mmas (s : State) (n : Nat) (g : Team → Team) : (modTeam s n g).mmas = s.mmas := rfl
@[simp] theorem modTeam_units (s : State) (n : Nat) (g : Team → Team) : (modTeam s n g).units = s.units := rfl
@[simp] theorem modTeam_bindery (s : State) (n : Nat) (g : Team → Team) : (modTeam s n g).bindery = s.bindery := rfl
@[simp] theorem modTeam_colours (s : State) (n : Nat) (g : Team → Team) : (modTeam s n g).colours = s.colours := rfl
@[simp] theorem modTeam_fab (s : State) (n : Nat) (g : Team → Team) : (modTeam s n g).fab = s.fab := rfl
@[simp] theorem modTeam_net (s : State) (n : Nat) (g : Team → Team) : (modTeam s n g).net = s.net := rfl
@[simp] theorem modTeam_rel (s : State) (n : Nat) (g : Team → Team) : (modTeam s n g).rel = s.rel := rfl
@[simp] theorem modTeam_link (s : State) (n : Nat) (g : Team → Team) : (modTeam s n g).link = s.link := rfl
@[simp] theorem modTeam_tlb (s : State) (n : Nat) (g : Team → Team) : (modTeam s n g).tlb = s.tlb := rfl
@[simp] theorem modTeam_icache (s : State) (n : Nat) (g : Team → Team) : (modTeam s n g).icache = s.icache := rfl
@[simp] theorem modTeam_hiTemp (s : State) (n : Nat) (g : Team → Team) : (modTeam s n g).hiTemp = s.hiTemp := rfl
@[simp] theorem modTeam_loTemp (s : State) (n : Nat) (g : Team → Team) : (modTeam s n g).loTemp = s.loTemp := rfl
@[simp] theorem modTeam_hot (s : State) (n : Nat) (g : Team → Team) : (modTeam s n g).hot = s.hot := rfl
@[simp] theorem modTeam_droops (s : State) (n : Nat) (g : Team → Team) : (modTeam s n g).droops = s.droops := rfl
@[simp] theorem modTeam_skipped (s : State) (n : Nat) (g : Team → Team) : (modTeam s n g).skipped = s.skipped := rfl
@[simp] theorem modTeam_govEn (s : State) (n : Nat) (g : Team → Team) : (modTeam s n g).govEn = s.govEn := rfl
@[simp] theorem modTeam_govBudget (s : State) (n : Nat) (g : Team → Team) : (modTeam s n g).govBudget = s.govBudget := rfl
@[simp] theorem modTeam_govWin (s : State) (n : Nat) (g : Team → Team) : (modTeam s n g).govWin = s.govWin := rfl
@[simp] theorem modTeam_latWin (s : State) (n : Nat) (g : Team → Team) : (modTeam s n g).latWin = s.latWin := rfl
@[simp] theorem modTeam_dues (s : State) (n : Nat) (g : Team → Team) : (modTeam s n g).dues = s.dues := rfl
@[simp] theorem modTeam_refusals (s : State) (n : Nat) (g : Team → Team) : (modTeam s n g).refusals = s.refusals := rfl
@[simp] theorem modTeam_ctxEnd (s : State) (n : Nat) (g : Team → Team) : (modTeam s n g).ctxEnd = s.ctxEnd := rfl
@[simp] theorem modTeam_cxltBase (s : State) (n : Nat) (g : Team → Team) : (modTeam s n g).cxltBase = s.cxltBase := rfl
@[simp] theorem modTeam_cxltSize (s : State) (n : Nat) (g : Team → Team) : (modTeam s n g).cxltSize = s.cxltSize := rfl
@[simp] theorem modTeam_serials (s : State) (n : Nat) (g : Team → Team) : (modTeam s n g).serials = s.serials := rfl
@[simp] theorem modTeam_interrupts (s : State) (n : Nat) (g : Team → Team) : (modTeam s n g).interrupts = s.interrupts := rfl
@[simp] theorem modTeam_mpInterrupts (s : State) (n : Nat) (g : Team → Team) : (modTeam s n g).mpInterrupts = s.mpInterrupts := rfl
@[simp] theorem modTeam_regions (s : State) (n : Nat) (g : Team → Team) : (modTeam s n g).regions = s.regions := rfl
@[simp] theorem modTeam_accEnds (s : State) (n : Nat) (g : Team → Team) : (modTeam s n g).accEnds = s.accEnds := rfl
@[simp] theorem modTeam_agenda (s : State) (n : Nat) (g : Team → Team) : (modTeam s n g).agenda = s.agenda := rfl
@[simp] theorem modTeam_cur (s : State) (n : Nat) (g : Team → Team) : (modTeam s n g).cur = s.cur := rfl
@[simp] theorem modTeam_free (s : State) (n : Nat) (g : Team → Team) : (modTeam s n g).free = s.free := rfl
@[simp] theorem modTeam_nextId (s : State) (n : Nat) (g : Team → Team) : (modTeam s n g).nextId = s.nextId := rfl
@[simp] theorem modTeam_findWave (s : State) (n : Nat) (g : Team → Team) (k : Nat) : findWave (modTeam s n g) k = findWave s k := rfl
@[simp] theorem modTeam_getCtx (s : State) (n : Nat) (g : Team → Team) (k : Nat) : getCtx (modTeam s n g) k = getCtx s k := rfl

@[simp] theorem modCtx_hbm (s : State) (n : Nat) (g : Ctx → Ctx) : (modCtx s n g).hbm = s.hbm := rfl
@[simp] theorem modCtx_cxl (s : State) (n : Nat) (g : Ctx → Ctx) : (modCtx s n g).cxl = s.cxl := rfl
@[simp] theorem modCtx_host (s : State) (n : Nat) (g : Ctx → Ctx) : (modCtx s n g).host = s.host := rfl
@[simp] theorem modCtx_poison (s : State) (n : Nat) (g : Ctx → Ctx) : (modCtx s n g).poison = s.poison := rfl
@[simp] theorem modCtx_pending (s : State) (n : Nat) (g : Ctx → Ctx) : (modCtx s n g).pending = s.pending := rfl
@[simp] theorem modCtx_clk (s : State) (n : Nat) (g : Ctx → Ctx) : (modCtx s n g).clk = s.clk := rfl
@[simp] theorem modCtx_ns (s : State) (n : Nat) (g : Ctx → Ctx) : (modCtx s n g).ns = s.ns := rfl
@[simp] theorem modCtx_waves (s : State) (n : Nat) (g : Ctx → Ctx) : (modCtx s n g).waves = s.waves := rfl
@[simp] theorem modCtx_teams (s : State) (n : Nat) (g : Ctx → Ctx) : (modCtx s n g).teams = s.teams := rfl
@[simp] theorem modCtx_grids (s : State) (n : Nat) (g : Ctx → Ctx) : (modCtx s n g).grids = s.grids := rfl
@[simp] theorem modCtx_tasks (s : State) (n : Nat) (g : Ctx → Ctx) : (modCtx s n g).tasks = s.tasks := rfl
@[simp] theorem modCtx_queues (s : State) (n : Nat) (g : Ctx → Ctx) : (modCtx s n g).queues = s.queues := rfl
@[simp] theorem modCtx_ops (s : State) (n : Nat) (g : Ctx → Ctx) : (modCtx s n g).ops = s.ops := rfl
@[simp] theorem modCtx_locks (s : State) (n : Nat) (g : Ctx → Ctx) : (modCtx s n g).locks = s.locks := rfl
@[simp] theorem modCtx_mmas (s : State) (n : Nat) (g : Ctx → Ctx) : (modCtx s n g).mmas = s.mmas := rfl
@[simp] theorem modCtx_units (s : State) (n : Nat) (g : Ctx → Ctx) : (modCtx s n g).units = s.units := rfl
@[simp] theorem modCtx_bindery (s : State) (n : Nat) (g : Ctx → Ctx) : (modCtx s n g).bindery = s.bindery := rfl
@[simp] theorem modCtx_colours (s : State) (n : Nat) (g : Ctx → Ctx) : (modCtx s n g).colours = s.colours := rfl
@[simp] theorem modCtx_fab (s : State) (n : Nat) (g : Ctx → Ctx) : (modCtx s n g).fab = s.fab := rfl
@[simp] theorem modCtx_net (s : State) (n : Nat) (g : Ctx → Ctx) : (modCtx s n g).net = s.net := rfl
@[simp] theorem modCtx_rel (s : State) (n : Nat) (g : Ctx → Ctx) : (modCtx s n g).rel = s.rel := rfl
@[simp] theorem modCtx_link (s : State) (n : Nat) (g : Ctx → Ctx) : (modCtx s n g).link = s.link := rfl
@[simp] theorem modCtx_tlb (s : State) (n : Nat) (g : Ctx → Ctx) : (modCtx s n g).tlb = s.tlb := rfl
@[simp] theorem modCtx_icache (s : State) (n : Nat) (g : Ctx → Ctx) : (modCtx s n g).icache = s.icache := rfl
@[simp] theorem modCtx_hiTemp (s : State) (n : Nat) (g : Ctx → Ctx) : (modCtx s n g).hiTemp = s.hiTemp := rfl
@[simp] theorem modCtx_loTemp (s : State) (n : Nat) (g : Ctx → Ctx) : (modCtx s n g).loTemp = s.loTemp := rfl
@[simp] theorem modCtx_hot (s : State) (n : Nat) (g : Ctx → Ctx) : (modCtx s n g).hot = s.hot := rfl
@[simp] theorem modCtx_droops (s : State) (n : Nat) (g : Ctx → Ctx) : (modCtx s n g).droops = s.droops := rfl
@[simp] theorem modCtx_skipped (s : State) (n : Nat) (g : Ctx → Ctx) : (modCtx s n g).skipped = s.skipped := rfl
@[simp] theorem modCtx_govEn (s : State) (n : Nat) (g : Ctx → Ctx) : (modCtx s n g).govEn = s.govEn := rfl
@[simp] theorem modCtx_govBudget (s : State) (n : Nat) (g : Ctx → Ctx) : (modCtx s n g).govBudget = s.govBudget := rfl
@[simp] theorem modCtx_govWin (s : State) (n : Nat) (g : Ctx → Ctx) : (modCtx s n g).govWin = s.govWin := rfl
@[simp] theorem modCtx_latWin (s : State) (n : Nat) (g : Ctx → Ctx) : (modCtx s n g).latWin = s.latWin := rfl
@[simp] theorem modCtx_dues (s : State) (n : Nat) (g : Ctx → Ctx) : (modCtx s n g).dues = s.dues := rfl
@[simp] theorem modCtx_refusals (s : State) (n : Nat) (g : Ctx → Ctx) : (modCtx s n g).refusals = s.refusals := rfl
@[simp] theorem modCtx_ctxEnd (s : State) (n : Nat) (g : Ctx → Ctx) : (modCtx s n g).ctxEnd = s.ctxEnd := rfl
@[simp] theorem modCtx_cxltBase (s : State) (n : Nat) (g : Ctx → Ctx) : (modCtx s n g).cxltBase = s.cxltBase := rfl
@[simp] theorem modCtx_cxltSize (s : State) (n : Nat) (g : Ctx → Ctx) : (modCtx s n g).cxltSize = s.cxltSize := rfl
@[simp] theorem modCtx_serials (s : State) (n : Nat) (g : Ctx → Ctx) : (modCtx s n g).serials = s.serials := rfl
@[simp] theorem modCtx_interrupts (s : State) (n : Nat) (g : Ctx → Ctx) : (modCtx s n g).interrupts = s.interrupts := rfl
@[simp] theorem modCtx_mpInterrupts (s : State) (n : Nat) (g : Ctx → Ctx) : (modCtx s n g).mpInterrupts = s.mpInterrupts := rfl
@[simp] theorem modCtx_regions (s : State) (n : Nat) (g : Ctx → Ctx) : (modCtx s n g).regions = s.regions := rfl
@[simp] theorem modCtx_accEnds (s : State) (n : Nat) (g : Ctx → Ctx) : (modCtx s n g).accEnds = s.accEnds := rfl
@[simp] theorem modCtx_agenda (s : State) (n : Nat) (g : Ctx → Ctx) : (modCtx s n g).agenda = s.agenda := rfl
@[simp] theorem modCtx_cur (s : State) (n : Nat) (g : Ctx → Ctx) : (modCtx s n g).cur = s.cur := rfl
@[simp] theorem modCtx_free (s : State) (n : Nat) (g : Ctx → Ctx) : (modCtx s n g).free = s.free := rfl
@[simp] theorem modCtx_nextId (s : State) (n : Nat) (g : Ctx → Ctx) : (modCtx s n g).nextId = s.nextId := rfl
@[simp] theorem modCtx_findWave (s : State) (n : Nat) (g : Ctx → Ctx) (k : Nat) : findWave (modCtx s n g) k = findWave s k := rfl
@[simp] theorem modCtx_getTeam (s : State) (n : Nat) (g : Ctx → Ctx) (k : Nat) : getTeam (modCtx s n g) k = getTeam s k := rfl

/-! ### A wave put back -/

/-- A wave put back twice is the second one. -/
theorem putWave_putWave (s : State) (x y : Wave) (h : x.id = y.id) : putWave (putWave s x) y = putWave s y := by
  simp only [putWave, List.map_map]
  congr 1
  apply List.map_congr_left
  intro a _
  by_cases ha : a.id = x.id <;> simp_all

/-- The first element that a test finds, after a change of the elements that keeps the test. -/
theorem find_map_keep {α : Type} (p : α → Bool) (f : α → α) (l : List α) (h : ∀ a, p (f a) = p a) :
    (l.map f).find? p = (l.find? p).map f := by
  induction l with
  | nil => rfl
  | cons a r ih => by_cases ha : p a <;> simp [List.find?, h, ha, ih]

/-- A wave that is put back is found. -/
theorem findWave_putWave {s : State} {w x : Wave} (h : findWave s w.id = some w) (hx : x.id = w.id) :
    findWave (putWave s x) w.id = some x := by
  simp only [findWave, putWave] at *
  rw [find_map_keep (fun (a : Wave) => a.id == w.id), h]
  · simp [hx]
  · intro a
    by_cases ha : a.id = w.id <;> simp [ha, hx]

/-- Another wave is found as before. -/
theorem findWave_putWave_other {s : State} {x : Wave} {n : Nat} (h : n ≠ x.id) : findWave (putWave s x) n = findWave s n := by
  simp only [findWave, putWave]
  rw [find_map_keep]
  · cases hf : s.waves.find? (fun w => w.id == n) with
    | none => rfl
    | some a =>
      have := List.find?_some hf
      simp_all
  · intro a
    by_cases ha : a.id = x.id <;> simp [ha]

end Sys2Proof.Machine
end

