-- ==== Sys2Proof/Laws/Issue.lean ====
section
/-! SUPPORT. What the issue of an instruction does when nothing holds it back: one lemma for each way its effect ends. -/

namespace Sys2Proof.Machine

@[simp] theorem freezeLatches_id (w : Wave) : (freezeLatches w).id = w.id := rfl

/-- An empty queue gives nothing. -/
theorem popEmpty_ok {s : State} {w v : Wave} {d : Mask} : popEmpty s w ≠ .ok v d := by
  unfold popEmpty
  repeat' split
  all_goals nofun

/-- What a pop by PRF keeps of a wave. -/
theorem popSoft_keeps {w v : Wave} {q : Nat} {m d : Mask} (h : popSoft w q m = .ok v d) :
    v.id = w.id ∧ v.ctx = w.ctx ∧ v.team = w.team ∧ v.scope = w.scope ∧ v.ctl.st = w.ctl.st ∧ v.hz.handler = w.hz.handler := by
  simp only [popSoft] at h
  split at h <;> split at h <;> cases h <;> simp [takeHead]

/-- What a queue pop keeps of a wave. -/
theorem popOne_keeps {s : State} {w v : Wave} {q : Nat} {m d : Mask} (h : popOne s w q m = .ok v d) :
    v.id = w.id ∧ v.ctx = w.ctx ∧ v.team = w.team ∧ v.scope = w.scope ∧ v.ctl.st = w.ctl.st ∧ v.hz.handler = w.hz.handler := by
  simp only [popOne] at h
  split at h
  · exact absurd h popEmpty_ok
  · split at h
    · split at h
      · cases h
        simp only [noteFault]
        split <;> simp
      · cases h
    · split at h
      · cases h
      · cases h; simp [takeHead]

/-- What the pop of one queue by an instruction keeps of its wave. -/
theorem popQueue_keeps {s : State} {w v : Wave} {q : Nat} {b : Bool} {m d : Mask} (h : (if b then popSoft w q m else popOne s w q m) = .ok v d) :
    v.id = w.id ∧ v.ctx = w.ctx ∧ v.team = w.team ∧ v.scope = w.scope ∧ v.ctl.st = w.ctl.st ∧ v.hz.handler = w.hz.handler := by
  cases b
  · exact popOne_keeps h
  · exact popSoft_keeps h

/-- What the pops of an instruction keep of its wave. -/
theorem popAll_keeps {s : State} {w v : Wave} {i : Instr} {d : Mask} (h : popAll s w i = .ok v d) :
    v.id = w.id ∧ v.ctx = w.ctx ∧ v.team = w.team ∧ v.scope = w.scope ∧ v.ctl.st = w.ctl.st ∧ v.hz.handler = w.hz.handler := by
  have key : ∀ (l : List Nat) (m : Mask) (b : Pop), (∀ x e, b = .ok x e → x.id = w.id ∧ x.ctx = w.ctx ∧ x.team = w.team
      ∧ x.scope = w.scope ∧ x.ctl.st = w.ctl.st ∧ x.hz.handler = w.hz.handler) →
      l.foldl (fun (b : Pop) q => match b with
        | .ok x d => match (if isPrf i then popSoft x q m else popOne s x q m) with
          | .ok y e => .ok y (d ||| e)
          | o => o
        | o => o) b = .ok v d → v.id = w.id ∧ v.ctx = w.ctx ∧ v.team = w.team ∧ v.scope = w.scope ∧ v.ctl.st = w.ctl.st
          ∧ v.hz.handler = w.hz.handler := by
    intro l m
    induction l with
    | nil => intro b hb h; exact hb v d h
    | cons q r ih =>
      intro b hb h
      refine ih _ ?_ h
      intro x e hx
      cases b with
      | ok y f =>
        obtain ⟨h1, h2, h3, h4, h5, h6⟩ := hb y f rfl
        simp only at hx
        generalize hz : (if isPrf i then popSoft y q m else popOne s y q m) = o at hx
        cases o with
        | ok z g =>
          cases hx
          obtain ⟨k1, k2, k3, k4, k5, k6⟩ := popQueue_keeps hz
          exact ⟨k1.trans h1, k2.trans h2, k3.trans h3, k4.trans h4, k5.trans h5, k6.trans h6⟩
        | _ => cases hx
      | stall => cases hx
      | fetch t => cases hx
      | trap t => cases hx
      | park a m => cases hx
  simp only [popAll] at h
  exact key _ _ _ (by intro x e hx; cases hx; simp) h

namespace Issues

variable {s : State} {w v : Wave} {i : Instr}

theorem v_id (h : Issues s w v i) : v.id = w.id := (popAll_keeps h.pops).1
theorem v_ctx (h : Issues s w v i) : v.ctx = w.ctx := (popAll_keeps h.pops).2.1
theorem v_team (h : Issues s w v i) : v.team = w.team := (popAll_keeps h.pops).2.2.1
theorem v_scope (h : Issues s w v i) : v.scope = w.scope := (popAll_keeps h.pops).2.2.2.1
theorem v_st (h : Issues s w v i) : v.ctl.st = w.ctl.st := (popAll_keeps h.pops).2.2.2.2.1
theorem v_live (h : Issues s w v i) : v.ctl.st ≠ .retiring ∧ v.ctl.st ≠ .killed ∧ v.ctl.st ≠ .retired := by
  rw [h.v_st]; exact h.live
theorem v_handler (h : Issues s w v i) : v.hz.handler = w.hz.handler := (popAll_keeps h.pops).2.2.2.2.2
theorem v_alive (h : Issues s w v i) : scopeCancelled (getCtx s v.ctx) v.scope = false := by
  rw [h.v_ctx, h.v_scope]; exact h.alive

/-- The wave that an effect starts from is found in the state it starts from. -/
theorem v_found (h : Issues s w v i) : findWave (putWave s v) w.id = some v := findWave_putWave h.found h.v_id

/-- The issue of an instruction that executes is its effect and the end of it. -/
theorem issueWave_eq (h : Issues s w v i) (f : Body) :
    issueWave s w i f = spendLatch i (finish (unpopped v w) i
      (if isNwb i then some ((f (putWave s v) v).2.getD .nothing) else none) (f (putWave s v) v).1) := by
  have hk : killDue (putWave s (freezeLatches w)) (freezeLatches w) = false := by
    have := h.alive
    simp [killDue, freezeLatches, this]
  have ht : mmaTwin (putWave s (freezeLatches w)) (freezeLatches w) i = false := h.twin
  have hl : interlocked (putWave s (freezeLatches w)) (freezeLatches w) i = false := h.lock
  have hp : putWave (putWave s (freezeLatches w)) v = putWave s v := putWave_putWave _ _ _ h.v_id.symm
  have hq : unpopped v (freezeLatches w) = unpopped v w := rfl
  have hs : ¬ ((v.ctl.st == .retiring) = true ∨ (v.ctl.st == .killed) = true) := by simp [h.v_live]
  simp only [issueWave, h.check, h.slots, h.guard, hk, ht, hl, Bool.not_true, Bool.and_false, Bool.false_eq_true, if_false, runBody,
    h.pops, markDead, beq_self_eq_true, if_true, hp, freezeLatches_id, h.v_found, if_neg hs, hq]

/-- An instruction of a wave whose turn it is, issued. -/
theorem issueR_eq (h : Issues s w v i) (f : Body) :
    issueR i s f = .next (spendLatch i (finish (unpopped v w) i
      (if isNwb i then some ((f (putWave s v) v).2.getD .nothing) else none) (f (putWave s v) v).1)) := by
  simp only [issueR, h.cur, h.found, h.issueWave_eq]

end Issues

@[simp] theorem setSt_id (w : Wave) (a : WState) (b : Wait) : (setSt w a b).id = w.id := rfl

@[simp] theorem loopEnds_id (n : Nat) (a : Wave) (pc : W64) : (loopEnds n a pc).1.id = a.id := by
  induction n generalizing a pc with
  | zero => rfl
  | succ n ih =>
    simp only [loopEnds]
    split
    · split
      · split
        · rw [ih]; rfl
        · rfl
      · rfl
    · rfl

@[simp] theorem recipeStep_id (a : Wave) : (recipeStep a).id = a.id := by
  simp only [recipeStep]
  split
  · rfl
  · split
    · split <;> rfl
    · rfl

@[simp] theorem stepPast_id (w : Wave) (i : Instr) (l : Latch) : (stepPast w i l).id = w.id := by
  simp only [stepPast, apply_ite Wave.id, setSt_id, recipeStep_id, ite_self, loopEnds_id]
  rfl

@[simp] theorem jumped_id (w : Wave) (pc : W64) (b : Bool) : (jumped w pc b).id = w.id := by
  simp only [jumped, apply_ite Wave.id, setSt_id, ite_self]

/-- An instruction that completes leaves its wave passed on, when no back edge kills it. -/
theorem complete_eq {t : State} {x : Wave} {id : Nat} {i : Instr} {l : Option Latch} (hf : findWave t id = some x)
    (hs : x.ctl.st ≠ .retiring ∧ x.ctl.st ≠ .killed ∧ x.ctl.st ≠ .retired)
    (ha : takesBack x i = false ∨ scopeCancelled (getCtx t x.ctx) x.scope = false) :
    complete t id i l = putWave t (stepPast x i (match l with | some y => y | none => destLatch x i)) := by
  rcases ha with ha | ha <;> cases l <;> simp [complete, hf, hs, ha, killDue]

/-- An effect that is done leaves its wave passed on. -/
theorem Issues.ends {s t : State} {w v x : Wave} {i : Instr} {f : Body} (h : Issues s w v i) (l : Option Latch)
    (he : Sys2Proof.Machine.exec i s = issueR i s f)
    (hf : f (putWave s v) v = (.done t, l)) (ht : findWave t w.id = some x)
    (hs : x.ctl.st ≠ .retiring ∧ x.ctl.st ≠ .killed ∧ x.ctl.st ≠ .retired)
    (ha : takesBack x i = false ∨ scopeCancelled (getCtx t x.ctx) x.scope = false) : Ends s i w.id t := by
  have hn : ∃ n, (isNwb i = false → n = none) ∧ Sys2Proof.Machine.exec i s
      = .next (spendLatch i (finish (unpopped v w) i n (.done t))) :=
    ⟨if isNwb i then some (l.getD .nothing) else none, (by intro hb; rw [hb]; rfl), by rw [he, h.issueR_eq, hf]⟩
  obtain ⟨n, hnone, hn⟩ := hn
  obtain ⟨y, hl, hy⟩ : ∃ y, (isNwb i = false → y = destLatch x i) ∧ complete t w.id i n = putWave t (stepPast x i y) :=
    ⟨_, (by intro hb; rw [hnone hb]), complete_eq ht hs ha⟩
  have hfin : finish (unpopped v w) i n (.done t) = complete t w.id i n := by
    rw [← h.v_id]; rfl
  exact ⟨x, y, ht, hl, by rw [hn, hfin, hy]⟩

/-- An effect that is done in its own wave alone. -/
theorem Issues.does {s : State} {w v x : Wave} {i : Instr} {f : Body} (h : Issues s w v i) (l : Option Latch)
    (he : Sys2Proof.Machine.exec i s = issueR i s f)
    (hf : f (putWave s v) v = (.done (putWave s x), l)) (hx : x.id = w.id)
    (hs : x.ctl.st = v.ctl.st) (hc : x.ctx = v.ctx) (hsc : x.scope = v.scope) : Does s i x := by
  have hid : findWave (putWave s x) w.id = some x := findWave_putWave h.found hx
  have hal : scopeCancelled (getCtx (putWave s x) x.ctx) x.scope = false := by rw [hc, hsc]; exact h.v_alive
  obtain ⟨y, m, hy, hm, he⟩ := h.ends l he hf hid (by rw [hs]; exact h.v_live) (.inr hal)
  rw [hid] at hy
  cases hy
  exact ⟨m, hm, by rw [he, putWave_putWave _ _ _ (stepPast_id _ _ _).symm]⟩

/-- A wave changed in place just after it is put back. -/
theorem modWave_putWave (s : State) (v : Wave) (f : Wave → Wave) (h : (f v).id = v.id) :
    modWave (putWave s v) v.id f = putWave s (f v) := by
  simp only [modWave, putWave, List.map_map]
  congr 1
  apply List.map_congr_left
  intro a _
  by_cases ha : a.id = v.id <;> simp [ha, h]

/-- An effect that jumps, its wave being `x` before, but for the check of TGT that it may owe. -/
theorem Issues.jumps {s : State} {w v x : Wave} {i : Instr} {f : Body} {pc : W64} {b : Bool} (h : Issues s w v i) (l : Option Latch)
    (he : Sys2Proof.Machine.exec i s = issueR i s f)
    (hf : f (putWave s v) v = (.jump (putWave s { x with ctl := { x.ctl with needTgt := x.ctl.needTgt || (lineAt s x pc).isNone } }) pc b, l))
    (hx : x.id = w.id) : Jumps s i x pc b := by
  rw [Jumps, he, h.issueR_eq, hf]
  simp only [finish, jumpTo]
  rw [show (unpopped v w).id = x.id from h.v_id.trans hx.symm]
  exact congrArg _ (congrArg _ (modWave_putWave s _ (fun a => jumped a pc b) (jumped_id _ _ _)))

/-- An attempt that notes no fault leaves %fault as it stands. -/
theorem keepFault_eq {t : State} {w x : Wave} (hf : findWave t w.id = some x) (hx : x.regs.fault = w.regs.fault) : keepFault t w = t := by
  simp [keepFault, hf, hx]

/-- An effect that makes its wave wait at the instruction, and notes no fault. -/
theorem Issues.waits {s t : State} {w v x : Wave} {i : Instr} {f : Body} {wt : Wait} (h : Issues s w v i) (l : Option Latch)
    (he : Sys2Proof.Machine.exec i s = issueR i s f) (hf : f (putWave s v) v = (.stay t wt, l)) (ht : findWave t w.id = some x)
    (hx : x.regs.fault = v.regs.fault) : Waits s i t w.id wt := by
  have hk : keepFault t (unpopped v w) = t := keepFault_eq (by rw [← h.v_id] at ht; exact ht) hx
  have hu : unpop i (unpopped v w) t = unpop i w t := by
    simp only [unpop, show (unpopped v w).id = w.id from h.v_id]
    rfl
  refine ⟨w, h.found, ?_⟩
  rw [he, h.issueR_eq, hf]
  simp only [finish, hk, hu]
  rw [show (unpopped v w).id = w.id from h.v_id]

/-- An effect that raises a precise trap. -/
theorem Issues.traps {s t : State} {w v : Wave} {i : Instr} {f : Body} {p : PTrap} (h : Issues s w v i) (l : Option Latch)
    (he : Sys2Proof.Machine.exec i s = issueR i s f) (hf : f (putWave s v) v = (.trap t p, l)) :
    Traps s i t (unpopped v w) p := by
  rw [Traps, he, h.issueR_eq, hf]
  rfl

/-- An effect that sets the control state of its wave itself. -/
theorem Issues.over {s t : State} {w v : Wave} {i : Instr} {f : Body} (h : Issues s w v i) (l : Option Latch)
    (he : Sys2Proof.Machine.exec i s = issueR i s f) (hf : f (putWave s v) v = (.over t, l)) :
    Sys2Proof.Machine.exec i s = .next (spendLatch i t) := by
  rw [he, h.issueR_eq, hf]
  rfl

end Sys2Proof.Machine
end

