-- ==== Sys2Proof/Laws/Effects.lean ====
section
/-! SUPPORT. What the write-back of results does, and the completion of the instructions whose effect is results alone. -/

namespace Sys2Proof.Machine

theorem boundOf_unbound {t : Team} {w : Wave} (h : w.regs.bmap = []) (r : Nat) : boundOf t w r = none := by simp [boundOf, h]

theorem clampWrites_unbound {t : Team} {w : Wave} (h : w.regs.bmap = []) (ws : List (Nat × List (Nat × W32))) : clampWrites t w ws = ws := by
  simp [clampWrites, boundOf_unbound h]

theorem flagSet_unbound {t : Team} {w : Wave} (h : w.regs.bmap = []) (ws : List (Nat × List (Nat × W32))) : flagSet t w ws = [] := by
  simp [flagSet, boundOf_unbound h]

/-- A checked write that no trap binding stops: after its clamps, with its flags (R210). -/
theorem checkedWrite_ok {t : Team} {w : Wave} {ws : List (Nat × List (Nat × W32))} (h : trapLanes t w ws = 0) :
    checkedWrite t w ws = .ok (noteFlags (putVRegs w (clampWrites t w ws)) (flagSet t w ws)) := by
  by_cases hb : w.regs.bmap = []
  · simp [checkedWrite, hb, clampWrites_unbound hb, flagSet_unbound hb, noteFlags]
  · simp [checkedWrite, hb, h]

theorem trapLanes_nil (t : Team) (w : Wave) : trapLanes t w [] = 0 := rfl

@[simp] theorem cleanse_nil (l : List (Nat × Mask)) : cleanse l [] = l := by simp [cleanse]

@[simp] theorem wroteV_nil (n : Bool) (t : Team) (v : Wave) : wroteV n t v [] = v := by
  simp [wroteV, clampWrites, flagSet, noteFlags, putVRegs]

@[simp] theorem wroteV_id (n : Bool) (t : Team) (v : Wave) (ws : List (Nat × List (Nat × W32))) : (wroteV n t v ws).id = v.id := by
  simp only [wroteV, noteFlags]; split
  · rfl
  · split <;> rfl
@[simp] theorem wroteV_ctx (n : Bool) (t : Team) (v : Wave) (ws : List (Nat × List (Nat × W32))) : (wroteV n t v ws).ctx = v.ctx := by
  simp only [wroteV, noteFlags]; split
  · rfl
  · split <;> rfl
@[simp] theorem wroteV_scope (n : Bool) (t : Team) (v : Wave) (ws : List (Nat × List (Nat × W32))) : (wroteV n t v ws).scope = v.scope := by
  simp only [wroteV, noteFlags]; split
  · rfl
  · split <;> rfl
@[simp] theorem wroteV_ctl (n : Bool) (t : Team) (v : Wave) (ws : List (Nat × List (Nat × W32))) : (wroteV n t v ws).ctl = v.ctl := by
  simp only [wroteV, noteFlags]; split
  · rfl
  · split <;> rfl

/-- Flags that keep D and B as they are stay so under the merge of B. -/
theorem mergeCC_withFlags (cc : W32) (z n c v : Bool) : mergeCC cc (withFlags cc z n c v) = withFlags cc z n c v := by
  have key : ∀ x : W32, mergeCC cc ((cc &&& 0x30) ||| (x &&& 0xF)) = (cc &&& 0x30) ||| (x &&& 0xF) := by
    intro x
    have hm : ∀ i < 32, ((0x1F : W32).getLsbD i = ((0xF : W32).getLsbD i || (i == 4)))
        ∧ ((0x20 : W32).getLsbD i = (i == 5)) ∧ ((0x30 : W32).getLsbD i = (i == 4 || i == 5))
        ∧ ((i == 4 || i == 5) = true → (0xF : W32).getLsbD i = false) := by decide
    apply BitVec.eq_of_getLsbD_eq
    intro i hi
    obtain ⟨h1, h2, h3, h4⟩ := hm i hi
    simp only [mergeCC, BitVec.getLsbD_or, BitVec.getLsbD_and, h1, h2, h3]
    cases cc.getLsbD i <;> cases x.getLsbD i <;> cases hF : (0xF : W32).getLsbD i <;> cases h5 : (i == 4) <;> cases h6 : (i == 5) <;> simp_all
  have hf : flagBits z n c v &&& 0xF = flagBits z n c v := by cases z <;> cases n <;> cases c <;> cases v <;> rfl
  have := key (flagBits z n c v)
  rw [hf] at this
  exact this

/-- What the write-back of results gives when no trap binding stops it (R129, R210). -/
theorem writeEff_ok {t : Team} {w : Wave} {e : Eff} {n : Bool} (h : boundsOk n t w e.v) :
    writeEff t w e n = .ok (
      let x := wroteV n t w e.v
      let x1 := if n then x else e.h.foldl (fun a p => setH a p.1 p.2) (e.k.foldl (fun a p => setK a p.1 p.2) (e.s.foldl (fun a p => setS a p.1 p.2) x))
      let x2 := e.extra.foldl (fun a p => setS a p.1 p.2) x1
      match e.cc with
      | some c => withCC x2 (mergeCC x2.regs.cc c)
      | none => x2) := by
  cases n with
  | true => simp only [writeEff, wroteV, if_true]; rfl
  | false =>
    have h0 : trapLanes t w e.v = 0 := by simpa [boundsOk] using h
    simp only [writeEff, checkedWrite_ok h0, wroteV, Bool.false_eq_true, if_false]; rfl

/-- No lane dies of no poison. -/
@[simp] theorem markDead_zero (s : State) (id : Nat) : markDead s id 0 = s := by simp [markDead]

/-- An effect that consumes no poison keeps every element. -/
theorem aliveEff_eq {e : Eff} (h : e.dies = 0) : aliveEff e = e := by simp [aliveEff, h]

/-- The write-back of results, none of which consumed poison, in the state that an effect starts from. -/
theorem writeOut_ok {s : State} {w : Wave} {e : Eff} {n : Bool} {x : Wave} (hd : e.dies = 0) (h : writeEff (getTeam s w.team) w e n = .ok x) :
    writeOut s w e n = (.done (putWave s x), if n then some (latchOf w e true) else none) := by
  simp only [writeOut, aliveEff_eq hd, hd, h, markDead_zero]

/-- The write-back of results of which some lanes consumed poison: their elements are left out, and they die once it is done (R40). -/
theorem writeOut_dies {s : State} {w : Wave} {e : Eff} {n : Bool} {x : Wave} (h : writeEff (getTeam s w.team) w (aliveEff e) n = .ok x) :
    writeOut s w e n = (.done (markDead (putWave s x) w.id (aliveEff e).dies), if n then some (latchOf w (aliveEff e) true) else none) := by
  simp [writeOut, h]

/-- The completion of an instruction whose effect is results alone. -/
theorem Issues.effect {s : State} {w v x : Wave} {i : Instr} {f : Body} {e : Eff} (h : Issues s w v i)
    (he : Sys2Proof.Machine.exec i s = issueR i s f) (hf : f (putWave s v) v = writeOut (putWave s v) v e (isNwb i))
    (hd : e.dies = 0) (hx : writeEff (getTeam s v.team) v e (isNwb i) = .ok x)
    (h1 : x.id = v.id) (h2 : x.ctl = v.ctl) (h3 : x.ctx = v.ctx) (h4 : x.scope = v.scope) : Does s i x := by
  refine h.does (if isNwb i then some (latchOf v e true) else none) he ?_ (h1.trans h.v_id) (by rw [h2]) h3 h4
  rw [hf, writeOut_ok hd (by simpa using hx), putWave_putWave _ _ _ h1.symm]

@[simp] theorem setS_id (w : Wave) (n : Nat) (x : W64) : (setS w n x).id = w.id := rfl
@[simp] theorem setS_ctl (w : Wave) (n : Nat) (x : W64) : (setS w n x).ctl = w.ctl := rfl
@[simp] theorem setS_ctx (w : Wave) (n : Nat) (x : W64) : (setS w n x).ctx = w.ctx := rfl
@[simp] theorem setS_scope (w : Wave) (n : Nat) (x : W64) : (setS w n x).scope = w.scope := rfl
@[simp] theorem setS_cc (w : Wave) (n : Nat) (x : W64) : (setS w n x).regs.cc = w.regs.cc := rfl
@[simp] theorem setK_id (w : Wave) (n : Nat) (x : Mask) : (setK w n x).id = w.id := by simp only [setK]; split <;> rfl
@[simp] theorem setK_ctl (w : Wave) (n : Nat) (x : Mask) : (setK w n x).ctl = w.ctl := by simp only [setK]; split <;> rfl
@[simp] theorem setK_ctx (w : Wave) (n : Nat) (x : Mask) : (setK w n x).ctx = w.ctx := by simp only [setK]; split <;> rfl
@[simp] theorem setK_scope (w : Wave) (n : Nat) (x : Mask) : (setK w n x).scope = w.scope := by simp only [setK]; split <;> rfl
@[simp] theorem setK_cc (w : Wave) (n : Nat) (x : Mask) : (setK w n x).regs.cc = w.regs.cc := by simp only [setK]; split <;> rfl
@[simp] theorem withCC_id (w : Wave) (c : W32) : (withCC w c).id = w.id := rfl
@[simp] theorem withCC_ctl (w : Wave) (c : W32) : (withCC w c).ctl = w.ctl := rfl
@[simp] theorem withCC_ctx (w : Wave) (c : W32) : (withCC w c).ctx = w.ctx := rfl
@[simp] theorem withCC_scope (w : Wave) (c : W32) : (withCC w c).scope = w.scope := rfl

/-- The completion of an instruction whose results are a scalar and flags that keep D and B. -/
theorem Issues.scalarFlags {s : State} {w v : Wave} {i : Instr} {f : Body} {d : Nat} {x : W64} {z n c o : Bool} (h : Issues s w v i)
    (he : Sys2Proof.Machine.exec i s = issueR i s f)
    (hf : f (putWave s v) v = writeOut (putWave s v) v { s := [(d, x)], cc := some (withFlags v.regs.cc z n c o) } (isNwb i)) :
    Does s i (withCC (wroteS (isNwb i) v d x) (withFlags v.regs.cc z n c o)) := by
  have hb : boundsOk (isNwb i) (getTeam s v.team) v ([] : List (Nat × List (Nat × W32))) := .inr rfl
  refine h.effect he hf rfl ((writeEff_ok hb).trans ?_) ?_ ?_ ?_ ?_ <;> cases isNwb i <;> simp [wroteS, mergeCC_withFlags]

/-- The completion of an instruction whose result is a scalar alone. -/
theorem Issues.scalarOnly {s : State} {w v : Wave} {i : Instr} {f : Body} {d : Nat} {x : W64} (h : Issues s w v i)
    (he : Sys2Proof.Machine.exec i s = issueR i s f)
    (hf : f (putWave s v) v = writeOut (putWave s v) v { s := [(d, x)] } (isNwb i)) :
    Does s i (wroteS (isNwb i) v d x) := by
  have hb : boundsOk (isNwb i) (getTeam s v.team) v ([] : List (Nat × List (Nat × W32))) := .inr rfl
  refine h.effect he hf rfl ((writeEff_ok hb).trans ?_) ?_ ?_ ?_ ?_ <;> cases isNwb i <;> simp [wroteS]

/-- The completion of an instruction whose results are a mask and flags that keep D and B. -/
theorem Issues.maskFlags {s : State} {w v : Wave} {i : Instr} {f : Body} {d : Nat} {x : Mask} {z n c o : Bool} (h : Issues s w v i)
    (he : Sys2Proof.Machine.exec i s = issueR i s f)
    (hf : f (putWave s v) v = writeOut (putWave s v) v { k := [(d, x)], cc := some (withFlags v.regs.cc z n c o) } (isNwb i)) :
    Does s i (withCC (wroteK (isNwb i) v d x) (withFlags v.regs.cc z n c o)) := by
  have hb : boundsOk (isNwb i) (getTeam s v.team) v ([] : List (Nat × List (Nat × W32))) := .inr rfl
  refine h.effect he hf rfl ((writeEff_ok hb).trans ?_) ?_ ?_ ?_ ?_ <;> cases isNwb i <;> simp [wroteK, mergeCC_withFlags]

/-- The completion of an instruction whose result is a mask alone. -/
theorem Issues.maskOnly {s : State} {w v : Wave} {i : Instr} {f : Body} {d : Nat} {x : Mask} (h : Issues s w v i)
    (he : Sys2Proof.Machine.exec i s = issueR i s f)
    (hf : f (putWave s v) v = writeOut (putWave s v) v { k := [(d, x)] } (isNwb i)) :
    Does s i (wroteK (isNwb i) v d x) := by
  have hb : boundsOk (isNwb i) (getTeam s v.team) v ([] : List (Nat × List (Nat × W32))) := .inr rfl
  refine h.effect he hf rfl ((writeEff_ok hb).trans ?_) ?_ ?_ ?_ ?_ <;> cases isNwb i <;> simp [wroteK]

/-- The completion of an instruction whose results are flags that keep D and B. -/
theorem Issues.flagsOnly {s : State} {w v : Wave} {i : Instr} {f : Body} {z n c o : Bool} (h : Issues s w v i)
    (he : Sys2Proof.Machine.exec i s = issueR i s f)
    (hf : f (putWave s v) v = writeOut (putWave s v) v { cc := some (withFlags v.regs.cc z n c o) } (isNwb i)) :
    Does s i (withCC v (withFlags v.regs.cc z n c o)) := by
  have hb : boundsOk (isNwb i) (getTeam s v.team) v ([] : List (Nat × List (Nat × W32))) := .inr rfl
  refine h.effect he hf rfl ((writeEff_ok hb).trans ?_) ?_ ?_ ?_ ?_ <;> cases isNwb i <;> simp [mergeCC_withFlags]

/-- The completion of an instruction whose results are vector elements. -/
theorem Issues.vectorOnly {s : State} {w v : Wave} {i : Instr} {f : Body} {ws : List (Nat × List (Nat × W32))} (h : Issues s w v i)
    (he : Sys2Proof.Machine.exec i s = issueR i s f)
    (hf : f (putWave s v) v = writeOut (putWave s v) v { v := ws } (isNwb i))
    (hb : boundsOk (isNwb i) (getTeam s v.team) v ws) : Does s i (wroteV (isNwb i) (getTeam s v.team) v ws) := by
  refine h.effect he hf rfl ((writeEff_ok hb).trans ?_) ?_ ?_ ?_ ?_ <;> cases isNwb i <;> simp

/-- The completion of an instruction whose results are vector elements and flags. -/
theorem Issues.vectorFlags {s : State} {w v : Wave} {i : Instr} {f : Body} {ws : List (Nat × List (Nat × W32))} {c : W32} (h : Issues s w v i)
    (he : Sys2Proof.Machine.exec i s = issueR i s f)
    (hf : f (putWave s v) v = writeOut (putWave s v) v { v := ws, cc := some c } (isNwb i))
    (hb : boundsOk (isNwb i) (getTeam s v.team) v ws) :
    Does s i (withCC (wroteV (isNwb i) (getTeam s v.team) v ws) (mergeCC (wroteV (isNwb i) (getTeam s v.team) v ws).regs.cc c)) := by
  refine h.effect he hf rfl ((writeEff_ok hb).trans ?_) ?_ ?_ ?_ ?_ <;> cases isNwb i <;> simp

end Sys2Proof.Machine
end

