-- ==== Sys2Proof/Laws/Access.lean ====
section
/-! SUPPORT. What the issue of an access does when its checks pass: performed, held, left to a lazy read, or sent. -/

namespace Sys2Proof.Machine

theorem Issues.finishes {s t : State} {w v : Wave} {i : Instr} {f : Body} (h : Issues s w v i) (l : Option Latch)
    (he : Sys2Proof.Machine.exec i s = issueR i s f) (hf : f (putWave s v) v = (.done t, l)) : Finishes s i v.id t := by
  rw [Finishes, he, h.issueR_eq, hf]; exact ⟨_, (by intro hb; rw [hb]; rfl), rfl⟩

theorem minRank_none {l : List Met} (h : ∀ m ∈ l, ∃ st, m.2 = .ok st) : minRank l = none := by
  have : ∀ (b : Option Nat), l.foldl (fun (b : Option Nat) m => match m.2 with
    | .bad r _ _ => some (match b with | some x => min x r | none => r)
    | _ => b) b = b := by
    induction l with
    | nil => intro b; rfl
    | cons m r ih =>
      intro b
      obtain ⟨st, hm⟩ := h m (by simp)
      simp only [List.foldl_cons, hm]
      exact ih (fun x hx => h x (by simp [hx])) b
  exact this none

theorem issueAccess_ok {p : State} {v : Wave} {rcd : OpRec} {a : Access} {via : Via} {md : StoreMode} (hne : a.elems ≠ []) (hl : locksDamaged p = false)
   (ho : openSlip v = none)
   (hok : ∀ e ∈ a.elems, ∃ st, resolve p v a.kind via (elemSize a) e.addr = .ok st) :
   issueAccess p v rcd a via md = commitAccess p v rcd (placed p v a via) md ((placed p v a via).elems.any remote) false := by
  have h1 : minRank (a.elems.map (fun e => (e, resolve p v a.kind via (elemSize a) e.addr))) = none := by
    apply minRank_none
    intro m hm
    simp only [List.mem_map] at hm
    obtain ⟨e, he, rfl⟩ := hm
    exact hok e he
  have h2 : ∀ (l : List Elem), (∀ e ∈ l, ∃ st, resolve p v a.kind via (elemSize a) e.addr = .ok st) →
     ((l.map (fun e => (e, resolve p v a.kind via (elemSize a) e.addr))).filterMap asksFor) = [] ∧
     ((l.map (fun e => (e, resolve p v a.kind via (elemSize a) e.addr))).filter isReplay) = [] ∧
     ((l.map (fun e => (e, resolve p v a.kind via (elemSize a) e.addr))).filterMap atPlace) = l.map (placedAt p v a via) := by
    intro l hl
    induction l with
    | nil => simp
    | cons e r ih =>
      obtain ⟨st, hst⟩ := hl e (by simp)
      obtain ⟨i1, i2, i3⟩ := ih (fun x hx => hl x (by simp [hx]))
      refine ⟨?_, ?_, ?_⟩
      · simp only [List.map_cons, List.filterMap_cons, asksFor, hst]; exact i1
      · simp only [List.map_cons, List.filter_cons, isReplay, hst, Bool.false_eq_true, if_false]; exact i2
      · simp only [List.map_cons, List.filterMap_cons, atPlace, hst, placedAt]; exact congrArg _ i3
  obtain ⟨k1, k2, k3⟩ := h2 a.elems hok
  have he : a.elems.isEmpty = false := by cases h : a.elems <;> simp_all
  simp only [issueAccess, he, Bool.false_eq_true, if_false, hl, h1, Option.map_none, issueAccess.go, k1, k2, List.map_nil, maskOf,
    List.foldl_nil, List.any_nil, Bool.or_false, ho, Option.isSome_none, List.isEmpty_nil, if_true]
  have hz : (fun (m : Met) => !(0#1024).getLsbD m.1.lane) = fun _ => true := by funext m; simp
  have hz2 : (fun (m : Met) => !(0 : Mask).getLsbD m.1.lane) = fun _ => true := hz
  simp only [hz2, List.filter_true, k3, placed]
  try rfl
@[simp] theorem putWave_locksDamaged (s : State) (w : Wave) : locksDamaged (putWave s w) = locksDamaged s := rfl

/-- An access without an element beyond the device reaches no peer. -/
theorem peersOf_none {a : Access} (h : a.elems.any remote = false) : peersOf a = [] := by
  simp only [peersOf, List.filter_eq_nil_iff]
  intro p _
  simp only [List.any_eq_true, not_exists, not_and]
  intro e he hs
  have : remote e = false := by
    rw [List.any_eq_false] at h; simpa using h e he
  simp only [beq_iff_eq] at hs
  simp [remote, hs] at this

/-- Without an open slip the tag is the next one. -/
theorem tagNow_new {v : Wave} (h : openSlip v = none) : tagNow v = v.hz.tag := by simp [tagNow, h]

/-- A store that HR does not hold back. -/
theorem heldNow_false {v : Wave} {md : StoreMode} (h : openSlip v = none) (hm : md.hr = true → passed v (v.hz.tag - 1) = true) :
    heldNow v md = false := by
  cases hr : md.hr <;> simp_all [heldNow, tagNow]

/-- The order of an access that nothing holds back counts from its issue. -/
theorem atIssue_now {v : Wave} {md : StoreMode} {a : Access} (h : heldNow v md = false) : atIssue v md a = a := by simp [atIssue, h]

/-- The order of an access does not change its requests. -/
@[simp] theorem coreRoom_atIssue (p : State) (n : Nat) (v : Wave) (md : StoreMode) (a : Access) :
    coreRoom p n (atIssue v md a) = coreRoom p n a := by
  unfold atIssue; split <;> rfl

/-- A local access that nothing makes wait, neither held nor lazy: performed, its results written. -/
theorem commit_local {p t : State} {v : Wave} {rcd : OpRec} {a : Access} {md : StoreMode} (hr : a.elems.any remote = false)
    (hgo : freeToGo p v a) (hm : md.hr = true → passed v (v.hz.tag - 1) = true) (hs : md.slot = none)
    (hp : poisonLanes (perform p v.core (getCtx p v.ctx) a false).2 = 0)
    (hw : writeGot (perform p v.core (getCtx p v.ctx) a false).1 v.id a (perform p v.core (getCtx p v.ctx) a false).2 = .ok t) :
    commitAccess p v rcd a md false false = .done t := by
  obtain ⟨_, ho, h1, hcr⟩ := hgo
  have hpk : packetRoom p a (getCtx p v.ctx).asid md.stream = true := by simp [packetRoom, peersOf_none hr]
  simp [commitAccess, mustStall, heldNow_false ho hm, atIssue_now (heldNow_false ho hm), h1, hcr, hpk, hs, localPart, hw, consume, hp]

/-- A local store held back under HR. -/
theorem commit_held {p : State} {v : Wave} {rcd : OpRec} {a : Access} {md : StoreMode} (hr : a.elems.any remote = false)
    (hgo : freeToGo p v (atIssue v md a)) (hm : md.hr = true) (hn : passed v (v.hz.tag - 1) = false) (hl : v.hz.held.length < 64) :
    commitAccess p v rcd a md false false
      = .done (addLazy (keepHeld p v.id { key := heldKey v, h := v.hz.tag, acc := a, failable := false }) v.id md.slot (.held (heldKey v))) := by
  obtain ⟨_, ho, h1, hcr⟩ := hgo
  rw [coreRoom_atIssue] at hcr
  have hpk : packetRoom p a (getCtx p v.ctx).asid md.stream = true := by simp [packetRoom, peersOf_none hr]
  have : heldNow v md = true := by simp only [heldNow, tagNow_new ho, hm, hn]; rfl
  have hl2 : ¬ 64 ≤ v.hz.held.length := by omega
  simp [commitAccess, mustStall, this, h1, hcr, hpk, tagNow_new ho, hl2]

/-- A local store whose data is still to be read. -/
theorem commit_lazy {p : State} {v : Wave} {rcd : OpRec} {a : Access} {md : StoreMode} {z : LazyRead} (hr : a.elems.any remote = false)
    (hgo : freeToGo p v a) (hm : md.hr = true → passed v (v.hz.tag - 1) = true) (hz : md.slot = some z) :
    commitAccess p v rcd a md false false = .done (addLazy p v.id md.slot (.store a)) := by
  obtain ⟨_, ho, h1, hcr⟩ := hgo
  have hpk : packetRoom p a (getCtx p v.ctx).asid md.stream = true := by simp [packetRoom, peersOf_none hr]
  simp [commitAccess, mustStall, heldNow_false ho hm, atIssue_now (heldNow_false ho hm), h1, hcr, hpk, hz]

/-- No element of a local access lies beyond the device. -/
theorem allLocal.notRemote {p : State} {v : Wave} {a : Access} {via : Via} (h : allLocal p v a via) : (placed p v a via).elems.any remote = false := by
  rw [List.any_eq_false]
  intro e he
  simp only [placed, List.mem_map] at he
  obtain ⟨e0, he0, rfl⟩ := he
  obtain ⟨sp, o, hr⟩ := h.2 e0 he0
  simp [placedAt, hr, remote]

/-- Every element of a local access passes its checks. -/
theorem allLocal.ok {p : State} {v : Wave} {a : Access} {via : Via} (h : allLocal p v a via) :
   ∀ e ∈ a.elems, ∃ st, resolve p v a.kind via (elemSize a) e.addr = .ok st := fun e he => let ⟨_, _, h⟩ := h.2 e he; ⟨_, h⟩

/-- Two changes of one wave in place. -/
theorem modWave_modWave (s : State) (n : Nat) (f g : Wave → Wave) (hf : ∀ x, (f x).id = x.id) :
    modWave (modWave s n f) n g = modWave s n (fun x => g (f x)) := by
  simp only [modWave, List.map_map]
  congr 1
  apply List.map_congr_left
  intro x _
  by_cases h : x.id = n <;> simp [h, hf]

/-- A failable access that may go. -/
theorem sentFrom_eq {p : State} {v : Wave} {i : Instr} {a : Access} {md : StoreMode} (hgo : mayGo p v a md) :
    commitAccess p v (opRecOf p v i) a md true false = .done (sentFrom p v i a md) := by
  obtain ⟨⟨_, ho, h1, hcr⟩, hrec, hsl, hpk, hm⟩ := hgo
  have hh := heldNow_false ho hm
  have hsl2 : ¬ 128 ≤ v.hz.slips.length := by omega
  have hrc : (v.ctl.recipe.isSome && !v.hz.handler) = false := by rcases hrec with h | h <;> simp [h]
  have hslip : newMemSlip p v (opRecOf p v i) a md false = { newMemSlip p v (opRecOf p v i) a md false with held := false } := by
    simp [newMemSlip, hh]
  have hstall : mustStall p v a md true = false := by simp [mustStall, hh, atIssue_now hh, h1, hcr, hpk, hsl2]
  have hrc2 : (true && v.ctl.recipe.isSome && !v.hz.handler) = false := by simpa using hrc
  simp only [commitAccess, if_true, hrc2, hstall, hh, Bool.false_eq_true, if_false, withSlip, ho, tagNow_new ho, sentFrom, ← hslip]

/-- An access made from a base that stands. -/
theorem baseOf_eq {p : State} {v : Wave} {h : Hdr} {o : Operand} {st : Bool} {b : W64} {via : Via} {upd : Option (Nat × Handle)}
    (hb : baseOf p v h o st = some (b, via, upd)) (k : W64 → Via → Out) {t : State} (hk : k b via = .done t) :
    withBase p v h o st k = .done (keptHandle t v.id upd) := by
  unfold baseOf at hb
  split at hb
  · rename_i n
    simp only [withBase]
    split at hb <;> simp_all
    · obtain ⟨rfl, rfl, rfl⟩ := hb
      rename_i upd _ 
      cases upd <;> simp [keepHandle, keptHandle]
    · obtain ⟨rfl, rfl, rfl⟩ := hb; simp [keptHandle]
    · obtain ⟨rfl, rfl, rfl⟩ := hb; simp [keptHandle]; try exact hk
  · simp only [Option.some.injEq, Prod.mk.injEq] at hb
    obtain ⟨rfl, rfl, rfl⟩ := hb
    unfold withBase
    split <;> simp_all [keptHandle]

end Sys2Proof.Machine
end

