-- ==== Sys2Proof/Laws/Memory.lean ====
section
/-! SUPPORT. What the memory operations do: read after write, the canonical form that each keeps, and the same for the spaces of a state. -/

namespace Sys2Proof.Machine

/-! ### Memories -/

/-- Reading after one byte is written. -/
theorem memGet_memPut {m : Memory} (h : m.wf = true) (a x : Nat) (b : Byte) : memGet (memPut m a b) x = if x = a then b else memGet m x := by
  induction m with
  | nil => simp only [memPut]; split <;> simp_all [memGet]
  | cons p r ih =>
    obtain ⟨y, c⟩ := p
    have hr : Memory.wf r = true := by
      cases r with
      | nil => rfl
      | cons q r => simp only [Memory.wf, Bool.and_eq_true] at h; exact h.2
    have low : ∀ z, z ≤ y → memGet r z = 0 := by
      clear ih hr
      induction r generalizing y c with
      | nil => intros; rfl
      | cons q r ih2 =>
        obtain ⟨u, d⟩ := q
        simp only [Memory.wf, Bool.and_eq_true, decide_eq_true_eq] at h
        intro z hz
        simp only [memGet]
        rw [if_neg (by omega)]
        exact ih2 u d h.2 z (by omega)
    simp only [memPut]
    by_cases h1 : y < a
    · rw [if_pos h1]
      simp only [memGet]
      by_cases hx : x = y
      · subst hx; rw [if_pos rfl, if_neg (by omega), if_pos rfl]
      · rw [if_neg hx, if_neg hx]; exact ih hr
    · rw [if_neg h1]
      by_cases h2 : y = a
      · subst h2
        rw [if_pos rfl]
        by_cases hb : b = 0
        · rw [if_pos hb]
          by_cases hx : x = y
          · subst hx; rw [if_pos rfl, hb]; exact low _ (Nat.le_refl _)
          · rw [if_neg hx]; simp only [memGet]; rw [if_neg hx]
        · rw [if_neg hb]; simp only [memGet]; split <;> rfl
      · rw [if_neg h2]
        by_cases hb : b = 0
        · rw [if_pos hb]
          by_cases hx : x = a
          · subst hx; rw [if_pos rfl, hb]; simp only [memGet]; rw [if_neg (by omega)]; exact low _ (by omega)
          · rw [if_neg hx]
        · rw [if_neg hb]; simp only [memGet]

/-- The head of a canonical memory after a write lies at the lower of the two addresses, so that what stood before it still does. -/
theorem memPut_cons_wf {m : Memory} {p : Nat × Byte} (h : Memory.wf (p :: m) = true) (a : Nat) (b : Byte) (ha : p.1 < a)
    (hm : (memPut m a b).wf = true) : Memory.wf (p :: memPut m a b) = true := by
  obtain ⟨y, c⟩ := p
  have hc : (c != 0) = true := by cases m <;> simp_all [Memory.wf]
  have key : ∀ q r, memPut m a b = q :: r → y < q.1 := by
    intro q r he
    cases m with
    | nil => simp only [memPut] at he; split at he <;> simp_all; rw [← he.1]; exact ha
    | cons q2 r2 =>
      obtain ⟨u, d⟩ := q2
      have hy : y < u := by simp only [Memory.wf, Bool.and_eq_true, decide_eq_true_eq] at h; exact h.1.2
      have hn : ∀ q3 r3, r2 = q3 :: r3 → u < q3.1 := by
        intro q3 r3 h3
        subst h3
        simp only [Memory.wf, Bool.and_eq_true, decide_eq_true_eq] at h
        exact h.2.1.2
      simp only [memPut] at he
      split at he
      · cases he; exact hy
      · split at he
        · split at he
          · exact Nat.lt_trans hy (hn _ _ he)
          · cases he; exact ha
        · split at he
          · cases he; exact hy
          · cases he; exact ha
  cases he : memPut m a b with
  | nil => simpa [Memory.wf] using hc
  | cons q r =>
    rw [he] at hm
    simp only [Memory.wf, Bool.and_eq_true, decide_eq_true_eq]
    exact ⟨⟨hc, key q r he⟩, hm⟩

/-- The rest of a canonical memory is canonical. -/
theorem Memory.wf_tail {p : Nat × Byte} {m : Memory} (h : Memory.wf (p :: m) = true) : m.wf = true := by
  cases m with
  | nil => rfl
  | cons q r => simp only [Memory.wf, Bool.and_eq_true] at h; exact h.2

/-- A write keeps the canonical form. -/
theorem memPut_wf {m : Memory} (h : m.wf = true) (a : Nat) (b : Byte) : (memPut m a b).wf = true := by
  induction m with
  | nil => simp only [memPut]; split <;> simp_all [Memory.wf]
  | cons p r ih =>
    obtain ⟨y, c⟩ := p
    simp only [memPut]
    by_cases h1 : y < a
    · rw [if_pos h1]; exact memPut_cons_wf h a b h1 (ih (Memory.wf_tail h))
    · rw [if_neg h1]
      by_cases h2 : y = a
      · subst h2
        rw [if_pos rfl]
        split
        · exact Memory.wf_tail h
        · rename_i hb
          cases r with
          | nil => simpa [Memory.wf] using hb
          | cons q r2 => simp_all [Memory.wf]
      · rw [if_neg h2]
        split
        · exact h
        · rename_i hb
          simp only [Memory.wf, Bool.and_eq_true, decide_eq_true_eq]
          exact ⟨⟨by simpa using hb, by omega⟩, h⟩

/-- A write of bytes keeps the canonical form. -/
theorem memPuts_wf {m : Memory} (h : m.wf = true) (a : Nat) (l : List Byte) : (memPuts m a l).wf = true := by
  induction l generalizing m a with
  | nil => exact h
  | cons b r ih => exact ih (memPut_wf h a b) (a + 1)

/-- A write of bytes leaves every other byte. -/
theorem memGet_memPuts_other {m : Memory} (h : m.wf = true) (a x : Nat) (l : List Byte) (hx : x < a ∨ a + l.length ≤ x) :
    memGet (memPuts m a l) x = memGet m x := by
  induction l generalizing m a with
  | nil => rfl
  | cons b r ih =>
    simp only [List.length_cons] at hx
    simp only [memPuts]
    rw [ih (memPut_wf h a b) (a + 1) (by omega), memGet_memPut h, if_neg (by omega)]

/-- Reading a byte that a write wrote gives it. -/
theorem memGet_memPuts_at {m : Memory} (h : m.wf = true) (a j : Nat) (l : List Byte) (hj : j < l.length) :
    memGet (memPuts m a l) (a + j) = l[j] := by
  induction l generalizing m a j with
  | nil => simp at hj
  | cons b r ih =>
    simp only [memPuts]
    cases j with
    | zero => rw [memGet_memPuts_other (memPut_wf h a b) _ _ _ (by omega), Nat.add_zero, memGet_memPut h, if_pos rfl]; rfl
    | succ j =>
      have := ih (memPut_wf h a b) (a + 1) j (by simpa using hj)
      rw [show a + 1 + j = a + (j + 1) by omega] at this
      simpa using this

/-- The empty memory is canonical. -/
@[simp] theorem Memory.wf_nil : Memory.wf [] = true := rfl

/-! ### The spaces of a state -/

/-- The canonical form of the memories of one state carries over to another with the same ones. -/
theorem State.memOk_of_eq {s t : State} (h : s.memOk) (h1 : t.hbm = s.hbm) (h2 : t.cxl = s.cxl) (h3 : t.host = s.host) (h4 : t.teams = s.teams)
    (h5 : t.waves = s.waves) (h6 : t.ctxs = s.ctxs) : t.memOk := by
  unfold State.memOk at h ⊢
  rw [h1, h2, h3, h4, h5, h6]; exact h

/-- A wave changed in place keeps the canonical form when its stack does. -/
theorem State.memOk.modWave {s : State} (h : s.memOk) (id : Nat) (f : Wave → Wave) (hf : ∀ w : Wave, w.stack.wf = true → (f w).stack.wf = true) :
    (Machine.modWave s id f).memOk := by
  refine ⟨h.1, h.2.1, h.2.2.1, h.2.2.2.1, ?_, h.2.2.2.2.2⟩
  intro w hw
  simp only [Machine.modWave, List.mem_map] at hw
  obtain ⟨x, hx, rfl⟩ := hw
  split
  · exact hf x (h.2.2.2.2.1 x hx)
  · exact h.2.2.2.2.1 x hx

/-- A wave put back keeps the canonical form when its stack has it. -/
theorem State.memOk.putWave {s : State} (h : s.memOk) {w : Wave} (hw : w.stack.wf = true) : (Machine.putWave s w).memOk := by
  refine ⟨h.1, h.2.1, h.2.2.1, h.2.2.2.1, ?_, h.2.2.2.2.2⟩
  intro y hy
  simp only [Machine.putWave, List.mem_map] at hy
  obtain ⟨x, hx, rfl⟩ := hy
  split
  · exact hw
  · exact h.2.2.2.2.1 x hx

/-- A team changed in place keeps the canonical form when its shelf does. -/
theorem State.memOk.modTeam {s : State} (h : s.memOk) (id : Nat) (f : Team → Team) (hf : ∀ t : Team, t.shelf.wf = true → (f t).shelf.wf = true) :
    (Machine.modTeam s id f).memOk := by
  refine ⟨h.1, h.2.1, h.2.2.1, ?_, h.2.2.2.2.1, h.2.2.2.2.2⟩
  intro t ht
  simp only [Machine.modTeam, List.mem_map] at ht
  obtain ⟨x, hx, rfl⟩ := ht
  split
  · exact hf x (h.2.2.2.1 x hx)
  · exact h.2.2.2.1 x hx

/-- A context changed in place keeps the canonical form when its annexes do. -/
theorem State.memOk.modCtx {s : State} (h : s.memOk) (id : Nat) (f : Ctx → Ctx)
    (hf : ∀ c : Ctx, (∀ m ∈ c.annex, Memory.wf m = true) → ∀ m ∈ (f c).annex, Memory.wf m = true) : (Machine.modCtx s id f).memOk := by
  refine ⟨h.1, h.2.1, h.2.2.1, h.2.2.2.1, h.2.2.2.2.1, ?_⟩
  intro c hc
  simp only [Machine.modCtx, List.mem_map] at hc
  obtain ⟨x, hx, rfl⟩ := hc
  split
  · exact hf x (h.2.2.2.2.2 x hx)
  · exact h.2.2.2.2.2 x hx

/-- The memory of a space of a state in canonical form is canonical. -/
theorem State.memOk.getMem {s : State} (h : s.memOk) (sp : Space) : (Machine.getMem s sp).wf = true := by
  cases sp with
  | hbm => exact h.1
  | cxl => exact h.2.1
  | host => exact h.2.2.1
  | shelf t =>
    simp only [Machine.getMem, getTeam]
    cases hf : s.teams.find? (fun x => x.id == t) with
    | none => rfl
    | some x => exact h.2.2.2.1 x (List.mem_of_find?_eq_some hf)
  | annex c d =>
    simp only [Machine.getMem, getCtx]
    cases hf : s.ctxs.find? (fun x => x.id == c) with
    | none =>
      simp only [Option.getD_none, noCtx]
      rcases d with _ | _ | _ | _ | d <;> simp
    | some x =>
      simp only [Option.getD_some]
      cases hd : x.annex[d]? with
      | none => rfl
      | some m => exact h.2.2.2.2.2 x (List.mem_of_find?_eq_some hf) m (List.mem_of_getElem? hd)
  | stack w =>
    simp only [Machine.getMem, findWave]
    cases hf : s.waves.find? (fun x => x.id == w) with
    | none => rfl
    | some x => exact h.2.2.2.2.1 x (List.mem_of_find?_eq_some hf)

/-- What a list changed at one place holds. -/
theorem mem_setAt {α : Type} {l : List α} {n : Nat} {x y : α} (h : y ∈ setAt l n x) : y ∈ l ∨ y = x := by
  induction l generalizing n with
  | nil => simp [setAt] at h
  | cons z r ih =>
    cases n with
    | zero => simp only [setAt, List.mem_cons] at h ⊢; tauto
    | succ n =>
      simp only [setAt, List.mem_cons] at h ⊢
      rcases h with rfl | h
      · exact .inl (.inl rfl)
      · rcases ih h with h | h
        · exact .inl (.inr h)
        · exact .inr h

/-- A canonical memory put in a space keeps the canonical form. -/
theorem State.memOk.setMem {s : State} (h : s.memOk) (sp : Space) {m : Memory} (hm : m.wf = true) : (Machine.setMem s sp m).memOk := by
  cases sp with
  | hbm => exact ⟨hm, h.2⟩
  | cxl => exact ⟨h.1, hm, h.2.2⟩
  | host => exact ⟨h.1, h.2.1, hm, h.2.2.2⟩
  | shelf t => exact h.modTeam t _ (fun _ _ => hm)
  | annex c d =>
    refine h.modCtx c _ (fun x hx y hy => ?_)
    rcases mem_setAt hy with hy | rfl
    · exact hx y hy
    · exact hm
  | stack w => exact h.modWave w _ (fun _ _ => hm)

/-- The note of the highest stack offset keeps the memories. -/
theorem State.memOk.noteStack {s : State} (h : s.memOk) (sp : Space) (a n : Nat) : (Machine.noteStack s sp a n).memOk := by
  cases sp with
  | stack w => exact h.modWave w _ (fun _ hw => hw)
  | _ => exact h

/-- A write of bytes keeps the canonical form of every memory. -/
theorem State.memOk.writeBytes {s : State} (h : s.memOk) (sp : Space) (a : Nat) (l : List Byte) : (Machine.writeBytes s sp a l).memOk :=
  (h.setMem sp (memPuts_wf (h.getMem sp) a l)).noteStack sp a l.length

/-- The clearing of poison keeps the memories. -/
theorem State.memOk.clearPoison {s : State} (h : s.memOk) (sp : Space) (l : List Nat) : (Machine.clearPoison s sp l).memOk := by
  simp only [Machine.clearPoison]; split <;> exact h

/-- A poison mark keeps the memories. -/
theorem State.memOk.addPoison {s : State} (h : s.memOk) (sp : Space) (n : Nat) : (Machine.addPoison s sp n).memOk := by
  simp only [Machine.addPoison]; split <;> exact h

/-- A write of a range keeps the canonical form. -/
theorem State.memOk.writeRange {s : State} (h : s.memOk) (sp : Space) (a : Nat) (l : List Byte) : (Machine.writeRange s sp a l).memOk :=
  (h.writeBytes sp a l).clearPoison sp _

/-- A write at a system address keeps the canonical form. -/
theorem State.memOk.sysWrite {s : State} (h : s.memOk) (a : W64) (l : List Byte) : (Machine.sysWrite s a l).memOk := by
  simp only [Machine.sysWrite]
  split
  · exact h.writeRange _ _ _
  · exact h

/-- The reset state's memories list nothing, so they are canonical. -/
theorem reset_memories : State.reset.hbm = [] ∧ State.reset.cxl = [] ∧ State.reset.host = [] ∧ State.reset.teams = [] ∧ State.reset.waves = []
    ∧ State.reset.ctxs = [] := ⟨rfl, rfl, rfl, rfl, rfl, rfl⟩

/-- The canonical form at reset. -/
theorem reset_canonical : State.reset.memOk := by
  unfold State.memOk
  simp [reset_memories]

/-- A byte of a space of local HBM, of the CXL tier or of the host after a write of bytes to it. -/
theorem readByte_writeBytes_hbm {s : State} (h : s.hbm.wf = true) (a x : Nat) (l : List Byte) (hx : x < a ∨ a + l.length ≤ x) :
    readByte (writeBytes s .hbm a l) .hbm x = readByte s .hbm x := memGet_memPuts_other h a x l hx

/-- A byte that was written to local HBM reads as written. -/
theorem readByte_writeBytes_at {s : State} (h : s.hbm.wf = true) (a j : Nat) (l : List Byte) (hj : j < l.length) :
    readByte (writeBytes s .hbm a l) .hbm (a + j) = l[j] := memGet_memPuts_at h a j l hj

end Sys2Proof.Machine
end

