-- ==== Sys2Proof/Laws/PerInstr.lean ====
section
/-! SUPPORT. The family Encoding, one lemma for each constructor of `Instr`: the opcode map and the encoding table agree (R136). -/

namespace Sys2Proof.Laws.Encoding

/-- The fields that encode an instruction are read, with any literal, as an instruction of the same constructor or as none. -/
def Statement (i : Instr) : Prop :=
  ∀ (r : Raw) (lit : Option W64) (j : Instr), rawOf i = some r → ofRaw r lit = some j → j.ctorIdx = i.ctorIdx

/-- What the general layout reads is of the constructor it was asked for. -/
theorem genOf_shape {k : GenW → Instr} {r : Raw} {lit : Option W64} {j : Instr} (h : genOf k r lit = some j) : ∃ g, j = k g := by
  simp only [genOf] at h; split at h
  · exact ⟨_, (Option.some.inj h).symm⟩
  · cases h

/-- The same for the memory layout. -/
theorem memOf_shape {k : MemW → Instr} {r : Raw} {lit : Option W64} {j : Instr} (h : memOf k r lit = some j) : ∃ g, j = k g := by
  simp only [memOf] at h; split at h
  · exact ⟨_, (Option.some.inj h).symm⟩
  · cases h

/-- The same for the atomic layout. -/
theorem atomOf_shape {k : AtomW → Instr} {r : Raw} {lit : Option W64} {j : Instr} (h : atomOf k r lit = some j) : ∃ g, j = k g := by
  simp only [atomOf] at h; split at h
  · exact ⟨_, (Option.some.inj h).symm⟩
  · cases h

/-- The same for the remote layout. -/
theorem remOf_shape {k : RemW → Instr} {r : Raw} {lit : Option W64} {j : Instr} (h : remOf k r lit = some j) : ∃ g, j = k g := by
  simp only [remOf] at h; split at h
  · exact ⟨_, (Option.some.inj h).symm⟩
  · cases h

/-- The same for the branch layout. -/
theorem brOf_shape {k : BrW → Instr} {r : Raw} {lit : Option W64} {j : Instr} (h : brOf k r lit = some j) : ∃ g, j = k g := by
  simp only [brOf] at h; split at h
  · exact ⟨_, (Option.some.inj h).symm⟩
  · cases h

/-- A constructor of the gen layout whose opcode the map gives to it. -/
theorem of_gen {k : GenW → Instr} {n : Nat} {w : GenW} (h1 : rawOf (k w) = some (rawGen n w))
    (h2 : ∀ lit, ofRaw (rawGen n w) lit = genOf k (rawGen n w) lit) (h3 : ∀ g, (k g).ctorIdx = (k w).ctorIdx) : Statement (k w) := by
  intro r lit j hr hj
  rw [h1] at hr
  cases hr
  rw [h2] at hj
  obtain ⟨g, rfl⟩ := genOf_shape hj
  exact h3 g

/-- A constructor of the mem layout whose opcode the map gives to it. -/
theorem of_mem {k : MemW → Instr} {n : Nat} {w : MemW} (h1 : rawOf (k w) = some (rawMem n w))
    (h2 : ∀ lit, ofRaw (rawMem n w) lit = memOf k (rawMem n w) lit) (h3 : ∀ g, (k g).ctorIdx = (k w).ctorIdx) : Statement (k w) := by
  intro r lit j hr hj
  rw [h1] at hr
  cases hr
  rw [h2] at hj
  obtain ⟨g, rfl⟩ := memOf_shape hj
  exact h3 g

/-- A constructor of the atom layout whose opcode the map gives to it. -/
theorem of_atom {k : AtomW → Instr} {n : Nat} {w : AtomW} (h1 : rawOf (k w) = some (rawAtom n w))
    (h2 : ∀ lit, ofRaw (rawAtom n w) lit = atomOf k (rawAtom n w) lit) (h3 : ∀ g, (k g).ctorIdx = (k w).ctorIdx) : Statement (k w) := by
  intro r lit j hr hj
  rw [h1] at hr
  cases hr
  rw [h2] at hj
  obtain ⟨g, rfl⟩ := atomOf_shape hj
  exact h3 g

/-- A constructor of the rem layout whose opcode the map gives to it. -/
theorem of_rem {k : RemW → Instr} {n : Nat} {w : RemW} (h1 : rawOf (k w) = some (rawRem n w))
    (h2 : ∀ lit, ofRaw (rawRem n w) lit = remOf k (rawRem n w) lit) (h3 : ∀ g, (k g).ctorIdx = (k w).ctorIdx) : Statement (k w) := by
  intro r lit j hr hj
  rw [h1] at hr
  cases hr
  rw [h2] at hj
  obtain ⟨g, rfl⟩ := remOf_shape hj
  exact h3 g

/-- A constructor of the br layout whose opcode the map gives to it. -/
theorem of_br {k : BrW → Instr} {n : Nat} {w : BrW} (h1 : rawOf (k w) = some (rawBr n w))
    (h2 : ∀ lit, ofRaw (rawBr n w) lit = brOf k (rawBr n w) lit) (h3 : ∀ g, (k g).ctorIdx = (k w).ctorIdx) : Statement (k w) := by
  intro r lit j hr hj
  rw [h1] at hr
  cases hr
  rw [h2] at hj
  obtain ⟨g, rfl⟩ := brOf_shape hj
  exact h3 g

/-- An event has no word. -/
theorem of_event {i : Instr} (h : rawOf i = none) : Statement i := by
  intro r lit j hr
  rw [h] at hr
  cases hr

theorem nop (w : GenW) : Statement (.nop w) := of_gen (n := 0x000) rfl (fun _ => rfl) (fun _ => rfl)
theorem bra (w : BrW) : Statement (.bra w) := of_br (n := 0x001) rfl (fun _ => rfl) (fun _ => rfl)
theorem bkz (w : BrW) : Statement (.bkz w) := of_br (n := 0x002) rfl (fun _ => rfl) (fun _ => rfl)
theorem bknz (w : BrW) : Statement (.bknz w) := of_br (n := 0x003) rfl (fun _ => rfl) (fun _ => rfl)
theorem bhz (w : BrW) : Statement (.bhz w) := of_br (n := 0x004) rfl (fun _ => rfl) (fun _ => rfl)
theorem call (w : BrW) : Statement (.call w) := of_br (n := 0x005) rfl (fun _ => rfl) (fun _ => rfl)
theorem ret (w : GenW) : Statement (.ret w) := of_gen (n := 0x006) rfl (fun _ => rfl) (fun _ => rfl)
theorem jmpi (w : GenW) : Statement (.jmpi w) := of_gen (n := 0x007) rfl (fun _ => rfl) (fun _ => rfl)
theorem loop (w : BrW) : Statement (.loop w) := of_br (n := 0x008) rfl (fun _ => rfl) (fun _ => rfl)
theorem endp (w : GenW) : Statement (.endp w) := of_gen (n := 0x009) rfl (fun _ => rfl) (fun _ => rfl)
theorem trap (w : GenW) : Statement (.trap w) := of_gen (n := 0x00A) rfl (fun _ => rfl) (fun _ => rfl)
theorem rft (w : GenW) : Statement (.rft w) := of_gen (n := 0x00B) rfl (fun _ => rfl) (fun _ => rfl)
theorem yield (w : GenW) : Statement (.yield w) := of_gen (n := 0x00C) rfl (fun _ => rfl) (fun _ => rfl)
theorem yieldExpiry (wave : Nat) : Statement (.yieldExpiry wave) := of_event rfl
theorem srd (w : GenW) : Statement (.srd w) := of_gen (n := 0x00D) rfl (fun _ => rfl) (fun _ => rfl)
theorem swr (w : GenW) : Statement (.swr w) := of_gen (n := 0x00E) rfl (fun _ => rfl) (fun _ => rfl)
theorem haltctx (w : GenW) : Statement (.haltctx w) := of_gen (n := 0x00F) rfl (fun _ => rfl) (fun _ => rfl)
theorem drain (w : GenW) : Statement (.drain w) := of_gen (n := 0x010) rfl (fun _ => rfl) (fun _ => rfl)
theorem tlbinv (w : GenW) : Statement (.tlbinv w) := of_gen (n := 0x011) rfl (fun _ => rfl) (fun _ => rfl)
theorem replay (w : GenW) : Statement (.replay w) := of_gen (n := 0x012) rfl (fun _ => rfl) (fun _ => rfl)
theorem nopre (w : GenW) : Statement (.nopre w) := of_gen (n := 0x013) rfl (fun _ => rfl) (fun _ => rfl)
theorem pre (w : GenW) : Statement (.pre w) := of_gen (n := 0x014) rfl (fun _ => rfl) (fun _ => rfl)
theorem mark (w : GenW) : Statement (.mark w) := of_gen (n := 0x015) rfl (fun _ => rfl) (fun _ => rfl)
theorem smov (w : GenW) : Statement (.smov w) := of_gen (n := 0x040) rfl (fun _ => rfl) (fun _ => rfl)
theorem sli (w : GenW) : Statement (.sli w) := of_gen (n := 0x041) rfl (fun _ => rfl) (fun _ => rfl)
theorem sadd (w : GenW) : Statement (.sadd w) := of_gen (n := 0x042) rfl (fun _ => rfl) (fun _ => rfl)
theorem ssub (w : GenW) : Statement (.ssub w) := of_gen (n := 0x043) rfl (fun _ => rfl) (fun _ => rfl)
theorem smul (w : GenW) : Statement (.smul w) := of_gen (n := 0x044) rfl (fun _ => rfl) (fun _ => rfl)
theorem smulh (w : GenW) : Statement (.smulh w) := of_gen (n := 0x045) rfl (fun _ => rfl) (fun _ => rfl)
theorem smad (w : GenW) : Statement (.smad w) := of_gen (n := 0x046) rfl (fun _ => rfl) (fun _ => rfl)
theorem sdiv (w : GenW) : Statement (.sdiv w) := of_gen (n := 0x047) rfl (fun _ => rfl) (fun _ => rfl)
theorem srem (w : GenW) : Statement (.srem w) := of_gen (n := 0x048) rfl (fun _ => rfl) (fun _ => rfl)
theorem sand (w : GenW) : Statement (.sand w) := of_gen (n := 0x049) rfl (fun _ => rfl) (fun _ => rfl)
theorem sor (w : GenW) : Statement (.sor w) := of_gen (n := 0x04A) rfl (fun _ => rfl) (fun _ => rfl)
theorem sxor (w : GenW) : Statement (.sxor w) := of_gen (n := 0x04B) rfl (fun _ => rfl) (fun _ => rfl)
theorem sshl (w : GenW) : Statement (.sshl w) := of_gen (n := 0x04C) rfl (fun _ => rfl) (fun _ => rfl)
theorem sshr (w : GenW) : Statement (.sshr w) := of_gen (n := 0x04D) rfl (fun _ => rfl) (fun _ => rfl)
theorem smin (w : GenW) : Statement (.smin w) := of_gen (n := 0x04E) rfl (fun _ => rfl) (fun _ => rfl)
theorem smax (w : GenW) : Statement (.smax w) := of_gen (n := 0x04F) rfl (fun _ => rfl) (fun _ => rfl)
theorem scmp (w : GenW) : Statement (.scmp w) := of_gen (n := 0x050) rfl (fun _ => rfl) (fun _ => rfl)
theorem stst (w : GenW) : Statement (.stst w) := of_gen (n := 0x051) rfl (fun _ => rfl) (fun _ => rfl)
theorem ssel (w : GenW) : Statement (.ssel w) := of_gen (n := 0x052) rfl (fun _ => rfl) (fun _ => rfl)
theorem sclz (w : GenW) : Statement (.sclz w) := of_gen (n := 0x053) rfl (fun _ => rfl) (fun _ => rfl)
theorem spopc (w : GenW) : Statement (.spopc w) := of_gen (n := 0x054) rfl (fun _ => rfl) (fun _ => rfl)
theorem sbfe (w : GenW) : Statement (.sbfe w) := of_gen (n := 0x055) rfl (fun _ => rfl) (fun _ => rfl)
theorem sbfi (w : GenW) : Statement (.sbfi w) := of_gen (n := 0x056) rfl (fun _ => rfl) (fun _ => rfl)
theorem kand (w : GenW) : Statement (.kand w) := of_gen (n := 0x080) rfl (fun _ => rfl) (fun _ => rfl)
theorem kor (w : GenW) : Statement (.kor w) := of_gen (n := 0x081) rfl (fun _ => rfl) (fun _ => rfl)
theorem kxor (w : GenW) : Statement (.kxor w) := of_gen (n := 0x082) rfl (fun _ => rfl) (fun _ => rfl)
theorem kandn (w : GenW) : Statement (.kandn w) := of_gen (n := 0x083) rfl (fun _ => rfl) (fun _ => rfl)
theorem kmov (w : GenW) : Statement (.kmov w) := of_gen (n := 0x084) rfl (fun _ => rfl) (fun _ => rfl)
theorem kset (w : GenW) : Statement (.kset w) := of_gen (n := 0x085) rfl (fun _ => rfl) (fun _ => rfl)
theorem kget (w : GenW) : Statement (.kget w) := of_gen (n := 0x086) rfl (fun _ => rfl) (fun _ => rfl)
theorem kpopc (w : GenW) : Statement (.kpopc w) := of_gen (n := 0x087) rfl (fun _ => rfl) (fun _ => rfl)
theorem kfirst (w : GenW) : Statement (.kfirst w) := of_gen (n := 0x088) rfl (fun _ => rfl) (fun _ => rfl)
theorem vmov (w : GenW) : Statement (.vmov w) := of_gen (n := 0x0A0) rfl (fun _ => rfl) (fun _ => rfl)
theorem vadd (w : GenW) : Statement (.vadd w) := of_gen (n := 0x0A1) rfl (fun _ => rfl) (fun _ => rfl)
theorem vsub (w : GenW) : Statement (.vsub w) := of_gen (n := 0x0A2) rfl (fun _ => rfl) (fun _ => rfl)
theorem vmul (w : GenW) : Statement (.vmul w) := of_gen (n := 0x0A3) rfl (fun _ => rfl) (fun _ => rfl)
theorem vmulh (w : GenW) : Statement (.vmulh w) := of_gen (n := 0x0A4) rfl (fun _ => rfl) (fun _ => rfl)
theorem vmad (w : GenW) : Statement (.vmad w) := of_gen (n := 0x0A5) rfl (fun _ => rfl) (fun _ => rfl)
theorem vand (w : GenW) : Statement (.vand w) := of_gen (n := 0x0A6) rfl (fun _ => rfl) (fun _ => rfl)
theorem vor (w : GenW) : Statement (.vor w) := of_gen (n := 0x0A7) rfl (fun _ => rfl) (fun _ => rfl)
theorem vxor (w : GenW) : Statement (.vxor w) := of_gen (n := 0x0A8) rfl (fun _ => rfl) (fun _ => rfl)
theorem vshl (w : GenW) : Statement (.vshl w) := of_gen (n := 0x0A9) rfl (fun _ => rfl) (fun _ => rfl)
theorem vshr (w : GenW) : Statement (.vshr w) := of_gen (n := 0x0AA) rfl (fun _ => rfl) (fun _ => rfl)
theorem vmin (w : GenW) : Statement (.vmin w) := of_gen (n := 0x0AB) rfl (fun _ => rfl) (fun _ => rfl)
theorem vmax (w : GenW) : Statement (.vmax w) := of_gen (n := 0x0AC) rfl (fun _ => rfl) (fun _ => rfl)
theorem vabs (w : GenW) : Statement (.vabs w) := of_gen (n := 0x0AD) rfl (fun _ => rfl) (fun _ => rfl)
theorem vcmp (w : GenW) : Statement (.vcmp w) := of_gen (n := 0x0AE) rfl (fun _ => rfl) (fun _ => rfl)
theorem vsel (w : GenW) : Statement (.vsel w) := of_gen (n := 0x0AF) rfl (fun _ => rfl) (fun _ => rfl)
theorem vclz (w : GenW) : Statement (.vclz w) := of_gen (n := 0x0B0) rfl (fun _ => rfl) (fun _ => rfl)
theorem vpopc (w : GenW) : Statement (.vpopc w) := of_gen (n := 0x0B1) rfl (fun _ => rfl) (fun _ => rfl)
theorem vbfe (w : GenW) : Statement (.vbfe w) := of_gen (n := 0x0B2) rfl (fun _ => rfl) (fun _ => rfl)
theorem vbfi (w : GenW) : Statement (.vbfi w) := of_gen (n := 0x0B3) rfl (fun _ => rfl) (fun _ => rfl)
theorem vdp4 (w : GenW) : Statement (.vdp4 w) := of_gen (n := 0x0B4) rfl (fun _ => rfl) (fun _ => rfl)
theorem vfadd (w : GenW) : Statement (.vfadd w) := of_gen (n := 0x100) rfl (fun _ => rfl) (fun _ => rfl)
theorem vfsub (w : GenW) : Statement (.vfsub w) := of_gen (n := 0x101) rfl (fun _ => rfl) (fun _ => rfl)
theorem vfmul (w : GenW) : Statement (.vfmul w) := of_gen (n := 0x102) rfl (fun _ => rfl) (fun _ => rfl)
theorem vfma (w : GenW) : Statement (.vfma w) := of_gen (n := 0x103) rfl (fun _ => rfl) (fun _ => rfl)
theorem vfmin (w : GenW) : Statement (.vfmin w) := of_gen (n := 0x104) rfl (fun _ => rfl) (fun _ => rfl)
theorem vfmax (w : GenW) : Statement (.vfmax w) := of_gen (n := 0x105) rfl (fun _ => rfl) (fun _ => rfl)
theorem vfcmp (w : GenW) : Statement (.vfcmp w) := of_gen (n := 0x106) rfl (fun _ => rfl) (fun _ => rfl)
theorem vfclass (w : GenW) : Statement (.vfclass w) := of_gen (n := 0x107) rfl (fun _ => rfl) (fun _ => rfl)
theorem vrcp (w : GenW) : Statement (.vrcp w) := of_gen (n := 0x108) rfl (fun _ => rfl) (fun _ => rfl)
theorem vrsq (w : GenW) : Statement (.vrsq w) := of_gen (n := 0x109) rfl (fun _ => rfl) (fun _ => rfl)
theorem vsqrt (w : GenW) : Statement (.vsqrt w) := of_gen (n := 0x10A) rfl (fun _ => rfl) (fun _ => rfl)
theorem vdiv (w : GenW) : Statement (.vdiv w) := of_gen (n := 0x10B) rfl (fun _ => rfl) (fun _ => rfl)
theorem vexp2 (w : GenW) : Statement (.vexp2 w) := of_gen (n := 0x10C) rfl (fun _ => rfl) (fun _ => rfl)
theorem vlog2 (w : GenW) : Statement (.vlog2 w) := of_gen (n := 0x10D) rfl (fun _ => rfl) (fun _ => rfl)
theorem vcvt (w : GenW) : Statement (.vcvt w) := of_gen (n := 0x10E) rfl (fun _ => rfl) (fun _ => rfl)
theorem vfrnd (w : GenW) : Statement (.vfrnd w) := of_gen (n := 0x10F) rfl (fun _ => rfl) (fun _ => rfl)
theorem vpack (w : GenW) : Statement (.vpack w) := of_gen (n := 0x110) rfl (fun _ => rfl) (fun _ => rfl)
theorem vunpk (w : GenW) : Statement (.vunpk w) := of_gen (n := 0x111) rfl (fun _ => rfl) (fun _ => rfl)
theorem vshuf (w : GenW) : Statement (.vshuf w) := of_gen (n := 0x160) rfl (fun _ => rfl) (fun _ => rfl)
theorem vxsh (w : GenW) : Statement (.vxsh w) := of_gen (n := 0x161) rfl (fun _ => rfl) (fun _ => rfl)
theorem vbcast (w : GenW) : Statement (.vbcast w) := of_gen (n := 0x162) rfl (fun _ => rfl) (fun _ => rfl)
theorem vred (w : GenW) : Statement (.vred w) := of_gen (n := 0x163) rfl (fun _ => rfl) (fun _ => rfl)
theorem vscan (w : GenW) : Statement (.vscan w) := of_gen (n := 0x164) rfl (fun _ => rfl) (fun _ => rfl)
theorem vcomp (w : GenW) : Statement (.vcomp w) := of_gen (n := 0x165) rfl (fun _ => rfl) (fun _ => rfl)
theorem vexpd (w : GenW) : Statement (.vexpd w) := of_gen (n := 0x166) rfl (fun _ => rfl) (fun _ => rfl)
theorem vapnd (w : GenW) : Statement (.vapnd w) := of_gen (n := 0x167) rfl (fun _ => rfl) (fun _ => rfl)
theorem vvote (w : GenW) : Statement (.vvote w) := of_gen (n := 0x168) rfl (fun _ => rfl) (fun _ => rfl)
theorem vrand (w : GenW) : Statement (.vrand w) := of_gen (n := 0x169) rfl (fun _ => rfl) (fun _ => rfl)
theorem vrseed (w : GenW) : Statement (.vrseed w) := of_gen (n := 0x16A) rfl (fun _ => rfl) (fun _ => rfl)
theorem vsca (w : GenW) : Statement (.vsca w) := of_gen (n := 0x16B) rfl (fun _ => rfl) (fun _ => rfl)
theorem bset (w : GenW) : Statement (.bset w) := of_gen (n := 0x16C) rfl (fun _ => rfl) (fun _ => rfl)
theorem bmap (w : GenW) : Statement (.bmap w) := of_gen (n := 0x16D) rfl (fun _ => rfl) (fun _ => rfl)
theorem mma (w : GenW) : Statement (.mma w) := of_gen (n := 0x1A0) rfl (fun _ => rfl) (fun _ => rfl)
theorem mmaRetire (op : Nat) : Statement (.mmaRetire op) := of_event rfl
theorem msca (w : GenW) : Statement (.msca w) := of_gen (n := 0x1A1) rfl (fun _ => rfl) (fun _ => rfl)
theorem mtrn (w : GenW) : Statement (.mtrn w) := of_gen (n := 0x1A2) rfl (fun _ => rfl) (fun _ => rfl)
theorem mldf (w : MemW) : Statement (.mldf w) := of_mem (n := 0x1A3) rfl (fun _ => rfl) (fun _ => rfl)
theorem mstf (w : MemW) : Statement (.mstf w) := of_mem (n := 0x1A4) rfl (fun _ => rfl) (fun _ => rfl)
theorem ld (w : MemW) : Statement (.ld w) := of_mem (n := 0x1C0) rfl (fun _ => rfl) (fun _ => rfl)
theorem st (w : MemW) : Statement (.st w) := of_mem (n := 0x1C1) rfl (fun _ => rfl) (fun _ => rfl)
theorem ldb (w : MemW) : Statement (.ldb w) := of_mem (n := 0x1C2) rfl (fun _ => rfl) (fun _ => rfl)
theorem stb (w : MemW) : Statement (.stb w) := of_mem (n := 0x1C3) rfl (fun _ => rfl) (fun _ => rfl)
theorem atom (w : AtomW) : Statement (.atom w) := of_atom (n := 0x1C4) rfl (fun _ => rfl) (fun _ => rfl)
theorem atomr (w : AtomW) : Statement (.atomr w) := of_atom (n := 0x1C5) rfl (fun _ => rfl) (fun _ => rfl)
theorem cas (w : MemW) : Statement (.cas w) := of_mem (n := 0x1C6) rfl (fun _ => rfl) (fun _ => rfl)
theorem fence (w : MemW) : Statement (.fence w) := of_mem (n := 0x1C7) rfl (fun _ => rfl) (fun _ => rfl)
theorem prf (w : MemW) : Statement (.prf w) := of_mem (n := 0x1C8) rfl (fun _ => rfl) (fun _ => rfl)
theorem ldh (w : MemW) : Statement (.ldh w) := of_mem (n := 0x1C9) rfl (fun _ => rfl) (fun _ => rfl)
theorem sth (w : MemW) : Statement (.sth w) := of_mem (n := 0x1CA) rfl (fun _ => rfl) (fun _ => rfl)
theorem hmov (w : GenW) : Statement (.hmov w) := of_gen (n := 0x1CB) rfl (fun _ => rfl) (fun _ => rfl)
theorem pin (w : GenW) : Statement (.pin w) := of_gen (n := 0x1CC) rfl (fun _ => rfl) (fun _ => rfl)
theorem unpin (w : GenW) : Statement (.unpin w) := of_gen (n := 0x1CD) rfl (fun _ => rfl) (fun _ => rfl)
theorem pld (w : RemW) : Statement (.pld w) := of_rem (n := 0x240) rfl (fun _ => rfl) (fun _ => rfl)
theorem pst (w : RemW) : Statement (.pst w) := of_rem (n := 0x241) rfl (fun _ => rfl) (fun _ => rfl)
theorem psts (w : RemW) : Statement (.psts w) := of_rem (n := 0x242) rfl (fun _ => rfl) (fun _ => rfl)
theorem patom (w : AtomW) : Statement (.patom w) := of_atom (n := 0x243) rfl (fun _ => rfl) (fun _ => rfl)
theorem patomr (w : AtomW) : Statement (.patomr w) := of_atom (n := 0x244) rfl (fun _ => rfl) (fun _ => rfl)
theorem nput (w : GenW) : Statement (.nput w) := of_gen (n := 0x245) rfl (fun _ => rfl) (fun _ => rfl)
theorem nget (w : GenW) : Statement (.nget w) := of_gen (n := 0x246) rfl (fun _ => rfl) (fun _ => rfl)
theorem natom (w : GenW) : Statement (.natom w) := of_gen (n := 0x247) rfl (fun _ => rfl) (fun _ => rfl)
theorem nflush (w : GenW) : Statement (.nflush w) := of_gen (n := 0x248) rfl (fun _ => rfl) (fun _ => rfl)
theorem wrev (w : GenW) : Statement (.wrev w) := of_gen (n := 0x249) rfl (fun _ => rfl) (fun _ => rfl)
theorem copy (w : GenW) : Statement (.copy w) := of_gen (n := 0x280) rfl (fun _ => rfl) (fun _ => rfl)
theorem copym (w : GenW) : Statement (.copym w) := of_gen (n := 0x281) rfl (fun _ => rfl) (fun _ => rfl)
theorem chain (w : GenW) : Statement (.chain w) := of_gen (n := 0x282) rfl (fun _ => rfl) (fun _ => rfl)
theorem close (w : GenW) : Statement (.close w) := of_gen (n := 0x283) rfl (fun _ => rfl) (fun _ => rfl)
theorem waitb (w : GenW) : Statement (.waitb w) := of_gen (n := 0x284) rfl (fun _ => rfl) (fun _ => rfl)
theorem cadd (w : GenW) : Statement (.cadd w) := of_gen (n := 0x285) rfl (fun _ => rfl) (fun _ => rfl)
theorem tryw (w : GenW) : Statement (.tryw w) := of_gen (n := 0x286) rfl (fun _ => rfl) (fun _ => rfl)
theorem trywPeriodicRead (wave : Nat) : Statement (.trywPeriodicRead wave) := of_event rfl
theorem trywLimitExpiry (wave : Nat) : Statement (.trywLimitExpiry wave) := of_event rfl
theorem spawn (w : GenW) : Statement (.spawn w) := of_gen (n := 0x2C0) rfl (fun _ => rfl) (fun _ => rfl)
theorem taskAccept (task : Nat) : Statement (.taskAccept task) := of_event rfl
theorem cscope (w : GenW) : Statement (.cscope w) := of_gen (n := 0x2C1) rfl (fun _ => rfl) (fun _ => rfl)
theorem cancel (w : GenW) : Statement (.cancel w) := of_gen (n := 0x2C2) rfl (fun _ => rfl) (fun _ => rfl)
theorem kpoll (w : GenW) : Statement (.kpoll w) := of_gen (n := 0x2C3) rfl (fun _ => rfl) (fun _ => rfl)
theorem bars (w : GenW) : Statement (.bars w) := of_gen (n := 0x2C4) rfl (fun _ => rfl) (fun _ => rfl)
theorem bara (w : GenW) : Statement (.bara w) := of_gen (n := 0x2C5) rfl (fun _ => rfl) (fun _ => rfl)
theorem barw (w : GenW) : Statement (.barw w) := of_gen (n := 0x2C6) rfl (fun _ => rfl) (fun _ => rfl)
theorem give (w : GenW) : Statement (.give w) := of_gen (n := 0x2C7) rfl (fun _ => rfl) (fun _ => rfl)
theorem giveRelease (wave : Nat) : Statement (.giveRelease wave) := of_event rfl
theorem claim (w : GenW) : Statement (.claim w) := of_gen (n := 0x2C8) rfl (fun _ => rfl) (fun _ => rfl)
theorem hwait (w : GenW) : Statement (.hwait w) := of_gen (n := 0x2C9) rfl (fun _ => rfl) (fun _ => rfl)
theorem waitt (w : GenW) : Statement (.waitt w) := of_gen (n := 0x2CA) rfl (fun _ => rfl) (fun _ => rfl)
theorem elect (w : GenW) : Statement (.elect w) := of_gen (n := 0x2CB) rfl (fun _ => rfl) (fun _ => rfl)
theorem aloop (w : GenW) : Statement (.aloop w) := of_gen (n := 0x300) rfl (fun _ => rfl) (fun _ => rfl)
theorem aend (w : GenW) : Statement (.aend w) := of_gen (n := 0x301) rfl (fun _ => rfl) (fun _ => rfl)
theorem ald (w : GenW) : Statement (.ald w) := of_gen (n := 0x302) rfl (fun _ => rfl) (fun _ => rfl)
theorem apf (w : GenW) : Statement (.apf w) := of_gen (n := 0x303) rfl (fun _ => rfl) (fun _ => rfl)
theorem aadv (w : GenW) : Statement (.aadv w) := of_gen (n := 0x304) rfl (fun _ => rfl) (fun _ => rfl)
theorem ahalt (w : GenW) : Statement (.ahalt w) := of_gen (n := 0x305) rfl (fun _ => rfl) (fun _ => rfl)
theorem waveKill (wave : Nat) : Statement (.waveKill wave) := of_event rfl
theorem waveRetire (wave : Nat) : Statement (.waveRetire wave) := of_event rfl
theorem waveStateMachineCheck (wave : Nat) : Statement (.waveStateMachineCheck wave) := of_event rfl
theorem scopeQuiesceAck (ctx slot : Nat) : Statement (.scopeQuiesceAck ctx slot) := of_event rfl
theorem slipResolve (wave : Nat) (tag : W32) (reply : Reply) : Statement (.slipResolve wave tag reply) := of_event rfl
theorem trapDelivery (wave : Nat) : Statement (.trapDelivery wave) := of_event rfl
theorem faultRecordWrite (wave : Nat) : Statement (.faultRecordWrite wave) := of_event rfl
theorem nopreOverrun (wave : Nat) : Statement (.nopreOverrun wave) := of_event rfl
theorem preemption (ctx : Nat) : Statement (.preemption ctx) := of_event rfl
theorem teamRestore (team core : Nat) : Statement (.teamRestore team core) := of_event rfl
theorem binderyBatchStart (die : Nat) : Statement (.binderyBatchStart die) := of_event rfl
theorem binderyDrainDone (die : Nat) : Statement (.binderyDrainDone die) := of_event rfl
theorem binderyBatchDone (die : Nat) : Statement (.binderyBatchDone die) := of_event rfl
theorem bdyDoorbell (die : Nat) (value : W64) : Statement (.bdyDoorbell die value) := of_event rfl
theorem pstsResync (r : Resync) : Statement (.pstsResync r) := of_event rfl
theorem engineOpStart (op : Nat) : Statement (.engineOpStart op) := of_event rfl
theorem engineChunk (c : ChunkMove) : Statement (.engineChunk c) := of_event rfl
theorem engineOpComplete (op : Nat) : Statement (.engineOpComplete op) := of_event rfl
theorem engineOpAbort (op : Nat) : Statement (.engineOpAbort op) := of_event rfl
theorem lqDoorbell (queue : Nat) (value : W32) : Statement (.lqDoorbell queue value) := of_event rfl
theorem launchPacketRead (p : PacketRead) : Statement (.launchPacketRead p) := of_event rfl
theorem launchPending (queue : Nat) : Statement (.launchPending queue) := of_event rfl
theorem teamPlacement : Statement (.teamPlacement) := of_event rfl
theorem gridEnd (grid : Nat) : Statement (.gridEnd grid) := of_event rfl
theorem contextEndInterrupt (ctx : Nat) : Statement (.contextEndInterrupt ctx) := of_event rfl
theorem ctxEnd (value : W64) : Statement (.ctxEnd value) := of_event rfl
theorem governorWindow : Statement (.governorWindow) := of_event rfl
theorem coreHotMark (core temp : Nat) : Statement (.coreHotMark core temp) := of_event rfl
theorem coreDroop (core : Nat) : Statement (.coreDroop core) := of_event rfl
theorem priPageRequest (asid : Nat) (page : W64) : Statement (.priPageRequest asid page) := of_event rfl
theorem priResponse (group : Nat) (code : BitVec 4) : Statement (.priResponse group code) := of_event rfl
theorem atsInvalidateRequest (pasid : Nat) (va : W64) (len : Nat) : Statement (.atsInvalidateRequest pasid va len) := of_event rfl
theorem fabCtlEn : Statement (.fabCtlEn) := of_event rfl
theorem fabricJoin (id : BitVec 9) (inc : BitVec 16) : Statement (.fabricJoin id inc) := of_event rfl
theorem fabricPeerUpdate (peer : BitVec 9) (st : BitVec 2) (inc : BitVec 16) : Statement (.fabricPeerUpdate peer st inc) := of_event rfl
theorem planeDown (plane : Nat) : Statement (.planeDown plane) := of_event rfl
theorem flitLinkRetry (f : FlitNak) : Statement (.flitLinkRetry f) := of_event rfl
theorem fabricWritePacket (pkt : Packet) : Statement (.fabricWritePacket pkt) := of_event rfl
theorem fabricReadPacket (pkt : Packet) : Statement (.fabricReadPacket pkt) := of_event rfl
theorem fabricAtomicPacket (pkt : Packet) : Statement (.fabricAtomicPacket pkt) := of_event rfl
theorem fabricAck (ans : Answer) : Statement (.fabricAck ans) := of_event rfl
theorem fabricNak (ans : Answer) : Statement (.fabricNak ans) := of_event rfl
theorem fabricResponse (ans : Answer) : Statement (.fabricResponse ans) := of_event rfl
theorem fabricRtoExpiry (pkt : Nat) : Statement (.fabricRtoExpiry pkt) := of_event rfl
theorem fabricTmoExpiry (pkt : Nat) : Statement (.fabricTmoExpiry pkt) := of_event rfl
theorem netPacketArrival (pkt : NetPacket) : Statement (.netPacketArrival pkt) := of_event rfl
theorem netContextFetchDone (conn : Nat) : Statement (.netContextFetchDone conn) := of_event rfl
theorem netAck (ans : NetAnswer) : Statement (.netAck ans) := of_event rfl
theorem netNak (ans : NetAnswer) : Statement (.netNak ans) := of_event rfl
theorem netParkResend (pkt : Nat) : Statement (.netParkResend pkt) := of_event rfl
theorem netRetransmitTimeout (pkt : Nat) : Statement (.netRetransmitTimeout pkt) := of_event rfl
theorem arrayUncorrectableError (err : ArrayError) : Statement (.arrayUncorrectableError err) := of_event rfl
theorem arrayCorrectedError (err : ArrayError) : Statement (.arrayCorrectedError err) := of_event rfl
theorem selfTestComplete (unit : FailUnit) (found : TestReport) : Statement (.selfTestComplete unit found) := of_event rfl
theorem rangeLockEntryError (die index : Nat) (ownerReadable : Bool) : Statement (.rangeLockEntryError die index ownerReadable) := of_event rfl
theorem infieldTestDue (cluster : Nat) : Statement (.infieldTestDue cluster) := of_event rfl
theorem infieldTestEnd (cluster : Nat) (failing : List (FailUnit × Nat × TestOutcome)) : Statement (.infieldTestEnd cluster failing) := of_event rfl
theorem watchdogFire (team bar : Nat) : Statement (.watchdogFire team bar) := of_event rfl
theorem xbarCommitPrepare (value : W64) : Statement (.xbarCommitPrepare value) := of_event rfl
theorem xbarSwap : Statement (.xbarSwap) := of_event rfl
theorem mpWatchdogReset : Statement (.mpWatchdogReset) := of_event rfl
theorem latencyWindowEnd : Statement (.latencyWindowEnd) := of_event rfl
theorem securityAlarm (which : BitVec 2) : Statement (.securityAlarm which) := of_event rfl
theorem firmwareImageVerify (image : FirmwareImage) : Statement (.firmwareImageVerify image) := of_event rfl
theorem pwrMode (value : W64) : Statement (.pwrMode value) := of_event rfl
theorem errStatusClear (bank : Nat) : Statement (.errStatusClear bank) := of_event rfl
theorem powerOn (image : FirmwareImage) (rows : List W64) : Statement (.powerOn image rows) := of_event rfl
theorem registerWrite (agent : Writer) (offset : Nat) (value : W64) : Statement (.registerWrite agent offset value) := of_event rfl
theorem hostBarAccess (addr len : Nat) (store : Option (List Byte)) : Statement (.hostBarAccess addr len store) := of_event rfl
theorem fabricPlaneUp (plane : Nat) : Statement (.fabricPlaneUp plane) := of_event rfl
theorem fabricPacketSend (plane : Nat) : Statement (.fabricPacketSend plane) := of_event rfl
theorem mmaLeavesArray (op : Nat) : Statement (.mmaLeavesArray op) := of_event rfl
theorem atsTranslationResponse (pasid : Nat) (page : W64) (answer : Option AtsEntry) : Statement (.atsTranslationResponse pasid page answer) := of_event rfl
theorem priCapabilityWrite (allowance : Nat) (reenable : Option Nat) : Statement (.priCapabilityWrite allowance reenable) := of_event rfl
theorem pwrModeChangeComplete : Statement (.pwrModeChangeComplete) := of_event rfl
theorem mainPowerLoss : Statement (.mainPowerLoss) := of_event rfl

end Sys2Proof.Laws.Encoding
end

