-- ==== Sys2Proof/Tests/Slice0.lean ====
section
/-! SUPPORT. Tests: ill-formed terms that the check refuses; words written out from the encodings of the spec (R124, R126, R131, R133, R136), one
for every opcode; single steps on small states; and, for every statement with hypotheses, concrete states and operands that meet them. -/

namespace Sys2Proof.Tests

set_option Elab.async false

open Sys2Proof Sys2Proof.Machine

abbrev h0 : Hdr := plainHdr
abbrev g0 : GenW := plainGen
abbrev m0 : MemW := plainMem
abbrev t0 : AtomW := plainAtom
abbrev r0 : RemW := plainRem
abbrev b0 : BrW := plainBr

/-! ### A small state -/

/-- A kernel with a trap handler and a flashback table. -/
def tKernel : Kernel := { noKernel with exec := 0x1000, trapPc := 0x2000, policy := 1, flash := 0x3000, flashN := 16 }

/-- The scalar registers: s0 to s31 and s41 to s63 hold their numbers times 8; s32 an address in local HBM, s33 one in the shelf, s34 one in the
stack, s35 one in a page of peer 7, s36 one that is not mapped, s37 one that is not aligned, s38 the number of peer 7, s39 and s40 addresses in
local HBM. -/
def tScalars : List W64 :=
  (List.range 32).map (fun n => w64 (8 * n))
    ++ [0x1100, 0xFF00000000000040, 0xFF40000000000080, 0x10000, 0x9000, 0x1101, 7, 0x1200, 0x3000] ++ (List.range 23).map (fun n => w64 (8 * (n + 41)))

/-- Wave 3: 256 vector registers of 32 lanes, all zero. -/
def tWave : Wave :=
  let w := newWave 3 1 2 0 0 0 0 256 0 0 0 false tKernel 0 0
  { w with regs := { w.regs with v := List.replicate 256 (List.replicate 32 0), s := tScalars },
           ctl := { w.ctl with pc := 0x1000, st := .ready, fresh := false } }

/-- Its team. -/
def tTeam : Team :=
  { noTeam with id := 2, ctx := 1, kernel := tKernel, waves := [3], bars := List.replicate 16 (newBarrier 1), bounds := List.replicate 16 newBound,
                shelfSize := 4096, pools := [64, 0] }

/-- Its context. -/
def tCtx : Ctx := { noCtx with id := 1, asid := 5, priv := true }

/-- The device with that wave about to issue and its translations cached, every pairing of the crossbar allowed, changed by `f`, its team by
`g` and its context by `h`. -/
def tState (f : Wave → Wave) (g : Team → Team) (h : Ctx → Ctx) : State :=
  { State.reset with
    ctxs := [h tCtx], teams := [g tTeam], waves := [f tWave], cur := .wave 3, nextId := 10, ns := 5000000, clk := 4000,
    tlb := [{ asid := 5, base := 0x1000, size := 12, leaf := 0x80F, at_ := 0x8000 }, { asid := 5, base := 0x2000, size := 12, leaf := 0x20080F, at_ := 0x8008 },
            { asid := 5, base := 0x3000, size := 12, leaf := 0x40080F, at_ := 0x8010 }, { asid := 5, base := 0x10000, size := 12, leaf := 0x7857, at_ := 0x8018 }],
    rel := { State.reset.rel with act := List.replicate 96 (BitVec.allOnes 64), powered := true, mpRunning := true, links := true } }

/-- The same with none changed. -/
def tPlain : State := tState id id id

/-- Every condition of `Issues`. -/
def issuesOk (s : State) (w v : Wave) (i : Instr) : Bool :=
  s.cur == .wave w.id && findWave s w.id == some w && w.ctl.st != .retiring && w.ctl.st != .killed && w.ctl.st != .retired
    && issueFault s w i == none && slotsFree w i && guardHolds (insHdr i).grd w.regs.cc && !scopeCancelled (getCtx s w.ctx) w.scope
    && !mmaTwin s (freezeLatches w) i && !interlocked s (freezeLatches w) i
    && (match popAll (putWave s (freezeLatches w)) (freezeLatches w) i with | .ok x d => x == v && d == 0 | _ => false)

theorem issues_of {s : State} {w v : Wave} {i : Instr} (h : issuesOk s w v i = true) : Issues s w v i := by
  simp only [issuesOk, Bool.and_eq_true, beq_iff_eq, bne_iff_ne, Bool.not_eq_true'] at h
  obtain ⟨⟨⟨⟨⟨⟨⟨⟨⟨⟨⟨h1, h2⟩, h3⟩, h4⟩, h5⟩, h6⟩, h7⟩, h8⟩, h9⟩, h10⟩, h11⟩, h12⟩ := h
  refine ⟨h1, h2, ⟨h3, h4, h5⟩, h6, h7, h8, h9, h10, h11, ?_⟩
  revert h12
  cases popAll (putWave s (freezeLatches w)) (freezeLatches w) i with
  | ok x d => intro h12; simp only [Bool.and_eq_true, beq_iff_eq] at h12; rw [h12.1, h12.2]
  | _ => simp

theorem issues_all {s : State} {w v : Wave} {l : List Instr} (h : l.all (issuesOk s w v) = true) : ∀ i ∈ l, Issues s w v i := by
  intro i hi
  exact issues_of (List.all_eq_true.mp h i hi)

/-! ### Words of every opcode, written out from the encodings of the spec -/

/-- Words, literal slots and instructions of the control group. -/
def controlRows : List (W96 × Option W96 × Instr) :=
  [(0x000000006000000000000000, none, .nop { g0 with hdr := { h0 with dsw := 3 } }),
   (0x005400000000007FFFFFFFFB, none, .bra { b0 with hdr := { h0 with grd := .gt }, offset := 549755813883 }),
   (0x008010000000000000000005, none, .bkz { b0 with hdr := { h0 with msk := 2 }, offset := 5 }),
   (0x00C048000000007FFFFFFFD8, none, .bknz { b0 with hdr := { h0 with msk := 9 }, offset := 549755813848 }),
   (0x0100000000008F0000000007, none, .bhz { b0 with a := .s 30, offset := 7 }),
   (0x01400000021E000000000064, none, .call { b0 with dst := .s 15, offset := 100 }),
   (0x018000000000878000000000, none, .ret { g0 with a := .s 15 }),
   (0x01C800000000870000000000, none, .jmpi { g0 with hdr := { h0 with grd := .ne }, a := .s 14 }),
   (0x02000000020FA0000000000A, none, .loop { b0 with dst := .s 7, a := .imm 64, offset := 10 }),
   (0x024000000000000000000000, none, .endp g0),
   (0x028000000001818000000000, none, .trap { g0 with a := .imm 3 }),
   (0x02C000000000000000000000, none, .rft g0),
   (0x030000000000000000000000, none, .yield g0),
   (0x034000000229846000000000, none, .srd { g0 with dst := .s 20, a := .imm 8, b := .imm 0 }),
   (0x03800000029A818000000000, none, .swr { g0 with dst := .sp .mstall, a := .s 3 }),
   (0x03C00000022A000000000000, none, .haltctx { g0 with dst := .s 21 }),
   (0x04000000022C000000004000, none, .drain { g0 with dst := .s 22, opx := 1 }),
   (0x0440000008008C7019088000, some 0x1000, .tlbinv { g0 with hdr := { h0 with lit := some 0x1000 }, a := .s 24, b := .lit, c := .imm 33, opx := 2 }),
   (0x0480000002328D0000000000, none, .replay { g0 with dst := .s 25, a := .s 26 }),
   (0x04C000000000000000000000, none, .nopre g0),
   (0x050000000000000000000000, none, .pre g0),
   (0x054000000001838000000000, none, .mark { g0 with a := .imm 7 })]

theorem test_decode_control : controlRows.all (fun r => decode r.1 r.2.1 == some r.2.2) = true := by decide +kernel

/-- Words, literal slots and instructions of the scalar group. -/
def scalarRows : List (W96 × Option W96 × Instr) :=
  [(0x100000800210A08000000000, none, .smov { g0 with hdr := { h0 with typ := .i32 }, dst := .s 8, a := .sp .wave }),
   (0x104000000A11C00000000000, some 0x4000100000, .sli { g0 with hdr := { h0 with lit := some 0x4000100000 }, dst := .s 8, a := .lit }),
   (0x10800080020A82FFE0000000, none, .sadd { g0 with hdr := { h0 with typ := .i32 }, dst := .s 5, a := .s 5, b := .imm 255 }),
   (0x10C00280020B80A0C0000200, none, .ssub { g0 with hdr := { h0 with typ := .n16 }, dst := .s 5, a := .imm 1, b := .s 6, sat := true }),
   (0x110006800202812060000000, none, .smul { g0 with hdr := { h0 with typ := .i64 }, dst := .s 1, a := .s 2, b := .s 3 }),
   (0x114001000202812060000000, none, .smulh { g0 with hdr := { h0 with typ := .n32 }, dst := .s 1, a := .s 2, b := .s 3 }),
   (0x118004000202812068200000, none, .smad { g0 with hdr := { h0 with typ := .i8 }, dst := .s 1, a := .s 2, b := .s 3, c := .s 4 }),
   (0x11C007000210846140000000, none, .sdiv { g0 with hdr := { h0 with typ := .n64 }, dst := .s 8, a := .s 8, b := .imm 10 }),
   (0x120000800A10847000000000, some 0x186a0, .srem { g0 with hdr := { h0 with typ := .i32, lit := some 0x186a0 }, dst := .s 8, a := .s 8, b := .lit }),
   (0x124007800A02817000000000, some 0xff00ff00ff00ff00, .sand { g0 with hdr := { h0 with typ := .b64, lit := some 0xff00ff00ff00ff00 }, dst := .s 1, a := .s 2, b := .lit }),
   (0x128000000202A0A040000000, none, .sor { g0 with dst := .s 1, a := .sp .wave, b := .s 2 }),
   (0x12C00200020280E020000000, none, .sxor { g0 with hdr := { h0 with typ := .i16 }, dst := .s 1, a := .s 1, b := .imm 1 }),
   (0x130007800202816500000000, none, .sshl { g0 with hdr := { h0 with typ := .b64 }, dst := .s 1, a := .s 2, b := .imm 40 }),
   (0x134000800202816080000000, none, .sshr { g0 with hdr := { h0 with typ := .i32 }, dst := .s 1, a := .s 2, b := .imm 4 }),
   (0x138001000202812060000000, none, .smin { g0 with hdr := { h0 with typ := .n32 }, dst := .s 1, a := .s 2, b := .s 3 }),
   (0x13C006800202816000000000, none, .smax { g0 with hdr := { h0 with typ := .i64 }, dst := .s 1, a := .s 2, b := .imm 0 }),
   (0x140000000000A26020000000, none, .scmp { g0 with a := .sp .role, b := .imm 1 }),
   (0x144007000000816020000000, none, .stst { g0 with hdr := { h0 with typ := .n64 }, a := .s 2, b := .imm 1 }),
   (0x14800680021284E00000C000, none, .ssel { g0 with hdr := { h0 with typ := .i64 }, dst := .s 9, a := .s 9, b := .imm 0, opx := 3 }),
   (0x14C000000214858000000000, none, .sclz { g0 with dst := .s 10, a := .s 11 }),
   (0x150007800214858000000000, none, .spopc { g0 with hdr := { h0 with typ := .b64 }, dst := .s 10, a := .s 11 }),
   (0x154007000A1886F000000000, some 0x810, .sbfe { g0 with hdr := { h0 with typ := .n64, lit := some 0x810 }, dst := .s 12, a := .s 13, b := .lit }),
   (0x15800780021886A1C8780000, none, .sbfi { g0 with hdr := { h0 with typ := .b64 }, dst := .s 12, a := .s 13, b := .s 14, c := .s 15 })]

theorem test_decode_scalar : scalarRows.all (fun r => decode r.1 r.2.1 == some r.2.2) = true := by decide +kernel

/-- Words, literal slots and instructions of the mask group. -/
def maskRows : List (W96 × Option W96 × Instr) :=
  [(0x20000000044912C4C0000000, none, .kand { g0 with dst := .k 4, a := .k 5, b := .k 6 }),
   (0x204000000449105000000000, none, .kor { g0 with dst := .k 4, a := .k 0, b := .dead }),
   (0x2080000004FF12C4C0000000, none, .kxor { g0 with dst := .k 95, a := .k 5, b := .k 6 }),
   (0x20C00000044F11D000000000, none, .kandn { g0 with dst := .k 7, a := .k 3, b := .dead }),
   (0x210000000443400000000000, none, .kmov { g0 with dst := .k 1, a := .dead }),
   (0x214000000449806C00004000, none, .kset { g0 with dst := .k 4, a := .imm 0, b := .imm 96, opx := 1 }),
   (0x21800000021D14E000000000, none, .kget { g0 with dst := .s 14, a := .k 9, b := .imm 0 }),
   (0x21C00000021F148000000000, none, .kpopc { g0 with dst := .s 15, a := .k 9 }),
   (0x22000000021F148000000000, none, .kfirst { g0 with dst := .s 15, a := .k 9 })]

theorem test_decode_mask : maskRows.all (fun r => decode r.1 r.2.1 == some r.2.2) = true := by decide +kernel

/-- Words, literal slots and instructions of the vecint group. -/
def vecintRows : List (W96 × Option W96 × Instr) :=
  [(0x280001800008848000000000, none, .vmov { g0 with hdr := { h0 with typ := .f32 }, dst := .v 4, a := .s 9 }),
   (0x2840120000280AEC80000200, none, .vadd { g0 with hdr := { h0 with typ := .i16, msk := 2 }, dst := .v 20, a := .v 21, b := .imm 100, sat := true }),
   (0x2880078000040200C0000000, none, .vsub { g0 with hdr := { h0 with typ := .b64 }, dst := .v 2, a := .v 4, b := .v 6 }),
   (0x28C0008000040200C0000000, none, .vmul { g0 with hdr := { h0 with typ := .i32 }, dst := .v 2, a := .v 4, b := .v 6 }),
   (0x2900048000040200C0000000, none, .vmulh { g0 with hdr := { h0 with typ := .n8 }, dst := .v 2, a := .v 4, b := .v 6 }),
   (0x29400080000401A080280000, none, .vmad { g0 with hdr := { h0 with typ := .i32 }, dst := .v 2, a := .v 3, b := .s 4, c := .v 5 }),
   (0x29800000000500E1E0000000, none, .vand { g0 with dst := .v 2, a := .x 1, b := .imm 15 }),
   (0x29C00000080401F000000000, some 0x80000000, .vor { g0 with hdr := { h0 with lit := some 0x80000000 }, dst := .v 2, a := .v 3, b := .lit }),
   (0x2A0000000005048060000000, none, .vxor { g0 with dst := .v 2, a := .q 1, b := .v 3 }),
   (0x2A400080000401E080000000, none, .vshl { g0 with hdr := { h0 with typ := .i32 }, dst := .v 2, a := .v 3, b := .imm 4 }),
   (0x2A8002800004018080000000, none, .vshr { g0 with hdr := { h0 with typ := .n16 }, dst := .v 2, a := .v 3, b := .v 4 }),
   (0x2AC004000004018080000000, none, .vmin { g0 with hdr := { h0 with typ := .i8 }, dst := .v 2, a := .v 3, b := .v 4 }),
   (0x2B0001000004A00080000000, none, .vmax { g0 with hdr := { h0 with typ := .n32 }, dst := .v 2, a := .sp .lane, b := .v 4 }),
   (0x2B400200000C038000000200, none, .vabs { g0 with hdr := { h0 with typ := .i16 }, dst := .v 6, a := .v 7, sat := true }),
   (0x2B800080044E022120048000, none, .vcmp { g0 with hdr := { h0 with typ := .i32 }, dst := .k 7, a := .v 4, b := .s 9, opx := 18 }),
   (0x2BC00000001580E011380000, none, .vsel { g0 with dst := .v 10, a := .imm 1, b := .imm 0, c := .k 7 }),
   (0x2C000000000C038000000000, none, .vclz { g0 with dst := .v 6, a := .v 7 }),
   (0x2C400780000C040000000000, none, .vpopc { g0 with hdr := { h0 with typ := .b64 }, dst := .v 6, a := .v 8 }),
   (0x2C800100080C03F000000000, some 0x810, .vbfe { g0 with hdr := { h0 with typ := .n32, lit := some 0x810 }, dst := .v 6, a := .v 7, b := .lit }),
   (0x2CC00000000C038108480000, none, .vbfi { g0 with dst := .v 6, a := .v 7, b := .v 8, c := .s 9 }),
   (0x2D0004000012008040482400, none, .vdp4 { g0 with hdr := { h0 with typ := .i8 }, dst := .v 9, a := .v 1, b := .v 2, c := .v 9, ty2 := .n8 })]

theorem test_decode_vecint : vecintRows.all (fun r => decode r.1 r.2.1 == some r.2.2) = true := by decide +kernel

/-- Words, literal slots and instructions of the vecfloat group. -/
def vecfloatRows : List (W96 × Option W96 × Instr) :=
  [(0x400003000002010060000050, none, .vfadd { g0 with hdr := { h0 with typ := .f16 }, dst := .v 1, a := .v 2, b := .v 3, abs := 1, neg := 2 }),
   (0x404001800002012060000003, none, .vfsub { g0 with hdr := { h0 with typ := .f32 }, dst := .v 1, a := .v 2, b := .s 3, rm := .ru }),
   (0x4080038000080200A0000090, none, .vfmul { g0 with hdr := { h0 with typ := .bf16 }, dst := .v 4, a := .v 4, b := .v 5, abs := 2, neg := 2 }),
   (0x40C829800014010060200001, none, .vfma { g0 with hdr := { h0 with grd := .ne, typ := .f32, msk := 5 }, dst := .v 10, a := .v 2, b := .v 3, c := .v 4, rm := .rz }),
   (0x410001800002010060000000, none, .vfmin { g0 with hdr := { h0 with typ := .f32 }, dst := .v 1, a := .v 2, b := .v 3 }),
   (0x414003000002016000000008, none, .vfmax { g0 with hdr := { h0 with typ := .f16 }, dst := .v 1, a := .v 2, b := .imm 0, neg := 1 }),
   (0x41800300044401006002C000, none, .vfcmp { g0 with hdr := { h0 with typ := .f16 }, dst := .k 2, a := .v 2, b := .v 3, opx := 11 }),
   (0x41C00300001C078000000000, none, .vfclass { g0 with hdr := { h0 with typ := .f16 }, dst := .v 14, a := .v 15 }),
   (0x420001800002010000000000, none, .vrcp { g0 with hdr := { h0 with typ := .f32 }, dst := .v 1, a := .v 2 }),
   (0x424001800002010000000002, none, .vrsq { g0 with hdr := { h0 with typ := .f32 }, dst := .v 1, a := .v 2, rm := .rd }),
   (0x428003800002010000000000, none, .vsqrt { g0 with hdr := { h0 with typ := .bf16 }, dst := .v 1, a := .v 2 }),
   (0x42C001800002010060000001, none, .vdiv { g0 with hdr := { h0 with typ := .f32 }, dst := .v 1, a := .v 2, b := .v 3, rm := .rz }),
   (0x430001800002010000000008, none, .vexp2 { g0 with hdr := { h0 with typ := .f32 }, dst := .v 1, a := .v 2, neg := 1 }),
   (0x434003000002010000000000, none, .vlog2 { g0 with hdr := { h0 with typ := .f16 }, dst := .v 1, a := .v 2 }),
   (0x4380018000280A800000A800, none, .vcvt { g0 with hdr := { h0 with typ := .f32 }, dst := .v 20, a := .v 21, opx := 2, ty2 := .e4m3 }),
   (0x43C001800020080000000002, none, .vfrnd { g0 with hdr := { h0 with typ := .f32 }, dst := .v 16, a := .v 16, rm := .rd }),
   (0x44000500003C010060004C04, none, .vpack { g0 with hdr := { h0 with typ := .e4m3 }, dst := .v 30, a := .v 2, b := .v 3, opx := 1, ty2 := .f32, nan := true }),
   (0x444001800050038000001C00, none, .vunpk { g0 with hdr := { h0 with typ := .f32 }, dst := .v 40, a := .v 7, ty2 := .bf16 })]

theorem test_decode_vecfloat : vecfloatRows.all (fun r => decode r.1 r.2.1 == some r.2.2) = true := by decide +kernel

/-- Words, literal slots and instructions of the cross group. -/
def crossRows : List (W96 × Option W96 × Instr) :=
  [(0x58000000000A0280C0000000, none, .vshuf { g0 with dst := .v 5, a := .v 5, b := .v 6 }),
   (0x584000000002006200000000, none, .vxsh { g0 with dst := .v 1, a := .v 0, b := .imm 16 }),
   (0x588000000012046000000000, none, .vbcast { g0 with dst := .v 9, a := .v 8, b := .imm 0 }),
   (0x58C001800212040000004000, none, .vred { g0 with hdr := { h0 with typ := .f32 }, dst := .s 9, a := .v 8, opx := 1 }),
   (0x590000800016050000020000, none, .vscan { g0 with hdr := { h0 with typ := .i32 }, dst := .v 11, a := .v 10, opx := 8 }),
   (0x59400000001805C488900000, none, .vcomp { g0 with dst := .v 12, a := .v 11, b := .k 4, c := .s 18 }),
   (0x59800000001A064480000000, none, .vexpd { g0 with dst := .v 13, a := .v 12, b := .k 4 }),
   (0x59C00100001C8244C8A00000, none, .vapnd { g0 with hdr := { h0 with typ := .n32 }, dst := .v 14, a := .s 4, b := .k 6, c := .s 20 }),
   (0x5A0000000227138000004000, none, .vvote { g0 with dst := .s 19, a := .k 7, opx := 1 }),
   (0x5A4000000006000000000000, none, .vrand { g0 with dst := .v 3 }),
   (0x5A800000000081E000000000, none, .vrseed { g0 with a := .s 3, b := .imm 0 }),
   (0x5AC0018000280A03F8010000, none, .vsca { g0 with hdr := { h0 with typ := .f32 }, dst := .v 20, a := .v 20, b := .v 31, c := .imm 0, opx := 4 }),
   (0x5B000180000085216000C800, none, .bset { g0 with hdr := { h0 with typ := .f32 }, a := .s 10, b := .s 11, opx := 3, ty2 := .n32 }),
   (0x5B400000000014610000C000, none, .bmap { g0 with a := .v 40, b := .imm 8, opx := 3 })]

theorem test_decode_cross : crossRows.all (fun r => decode r.1 r.2.1 == some r.2.2) = true := by decide +kernel

/-- Words, literal slots and instructions of the matrix group. -/
def matrixRows : List (W96 × Option W96 × Instr) :=
  [(0x680003800080000102005C00, none, .mma { g0 with hdr := { h0 with typ := .bf16 }, dst := .v 64, a := .v 0, b := .v 8, c := .v 64, opx := 1, ty2 := .bf16 }),
   (0x684001800080200138014000, none, .msca { g0 with hdr := { h0 with typ := .f32 }, dst := .v 64, a := .v 64, b := .v 9, c := .imm 0, opx := 5 }),
   (0x688000000040200000000000, none, .mtrn { g0 with dst := .v 32, a := .v 64 }),
   (0x68C003800800827000000000, some 0x100000040, .mldf { m0 with hdr := { h0 with typ := .bf16, lit := some 0x100000040 }, dst := .v 0, a := .s 4, b := .lit }),
   (0x690001A000008220A2008FFF, none, .mstf { m0 with hdr := { h0 with typ := .f32, dsc := 2 }, a := .s 4, b := .s 5, c := .v 64, order := .release, disp := 4095 })]

theorem test_decode_matrix : matrixRows.all (fun r => decode r.1 r.2.1 == some r.2.2) = true := by decide +kernel

/-- Words, literal slots and instructions of the memory group. -/
def memoryRows : List (W96 × Option W96 × Instr) :=
  [(0x700001801008840020030000, none, .ld { m0 with hdr := { h0 with typ := .f32, nwb := true }, dst := .v 4, a := .s 8, b := .v 1, scope := .d }),
   (0x704007800002840020328000, none, .st { m0 with hdr := { h0 with typ := .b64 }, dst := .v 1, a := .s 8, b := .v 1, c := .v 6, scope := .c, order := .release }),
   (0x708000000028830060000000, none, .ldb { m0 with dst := .v 20, a := .s 6, b := .v 3 }),
   (0x70C000100000830060A01000, none, .stb { m0 with hdr := { h0 with dsc := 1 }, dst := .v 0, a := .s 6, b := .v 3, c := .v 20, policy := .stream }),
   (0x710009801000800040330100, none, .atom { t0 with hdr := { h0 with typ := .f32, msk := 1, nwb := true }, a := .s 0, b := .v 2, c := .v 6, scope := .d, aop := .fadd }),
   (0x7140068000108000580DC000, none, .atomr { t0 with hdr := { h0 with typ := .i64 }, dst := .v 8, a := .s 0, b := .v 2, c := .imm 1, scope := .s, order := .acqRel }),
   (0x718007800210806008144000, none, .cas { m0 with hdr := { h0 with typ := .b64 }, dst := .s 8, a := .s 0, b := .imm 0, c := .s 2, scope := .f, order := .acquire }),
   (0x71C000000228000000040000, none, .fence { m0 with dst := .s 20, scope := .f }),
   (0x720000000000840060002004, none, .prf { m0 with hdr := { h0 with typ := .b32 }, a := .s 8, b := .v 3, policy := .keep, disp := 4 }),
   (0x724007800426846000034000, none, .ldh { m0 with hdr := { h0 with typ := .b64 }, dst := .h 3, a := .s 8, b := .imm 0, scope := .d, order := .acquire }),
   (0x728007800001092030980008, none, .sth { m0 with hdr := { h0 with typ := .b64 }, a := .h 2, b := .s 1, c := .h 3, disp := 8 }),
   (0x72C00000042B098000000000, none, .hmov { g0 with dst := .h 5, a := .h 3 }),
   (0x73000000022D098000000000, none, .pin { g0 with dst := .s 22, a := .h 3 }),
   (0x734000000001098000000000, none, .unpin { g0 with a := .h 3 })]

theorem test_decode_memory : memoryRows.all (fun r => decode r.1 r.2.1 == some r.2.2) = true := by decide +kernel

/-- Words, literal slots and instructions of the remote group. -/
def remoteRows : List (W96 × Option W96 × Instr) :=
  [(0x90000000000C04A080154000, none, .pld { r0 with dst := .v 6, a := .v 9, b := .s 4, c := .v 2, scope := .s, order := .acquire }),
   (0x90400180020D82A09804803D, none, .pst { r0 with hdr := { h0 with typ := .f32 }, dst := .s 6, a := .imm 5, b := .s 4, c := .imm 0, scope := .f, order := .release, disp := 61 }),
   (0x90800000100C84A080140140, none, .psts { r0 with hdr := { h0 with nwb := true }, dst := .v 6, a := .s 9, b := .s 4, c := .v 2, stream := 5, scope := .f }),
   (0x90C00080000C84A080140300, none, .patom { t0 with hdr := { h0 with typ := .i32 }, dst := .v 6, a := .s 9, b := .s 4, c := .v 2, scope := .f, aop := .max }),
   (0x91000700020C84A088150002, none, .patomr { t0 with hdr := { h0 with typ := .n64 }, dst := .s 6, a := .s 9, b := .s 4, c := .s 2, scope := .s, disp := 2 }),
   (0x9140000000008F0000000000, none, .nput { g0 with a := .s 30 }),
   (0x9180000000008F0000000000, none, .nget { g0 with a := .s 30 }),
   (0x91C0000000008F8000000000, none, .natom { g0 with a := .s 31 }),
   (0x920000000801C00000000000, some 0x11170, .nflush { g0 with hdr := { h0 with lit := some 0x11170 }, a := .lit }),
   (0x924000000206820000000000, none, .wrev { g0 with dst := .s 3, a := .s 4 })]

theorem test_decode_remote : remoteRows.all (fun r => decode r.1 r.2.1 == some r.2.2) = true := by decide +kernel

/-- Words, literal slots and instructions of the engine group. -/
def engineRows : List (W96 × Option W96 × Instr) :=
  [(0xA0000000021485E008600000, none, .copy { g0 with dst := .s 10, a := .s 11, b := .imm 0, c := .s 12 }),
   (0xA0400000021C87E1E8808000, none, .copym { g0 with dst := .s 14, a := .s 15, b := .imm 15, c := .s 16, opx := 2 }),
   (0xA08000000000888018000000, none, .chain { g0 with a := .s 17, c := .imm 0 }),
   (0xA0C000000224000000000000, none, .close { g0 with dst := .s 18 }),
   (0xA10000000226890000000000, none, .waitb { g0 with dst := .s 19, a := .s 18 }),
   (0xA1400700000083602000C000, none, .cadd { g0 with hdr := { h0 with typ := .n64 }, a := .s 6, b := .imm 1, opx := 3 }),
   (0xA180070008008320FC000000, some 0x1000, .tryw { g0 with hdr := { h0 with typ := .n64, lit := some 0x1000 }, a := .s 6, b := .s 7, c := .lit })]

theorem test_decode_engine : engineRows.all (fun r => decode r.1 r.2.1 == some r.2.2) = true := by decide +kernel

/-- Words, literal slots and instructions of the task group. -/
def taskRows : List (W96 × Option W96 × Instr) :=
  [(0xB000000002288A8000000000, none, .spawn { g0 with dst := .s 20, a := .s 21 }),
   (0xB04000000235800000000000, none, .cscope { g0 with dst := .s 26, a := .imm 0 }),
   (0xB080000002368D0000000000, none, .cancel { g0 with dst := .s 27, a := .s 26 }),
   (0xB0C000000239800000000000, none, .kpoll { g0 with dst := .s 28, a := .imm 0 }),
   (0xB10000000001806000000000, none, .bars { g0 with a := .imm 0, b := .imm 0 }),
   (0xB14000000001816020000000, none, .bara { g0 with a := .imm 2, b := .imm 1 }),
   (0xB18000000001810000000000, none, .barw { g0 with a := .imm 2 }),
   (0xB1C000000001A00000000000, none, .give { g0 with a := .imm 64 }),
   (0xB20000000000818000000000, none, .claim { g0 with a := .s 3 }),
   (0xB240000000008F0000000000, none, .hwait { g0 with a := .s 30 }),
   (0xB28000000001830000000000, none, .waitt { g0 with a := .imm 6 }),
   (0xB2C018000454000000000000, none, .elect { g0 with hdr := { h0 with msk := 3 }, dst := .k 10 })]

theorem test_decode_task : taskRows.all (fun r => decode r.1 r.2.1 == some r.2.2) = true := by decide +kernel

/-- Words, literal slots and instructions of the access group. -/
def accessRows : List (W96 × Option W96 × Instr) :=
  [(0xC00000000000808000000000, none, .aloop { g0 with a := .s 1 }),
   (0xC04000000000000000000000, none, .aend g0),
   (0xC08000000412816080000000, none, .ald { g0 with dst := .q 1, a := .s 2, b := .imm 4 }),
   (0xC0C00400000081A080008000, none, .apf { g0 with hdr := { h0 with typ := .i8 }, a := .s 3, b := .s 4, opx := 2 }),
   (0xC10000000204006800000000, none, .aadv { g0 with dst := .s 2, b := .imm 64 }),
   (0xC14000000000000000000000, none, .ahalt g0)]

theorem test_decode_access : accessRows.all (fun r => decode r.1 r.2.1 == some r.2.2) = true := by decide +kernel

theorem test_illformed_header :
    ([(.vadd { g0 with hdr := { h0 with typ := .i16, msk := 96 }, dst := .v 20, a := .v 21, b := .imm 100, sat := true }),
      (.sadd { g0 with hdr := { h0 with typ := .i32, msk := 1 }, dst := .s 5, a := .s 5, b := .imm 255 }),
      (.nop { g0 with hdr := { h0 with dsw := 3 }, a := .v 1 }),
      (.nop { g0 with hdr := { h0 with dsc := 1, dsw := 3 } }),
      (.endp { g0 with hdr := { h0 with nwb := true } }),
      (.scmp { g0 with hdr := { h0 with nwb := true }, a := .sp .role, b := .imm 1 }),
      (.bra { b0 with hdr := { h0 with grd := .gt, nwb := true }, offset := 549755813883 }),
      (.bra { b0 with hdr := { h0 with grd := .gt, msk := 1 }, offset := 549755813883 }),
      (.sadd { g0 with hdr := { h0 with typ := .b32 }, dst := .s 5, a := .s 5, b := .imm 255, sat := true }),
      (.vadd { g0 with hdr := { h0 with typ := .b64, msk := 2 }, dst := .v 20, a := .v 21, b := .imm 100, sat := true }),
      (.vmulh { g0 with hdr := { h0 with typ := .n8 }, dst := .v 2, a := .v 4, b := .v 6, sat := true }),
      (.vfadd { g0 with hdr := { h0 with typ := .f16 }, dst := .v 1, a := .v 2, b := .v 3, abs := 4, neg := 2, rm := .rz }),
      (.vfadd { g0 with hdr := { h0 with typ := .f16 }, dst := .v 1, a := .v 2, b := .v 3, abs := 1, neg := 4 }),
      (.vadd { g0 with hdr := { h0 with typ := .i16, msk := 2 }, dst := .v 20, a := .v 21, b := .imm 100, neg := 1, sat := true }),
      (.vfmin { g0 with hdr := { h0 with typ := .f32 }, dst := .v 1, a := .v 2, b := .v 3, rm := .rz }),
      (.vcvt { g0 with hdr := { h0 with typ := .f32 }, dst := .v 20, a := .v 21, opx := 2, ty2 := .e4m3, nan := true }),
      (.vcvt { g0 with hdr := { h0 with typ := .e4m3 }, dst := .v 20, a := .v 21, opx := 0, ty2 := .f32, rm := .rz }),
      (.vpack { g0 with hdr := { h0 with typ := .e4m3 }, dst := .v 30, a := .v 2, b := .v 3, opx := 1, ty2 := .f32, rm := .rd, nan := true }),
      (.sadd { g0 with hdr := { h0 with typ := .i32, lit := some 0x5 }, dst := .s 5, a := .s 5, b := .imm 255 }),
      (.sadd { g0 with hdr := { h0 with typ := .i32, lit := some 0x5 }, dst := .s 5, a := .lit, b := .lit }),
      (.sadd { g0 with hdr := { h0 with typ := .i32, lit := some 0x5 }, dst := .s 5, a := .imm 128, b := .lit }),
      (.vadd { g0 with hdr := { h0 with typ := .i16, msk := 2 }, dst := .v 20, a := .q 1, b := .q 1, sat := true }),
      (.sadd { g0 with hdr := { h0 with typ := .i32 }, dst := .s 5, a := .s 5, b := .imm 255, opx := 1 }),
      (.sadd { g0 with hdr := { h0 with typ := .i32 }, dst := .s 5, a := .s 5, b := .imm 255, ty2 := .f32 })] : List Instr).all (fun i => !i.wellFormed) = true := by decide +kernel

theorem test_illformed_control :
    ([(.bhz { b0 with a := .v 1, offset := 7 }),
      (.bhz { b0 with dst := .s 1, a := .s 30, offset := 7 }),
      (.call { b0 with dst := .v 0, offset := 100 }),
      (.call { b0 with dst := .s 15, a := .s 1, offset := 100 }),
      (.loop { b0 with dst := .k 1, a := .imm 64, offset := 10 }),
      (.loop { b0 with dst := .s 7, a := .v 1, offset := 10 }),
      (.ret { g0 with a := .sp .cc }),
      (.jmpi { g0 with hdr := { h0 with grd := .ne }, a := .v 1 }),
      (.trap { g0 with a := .v 1 }),
      (.rft { g0 with a := .s 1 }),
      (.srd { g0 with dst := .s 20, a := .imm 11, b := .imm 0 }),
      (.srd { g0 with dst := .s 20, a := .imm 7, b := .imm 0 }),
      (.srd { g0 with dst := .v 1, a := .imm 8, b := .imm 0 }),
      (.swr { g0 with dst := .sp .wave, a := .s 3 }),
      (.swr { g0 with dst := .s 1, a := .s 3 }),
      (.haltctx { g0 with dst := .s 21, a := .s 1 }),
      (.drain { g0 with dst := .s 22, opx := 2 }),
      (.tlbinv { g0 with hdr := { h0 with lit := some 0x1000 }, a := .s 24, b := .lit, c := .imm 33, opx := 4 }),
      (.tlbinv { g0 with hdr := { h0 with lit := some 0x1000 }, a := .s 24, b := .lit, c := .imm 33, opx := 1 }),
      (.replay { g0 with dst := .s 25, a := .imm 1 }),
      (.mark { g0 with a := .imm 255 }),
      (.mark { g0 with hdr := { h0 with lit := some 0x1000 }, a := .lit }),
      (.yield { g0 with b := .s 1 }),
      (.pre { g0 with opx := 1 })] : List Instr).all (fun i => !i.wellFormed) = true := by decide +kernel

theorem test_illformed_scalar :
    ([(.smov { g0 with hdr := { h0 with typ := .i32 }, dst := .sp .mstall, a := .sp .wave }),
      (.smov { g0 with hdr := { h0 with typ := .f32 }, dst := .s 8, a := .sp .wave }),
      (.sli { g0 with hdr := { h0 with lit := some 0x4000100000 }, dst := .s 8, a := .imm 1 }),
      (.sadd { g0 with hdr := { h0 with typ := .i32 }, dst := .sp .cc, a := .s 5, b := .imm 255 }),
      (.sadd { g0 with hdr := { h0 with typ := .i32 }, dst := .s 5, a := .v 1, b := .imm 255 }),
      (.sadd { g0 with hdr := { h0 with typ := .i32 }, dst := .s 5, a := .sp .lane, b := .imm 255 }),
      (.smulh { g0 with hdr := { h0 with typ := .b32 }, dst := .s 1, a := .s 2, b := .s 3 }),
      (.sdiv { g0 with hdr := { h0 with typ := .b64 }, dst := .s 8, a := .s 8, b := .imm 10 }),
      (.smin { g0 with hdr := { h0 with typ := .b32 }, dst := .s 1, a := .s 2, b := .s 3 }),
      (.scmp { g0 with dst := .s 1, a := .sp .role, b := .imm 1 }),
      (.stst { g0 with hdr := { h0 with typ := .f16 }, a := .s 2, b := .imm 1 }),
      (.ssel { g0 with hdr := { h0 with typ := .i64 }, dst := .s 9, a := .s 9, b := .imm 0, opx := 13 }),
      (.sclz { g0 with dst := .s 10, a := .s 11, b := .s 1 }),
      (.sbfe { g0 with hdr := { h0 with typ := .n64, lit := some 0x810 }, dst := .s 12, a := .s 13, b := .lit, c := .s 1 }),
      (.sbfi { g0 with hdr := { h0 with typ := .b64 }, dst := .s 12, a := .s 13, b := .s 14, c := .v 1 }),
      (.kand { g0 with dst := .k 0, a := .k 5, b := .k 6 }),
      (.kand { g0 with hdr := { h0 with typ := .i32 }, dst := .k 4, a := .k 5, b := .k 6 }),
      (.kmov { g0 with dst := .dead, a := .dead }),
      (.kmov { g0 with dst := .k 1, a := .dead, b := .k 1 }),
      (.kset { g0 with dst := .k 4, a := .imm 0, b := .imm 96, opx := 2 }),
      (.kset { g0 with dst := .k 4, a := .k 1, b := .imm 96, opx := 1 }),
      (.kget { g0 with dst := .s 14, a := .k 9, b := .sp .wave }),
      (.kfirst { g0 with dst := .s 15, a := .s 1 }),
      (.elect { g0 with hdr := { h0 with msk := 3 }, dst := .k 0 }),
      (.elect { g0 with hdr := { h0 with msk := 3 }, dst := .k 10, a := .k 1 })] : List Instr).all (fun i => !i.wellFormed) = true := by decide +kernel

theorem test_illformed_vector :
    ([(.vmov { g0 with hdr := { h0 with typ := .e4m3 }, dst := .v 4, a := .s 9 }),
      (.vadd { g0 with hdr := { h0 with typ := .f32, msk := 2 }, dst := .v 20, a := .v 21, b := .imm 100, sat := true }),
      (.vadd { g0 with hdr := { h0 with typ := .b64, msk := 2 }, dst := .v 3, a := .v 21, b := .imm 100, sat := true }),
      (.vsub { g0 with hdr := { h0 with typ := .b64 }, dst := .v 2, a := .q 1, b := .v 6 }),
      (.vmul { g0 with hdr := { h0 with typ := .i64 }, dst := .v 2, a := .v 4, b := .v 6 }),
      (.vmad { g0 with hdr := { h0 with typ := .n64 }, dst := .v 2, a := .v 3, b := .s 4, c := .v 5 }),
      (.vabs { g0 with hdr := { h0 with typ := .n16 }, dst := .v 6, a := .v 7, sat := true }),
      (.vbfe { g0 with hdr := { h0 with typ := .n16, lit := some 0x810 }, dst := .v 6, a := .v 7, b := .lit }),
      (.vdp4 { g0 with hdr := { h0 with typ := .i8 }, dst := .v 9, a := .v 1, b := .v 2, c := .v 9, ty2 := .i16 }),
      (.vcmp { g0 with hdr := { h0 with typ := .i32 }, dst := .k 7, a := .v 4, b := .s 9, opx := 6 }),
      (.vcmp { g0 with hdr := { h0 with typ := .i32 }, dst := .k 7, a := .v 4, b := .s 9, opx := 8 }),
      (.vcmp { g0 with hdr := { h0 with typ := .i32 }, dst := .k 0, a := .v 4, b := .s 9, opx := 18 }),
      (.vsel { g0 with hdr := { h0 with typ := .i32 }, dst := .v 10, a := .imm 1, b := .imm 0, c := .k 7 }),
      (.vsel { g0 with dst := .v 10, a := .imm 1, b := .imm 0, c := .dead }),
      (.vfadd { g0 with hdr := { h0 with typ := .i32 }, dst := .v 1, a := .v 2, b := .v 3, abs := 1, neg := 2 }),
      (.vfcmp { g0 with hdr := { h0 with typ := .f32 }, dst := .k 2, a := .v 2, b := .v 3, opx := 8 }),
      (.vfclass { g0 with hdr := { h0 with typ := .f16 }, dst := .v 14, a := .v 15, neg := 1 }),
      (.vrcp { g0 with hdr := { h0 with typ := .i8 }, dst := .v 1, a := .v 2 }),
      (.vcvt { g0 with hdr := { h0 with typ := .f32 }, dst := .v 20, a := .v 21, opx := 2, ty2 := .b32 }),
      (.vcvt { g0 with hdr := { h0 with typ := .f32 }, dst := .v 20, a := .v 21, opx := 0, ty2 := .f32 }),
      (.vcvt { g0 with hdr := { h0 with typ := .f32 }, dst := .v 20, a := .v 21, opx := 16, ty2 := .e4m3 }),
      (.vpack { g0 with hdr := { h0 with typ := .e4m3 }, dst := .v 30, a := .v 2, b := .v 3, opx := 1, ty2 := .f16, nan := true }),
      (.vpack { g0 with hdr := { h0 with typ := .f16 }, dst := .v 30, a := .v 2, b := .v 3, opx := 1, ty2 := .f32, nan := true }),
      (.vunpk { g0 with hdr := { h0 with typ := .f32 }, dst := .v 41, a := .v 7, ty2 := .bf16 }),
      (.vshuf { g0 with hdr := { h0 with typ := .i32 }, dst := .v 5, a := .v 5, b := .v 6 }),
      (.vxsh { g0 with dst := .v 1, a := .v 0, b := .imm 16, opx := 3 }),
      (.vxsh { g0 with dst := .v 1, a := .v 0, b := .sp .wave }),
      (.vred { g0 with hdr := { h0 with typ := .f32 }, dst := .s 9, a := .v 8, opx := 3 }),
      (.vred { g0 with hdr := { h0 with typ := .b32 }, dst := .s 9, a := .v 8, opx := 0 }),
      (.vred { g0 with hdr := { h0 with typ := .f32 }, dst := .s 9, a := .v 8, opx := 1, rm := .rz }),
      (.vscan { g0 with hdr := { h0 with typ := .i32 }, dst := .v 11, a := .v 10, opx := 16 }),
      (.vcomp { g0 with dst := .v 12, a := .s 1, b := .k 4, c := .s 18 }),
      (.vexpd { g0 with dst := .v 13, a := .v 12, b := .dead }),
      (.vapnd { g0 with hdr := { h0 with typ := .i32 }, dst := .v 14, a := .s 4, b := .k 6, c := .s 20 }),
      (.vvote { g0 with hdr := { h0 with typ := .b64 }, dst := .s 19, a := .k 7, opx := 1 }),
      (.vrand { g0 with dst := .v 3, a := .s 1 }),
      (.vrseed { g0 with a := .v 1, b := .imm 0 }),
      (.vsca { g0 with hdr := { h0 with typ := .f32 }, dst := .v 20, a := .v 20, b := .v 31, c := .imm 0, opx := 6 }),
      (.bset { g0 with hdr := { h0 with typ := .b32 }, a := .s 10, b := .s 11, opx := 3, ty2 := .n32 }),
      (.bset { g0 with hdr := { h0 with typ := .f32 }, a := .s 10, b := .s 11, opx := 3, ty2 := .f16 }),
      (.bmap { g0 with a := .s 1, b := .imm 8, opx := 3 }),
      (.bmap { g0 with a := .v 40, b := .imm 8, opx := 17 })] : List Instr).all (fun i => !i.wellFormed) = true := by decide +kernel

theorem test_illformed_memory :
    ([(.mma { g0 with hdr := { h0 with typ := .bf16 }, dst := .v 64, a := .v 0, b := .v 8, c := .v 64, opx := 2, ty2 := .bf16 }),
      (.mma { g0 with hdr := { h0 with typ := .f32 }, dst := .v 64, a := .v 0, b := .v 8, c := .v 64, opx := 1, ty2 := .bf16 }),
      (.mma { g0 with hdr := { h0 with typ := .bf16, nwb := true }, dst := .v 64, a := .v 0, b := .v 8, c := .v 64, opx := 1, ty2 := .bf16 }),
      (.msca { g0 with hdr := { h0 with typ := .f32 }, dst := .v 64, a := .v 64, b := .s 9, c := .imm 0, opx := 5 }),
      (.msca { g0 with hdr := { h0 with typ := .f16 }, dst := .v 64, a := .v 64, b := .v 9, c := .imm 0, opx := 5 }),
      (.mtrn { g0 with dst := .v 32, a := .s 1 }),
      (.mldf { m0 with hdr := { h0 with typ := .b32, lit := some 0x100000040 }, dst := .v 0, a := .s 4, b := .lit }),
      (.mldf { m0 with hdr := { h0 with typ := .bf16, lit := some 0x100000040 }, dst := .v 0, a := .s 4, b := .lit, order := .release }),
      (.mstf { m0 with hdr := { h0 with typ := .f32, dsc := 2 }, a := .s 4, b := .s 5, c := .s 1, order := .release, disp := 4095 }),
      (.ld { m0 with hdr := { h0 with typ := .f32, nwb := true }, dst := .k 1, a := .s 8, b := .v 1, scope := .d }),
      (.ld { m0 with hdr := { h0 with typ := .f32, nwb := true }, dst := .v 4, a := .v 1, b := .v 1, scope := .d }),
      (.ld { m0 with hdr := { h0 with typ := .f32, nwb := true }, dst := .v 4, a := .s 8, b := .v 1, scope := .d, order := .release }),
      (.ld { m0 with hdr := { h0 with typ := .f32, nwb := true }, dst := .s 4, a := .s 8, b := .v 1, scope := .d }),
      (.ld { m0 with hdr := { h0 with typ := .b64, nwb := true }, dst := .v 5, a := .s 8, b := .v 1, scope := .d }),
      (.st { m0 with hdr := { h0 with typ := .b64 }, dst := .v 2, a := .s 8, b := .v 1, c := .v 6, scope := .c, order := .release }),
      (.st { m0 with hdr := { h0 with typ := .b64 }, dst := .v 1, a := .s 8, b := .v 1, c := .v 6, scope := .c, order := .acquire }),
      (.ldb { m0 with dst := .s 1, a := .s 6, b := .v 3 }),
      (.stb { m0 with hdr := { h0 with dsc := 1 }, dst := .v 0, a := .s 6, b := .v 3, c := .s 1, policy := .stream }),
      (.atom { t0 with hdr := { h0 with typ := .i32, msk := 1, nwb := true }, a := .s 0, b := .v 2, c := .v 6, scope := .d, aop := .fadd }),
      (.atom { t0 with hdr := { h0 with typ := .f32, msk := 1, nwb := true }, dst := .s 1, a := .s 0, b := .v 2, c := .v 6, scope := .d, aop := .fadd }),
      (.atomr { t0 with hdr := { h0 with typ := .b64 }, dst := .v 8, a := .s 0, b := .v 2, c := .imm 1, scope := .s, order := .acqRel, aop := .min }),
      (.cas { m0 with hdr := { h0 with typ := .f32 }, dst := .s 8, a := .s 0, b := .imm 0, c := .s 2, scope := .f, order := .acquire }),
      (.cas { m0 with hdr := { h0 with typ := .i16 }, dst := .s 8, a := .s 0, b := .imm 0, c := .s 2, scope := .f, order := .acquire }),
      (.fence { m0 with dst := .v 1, scope := .f }),
      (.fence { m0 with dst := .s 20, scope := .f, order := .acquire }),
      (.prf { m0 with hdr := { h0 with typ := .b32 }, a := .s 8, b := .v 3, scope := .d, policy := .keep, disp := 4 }),
      (.ldh { m0 with hdr := { h0 with typ := .b32 }, dst := .h 3, a := .s 8, b := .imm 0, scope := .d, order := .acquire }),
      (.ldh { m0 with hdr := { h0 with typ := .b64 }, dst := .s 1, a := .s 8, b := .imm 0, scope := .d, order := .acquire }),
      (.sth { m0 with hdr := { h0 with typ := .b64 }, a := .h 2, b := .s 1, c := .s 1, disp := 8 }),
      (.hmov { g0 with dst := .h 5, a := .h 3, opx := 1 }),
      (.hmov { g0 with dst := .h 5, a := .h 3, opx := 2 }),
      (.pin { g0 with dst := .s 22, a := .s 1 }),
      (.unpin { g0 with dst := .s 1, a := .h 3 })] : List Instr).all (fun i => !i.wellFormed) = true := by decide +kernel

theorem test_illformed_outside :
    ([(.pld { r0 with dst := .v 6, a := .v 9, b := .s 4, c := .v 2, scope := .d, order := .acquire }),
      (.pld { r0 with dst := .v 6, a := .v 9, b := .imm 1, c := .v 2, scope := .s, order := .acquire }),
      (.pld { r0 with dst := .v 6, a := .v 9, b := .s 4, c := .v 2, stream := 1, scope := .s, order := .acquire }),
      (.pld { r0 with dst := .v 6, a := .v 9, b := .s 4, c := .v 2, scope := .s, order := .release }),
      (.pst { r0 with hdr := { h0 with typ := .f32 }, dst := .q 1, a := .imm 5, b := .s 4, c := .imm 0, scope := .f, order := .release, disp := 61 }),
      (.pst { r0 with hdr := { h0 with typ := .f32 }, dst := .s 6, a := .imm 5, b := .s 4, c := .imm 0, scope := .c, order := .release, disp := 61 }),
      (.psts { r0 with hdr := { h0 with nwb := true }, dst := .v 6, a := .s 9, b := .v 1, c := .v 2, stream := 5, scope := .f }),
      (.patom { t0 with hdr := { h0 with typ := .i32 }, dst := .v 6, a := .s 9, b := .s 4, c := .v 2, scope := .f, aop := .fmin }),
      (.patomr { t0 with hdr := { h0 with typ := .n64 }, dst := .k 1, a := .s 9, b := .s 4, c := .s 2, scope := .s, disp := 2 }),
      (.nput { g0 with a := .imm 1 }),
      (.nflush { g0 with hdr := { h0 with lit := some 0x11170 }, a := .v 1 }),
      (.wrev { g0 with dst := .v 1, a := .s 4 }),
      (.copy { g0 with dst := .s 10, a := .s 11, b := .imm 0, c := .imm 1 }),
      (.copym { g0 with dst := .s 14, a := .imm 1, b := .imm 15, c := .s 1, opx := 2 }),
      (.chain { g0 with a := .s 17, b := .s 1, c := .imm 0 }),
      (.close { g0 with dst := .v 1 }),
      (.waitb { g0 with dst := .s 19, a := .v 1 }),
      (.cadd { g0 with hdr := { h0 with typ := .i64 }, a := .s 6, b := .imm 1, opx := 3 }),
      (.cadd { g0 with hdr := { h0 with typ := .n64 }, a := .s 6, b := .imm 1, opx := 6 }),
      (.tryw { g0 with hdr := { h0 with typ := .i64, lit := some 0x1000 }, a := .s 6, b := .s 7, c := .lit }),
      (.spawn { g0 with dst := .s 20, a := .imm 1 }),
      (.cscope { g0 with dst := .s 26, a := .imm 1 }),
      (.cancel { g0 with dst := .s 27, a := .imm 0 }),
      (.kpoll { g0 with dst := .s 28, a := .imm 1 }),
      (.bars { g0 with a := .sp .wave, b := .imm 0 }),
      (.barw { g0 with a := .imm 2, b := .imm 1 }),
      (.give { g0 with a := .sp .cc }),
      (.claim { g0 with a := .v 1 }),
      (.hwait { g0 with a := .v 1 }),
      (.waitt { g0 with a := .sp .cc }),
      (.aloop { g0 with a := .s 16 }),
      (.aloop { g0 with hdr := { h0 with grd := .eq }, a := .s 1 }),
      (.aend { g0 with hdr := { h0 with dsw := 1 } }),
      (.ald { g0 with dst := .v 1, a := .s 2, b := .imm 4 }),
      (.ald { g0 with hdr := { h0 with typ := .i64 }, dst := .q 1, a := .s 2, b := .imm 4 }),
      (.ald { g0 with dst := .q 1, a := .sp .wave, b := .imm 4 }),
      (.apf { g0 with hdr := { h0 with typ := .i8 }, dst := .q 1, a := .s 3, b := .s 4, opx := 2 }),
      (.aadv { g0 with dst := .s 2, b := .imm 64, opx := 2 }),
      (.ahalt { g0 with a := .s 1 })] : List Instr).all (fun i => !i.wellFormed) = true := by decide +kernel

/-! ### What the statements suppose: encoding, issue, results -/

/-- The wave as an instruction that pops nothing finds it. -/
abbrev tv : Wave := freezeLatches tWave

/-- A wave of the fault-service kind. -/
def fswWave : Wave := { tWave with fsw := true }
/-- Its state. -/
def fswState : State := tState (fun w => { w with fsw := true }) id id

/-- A wave in a line with CHAIN that holds a latch of a vector result. -/
def latchWave : Wave := { tWave with ctl := { tWave.ctl with chain := true, latches := [.vec [List.replicate 32 1]] } }
/-- Its state. -/
def latchState : State := tState (fun w => { w with ctl := { w.ctl with chain := true, latches := [.vec [List.replicate 32 1]] } }) id id

/-- A wave with one entry in q1. -/
def queueWave : Wave :=
  { tWave with queues := [[], [{ vals := List.replicate 32 7, poison := 0, cause := 0, lanes := 0, faddr := 0, unfinished := none }], [], []] }
/-- Its state. -/
def queueState : State :=
  tState (fun w => { w with queues := [[], [{ vals := List.replicate 32 7, poison := 0, cause := 0, lanes := 0, faddr := 0, unfinished := none }], [], []] })
    id id

/-- Every row issues on the small state, but REPLAY, which only the service wave may issue, a reader of a latch and a reader of a queue. -/
theorem test_issue_control : ∀ i ∈ (controlRows.map (·.2.2)).filter (fun i => i.ctorIdx != (Instr.replay g0).ctorIdx), Issues tPlain tWave tv i :=
  issues_all (by decide +kernel)
theorem test_issue_scalar : ∀ i ∈ scalarRows.map (·.2.2), Issues tPlain tWave tv i := issues_all (by decide +kernel)
theorem test_issue_mask : ∀ i ∈ maskRows.map (·.2.2), Issues tPlain tWave tv i := issues_all (by decide +kernel)
theorem test_issue_vecint : ∀ i ∈ (vecintRows.map (·.2.2)).filter (fun i => i.ctorIdx != (Instr.vand g0).ctorIdx && i.ctorIdx != (Instr.vxor g0).ctorIdx),
    Issues tPlain tWave tv i := issues_all (by decide +kernel)
theorem test_issue_vecfloat : ∀ i ∈ vecfloatRows.map (·.2.2), Issues tPlain tWave tv i := issues_all (by decide +kernel)
theorem test_issue_cross : ∀ i ∈ crossRows.map (·.2.2), Issues tPlain tWave tv i := issues_all (by decide +kernel)
theorem test_issue_matrix : ∀ i ∈ matrixRows.map (·.2.2), Issues tPlain tWave tv i := issues_all (by decide +kernel)
theorem test_issue_memory : ∀ i ∈ memoryRows.map (·.2.2), Issues tPlain tWave tv i := issues_all (by decide +kernel)
theorem test_issue_remote : ∀ i ∈ remoteRows.map (·.2.2), Issues tPlain tWave tv i := issues_all (by decide +kernel)
theorem test_issue_engine : ∀ i ∈ engineRows.map (·.2.2), Issues tPlain tWave tv i := issues_all (by decide +kernel)
theorem test_issue_task : ∀ i ∈ taskRows.map (·.2.2), Issues tPlain tWave tv i := issues_all (by decide +kernel)
theorem test_issue_replay : Issues fswState fswWave (freezeLatches fswWave) (.replay { g0 with dst := .s 25, a := .s 26 }) := issues_of (by decide +kernel)
theorem test_issue_latch : Issues latchState latchWave (freezeLatches latchWave) (.vand { g0 with dst := .v 2, a := .x 1, b := .imm 15 }) :=
  issues_of (by decide +kernel)

/-- The wave with that entry popped. -/
def queueAfter : Wave :=
  { freezeLatches queueWave with queues := [[], [], [], []], pops := [0, 1, 0, 0], popped := [(1, List.replicate 32 7)] }

theorem test_issue_queue : Issues queueState queueWave queueAfter (.vxor { g0 with dst := .v 2, a := .q 1, b := .v 3 }) :=
  issues_of (by decide +kernel)

/-- DecodeOfEncode, EncodeOfDecode: words with and without a literal. -/
theorem test_codes_meet :
    (Instr.sli { g0 with hdr := { h0 with lit := some 0x4000100000 }, dst := .s 8, a := .lit }).wellFormed = true
    ∧ encode (.sli { g0 with hdr := { h0 with lit := some 0x4000100000 }, dst := .s 8, a := .lit })
      = some (0x104000000A11C00000000000, some 0x000000000000004000100000)
    ∧ decode 0x104000000A11C00000000000 (some 0x000000000000004000100000)
      = some (.sli { g0 with hdr := { h0 with lit := some 0x4000100000 }, dst := .s 8, a := .lit })
    ∧ (0x104000000A11C00000000000 : W96).getLsbD 59 = true ∧ (0x10800080020A82FFE0000000 : W96).getLsbD 59 = false := by decide +kernel

/-- A wave that holds dependence slot 1. -/
def slotWave : Wave := { tWave with hz := { tWave.hz with lazies := [{ slot := 1, ins := .nop g0, oldV := [], oldS := [], whole := false, target := .packets 0 }] } }
/-- Its state. -/
def slotState : State :=
  tState (fun w => { w with hz := { w.hz with lazies := [{ slot := 1, ins := .nop g0, oldV := [], oldS := [], whole := false, target := .packets 0 }] } }) id id

/-- NopChangesNothing: a NOP that issues, and one that waits for slot 1; the latter names slots 1 and 2. -/
theorem test_NopChangesNothing_meets :
    Issues slotState slotWave (freezeLatches slotWave) (.nop { g0 with hdr := { h0 with dsw := 2 } })
    ∧ slotState.cur = .wave slotWave.id ∧ findWave slotState slotWave.id = some slotWave
    ∧ issueFault slotState slotWave (.nop { g0 with hdr := { h0 with dsw := 3 } }) = none
    ∧ slotsFree slotWave (.nop { g0 with hdr := { h0 with dsw := 3 } }) = false := ⟨issues_of (by decide +kernel), by decide +kernel⟩

/-- GeneratorSeeded: its word, a literal in A and in B, and an issue. -/
theorem test_GeneratorSeeded_meets :
    encode (.vrseed { g0 with a := .s 3, b := .imm 0 }) = some (0x5A800000000081E000000000, none)
    ∧ (Instr.vrseed { g0 with a := .s 3, b := .imm 0 }).wellFormed = true
    ∧ (isSSrc (.sp .hzn) = true ∧ isLit (.sp .hzn) = false) ∧ (isSSrc (.imm 0x7F) = true ∧ isLit (.imm 0x7F) = false ∧ Operand.imm 0x7F ≠ .imm 0x80) := by
  decide +kernel
theorem test_GeneratorSeeded_issues : Issues tPlain tWave tv (.vrseed { g0 with a := .s 3, b := .imm 0 }) :=
  test_issue_cross _ (by decide +kernel)

/-- LaunchMaskFixed: the last lane; a destination k0; a line whose slot 0 holds a reserved opcode. -/
theorem test_LaunchMaskFixed_meets :
    dstOp (.kmov { g0 with dst := .k 0, a := .k 1 }) = some (.k 0)
    ∧ ∃ (w : Wave) (e : TlbEntry) (l : List Byte), findWave (tPlain.withFetchWord 96 (0x3FF * 2 ^ 86)) w.id = some w ∧ w.ctl.st = .ready
      ∧ peekLine (tPlain.withFetchWord 96 (0x3FF * 2 ^ 86)) w w.ctl.pc = .ok (e, l) ∧ slotIndex w.ctl.pc = some 0 ∧ isLitSlot l 0 = false
      ∧ slotIns l 0 = none :=
  ⟨by decide +kernel, tWave, { asid := 5, base := 0x1000, size := 12, leaf := 0xB, at_ := 0 }, lineFor (0x3FF * 2 ^ 86), by decide +kernel⟩
/-- LaunchMaskFixed: neither a task's entry nor a branch has brought the wave to that slot. -/
theorem test_LaunchMaskFixed_flags :
    entryBad (refetchAt (tPlain.withFetchWord 96 (0x3FF * 2 ^ 86)) tWave 0x1000) tWave (lineFor (0x3FF * 2 ^ 86)) 0 = false
    ∧ arrivedBad tWave (lineFor (0x3FF * 2 ^ 86)) 0 = false := by decide +kernel
/-! ### What the statements suppose: the step, memory, latches -/

/-- A state whose next step fetches the word `w` for wave 3. -/
def tFetch (w : Nat) : State := tPlain.withFetchWord 96 w

/-- The translation that it caches. -/
def tXlate : TlbEntry := { asid := 5, base := 0x1000, size := 12, leaf := 0xB, at_ := 0 }

/-- Whether a step gives a next state, and what holds of it. -/
def nextHas (o : Host.Outcome State Fault Refusal) (p : State → Bool) : Bool := match o with | .next t => p t | _ => false

/-- What holds of wave 3 of a state. -/
def waveHas (p : Wave → Bool) (s : State) : Bool := match findWave s 3 with | some w => p w | none => false

/-- The reset state runs the instruction that is placed: SADD s5, s5, -1 writes all ones (R101, R164), and sets N alone. -/
theorem test_step_first : nextHas (step (State.reset.withFetchWord 96 0x10800080020A82FFE0000000)) (fun t => match t.waves with
    | [w] => sreg w 5 == 0xFFFFFFFFFFFFFFFF && w.regs.cc == 2 && w.ctl.pc == 12
    | _ => false) = true := by decide +kernel

/-- StepRunsDecoded, a wave: SADD decodes, the reserved opcode 0x3FF does not. -/
theorem test_StepRunsDecoded_wave :
    (tFetch 0x10800080020A82FFE0000000).agenda = [.wave tWave.id] ∧ findWave (tFetch 0x10800080020A82FFE0000000) tWave.id = some tWave
    ∧ tWave.ctl.st ∉ [WState.killed, .retired, .preempted, .parked, .retiring] ∧ mayRetry tWave = true ∧ killableWait tWave = false
    ∧ pendingTrap tWave = none ∧ yielding (tFetch 0x10800080020A82FFE0000000) tWave = false ∧ heldBack tWave = false
    ∧ mayChoose { tFetch 0x10800080020A82FFE0000000 with agenda := [] } tWave = true ∧ mayChoose { tFetch (0x3FF * 2 ^ 86) with agenda := [] } tWave = true
    ∧ refetchAt (tFetch 0x10800080020A82FFE0000000) tWave 0x1000 = tFetch 0x10800080020A82FFE0000000
    ∧ entryBad (tFetch 0x10800080020A82FFE0000000) tWave (lineFor 0x10800080020A82FFE0000000) 0 = false
    ∧ peekLine (tFetch 0x10800080020A82FFE0000000) tWave tWave.ctl.pc = .ok (tXlate, lineFor 0x10800080020A82FFE0000000)
    ∧ peekLine (tFetch (0x3FF * 2 ^ 86)) tWave tWave.ctl.pc = .ok (tXlate, lineFor (0x3FF * 2 ^ 86))
    ∧ slotIndex tWave.ctl.pc = some 0 ∧ isLitSlot (lineFor 0x10800080020A82FFE0000000) 0 = false
    ∧ decode (slotWord (lineFor 0x10800080020A82FFE0000000) 0) none = some (.sadd { g0 with hdr := { h0 with typ := .i32 }, dst := .s 5, a := .s 5, b := .imm 255 })
    ∧ decode (slotWord (lineFor (0x3FF * 2 ^ 86)) 0) none = none := by decide +kernel

/-- A killable wait of a wave that nothing kills, which may retry. -/
theorem test_StepRunsDecoded_wait :
    killableWait { tWave with ctl := { tWave.ctl with st := .waiting, wait := .waitt } } = true
    ∧ mayRetry { tWave with ctl := { tWave.ctl with st := .waiting, wait := .waitt } } = true
    ∧ killDue tPlain { tWave with ctl := { tWave.ctl with st := .waiting, wait := .waitt } } = false := by decide +kernel

/-- The line of a task whose first slot is no target. -/
def noTarget : List Byte := List.replicate 60 0 ++ natToBytes 4 (parityOf (List.replicate 60 0) * 2 ^ 24)
/-- A wave of a task that has executed nothing. -/
def freshWave : Wave := { tWave with ctl := { tWave.ctl with fresh := true } }
/-- A state whose next step fetches that line for it. -/
def freshState : State :=
  { tState (fun w => { w with ctl := { w.ctl with fresh := true } }) (fun t => { t with kind := .task 1 }) id with
    agenda := [.wave 3], icache := [{ core := 0, asid := 5, base := 0x1000, size := 12, addr := 0x1000, bytes := noTarget }] }

/-- StepRunsDecoded: the entry of a task that is no target. -/
theorem test_StepRunsDecoded_entry :
    findWave freshState freshWave.id = some freshWave ∧ mayRetry freshWave = true ∧ pendingTrap freshWave = none ∧ heldBack freshWave = false
    ∧ mayChoose { freshState with agenda := [] } freshWave = true ∧ (∃ e, peekLine freshState freshWave 0x1000 = .ok (e, noTarget))
    ∧ isLitSlot noTarget 0 = false ∧ entryBad freshState freshWave noTarget 0 = true :=
  ⟨by decide +kernel, by decide +kernel, by decide +kernel, by decide +kernel, by decide +kernel,
   ⟨{ asid := 5, base := 0x1000, size := 12, leaf := 0x80F, at_ := 0x8000 }, by decide +kernel⟩, by decide +kernel, by decide +kernel⟩
/-- StepRunsDecoded: the target of a branch that is met only at the fetch, and is no target. -/
theorem test_StepRunsDecoded_arrived :
    let w : Wave := { tWave with ctl := { tWave.ctl with needTgt := true } }
    let s : State := { freshState with waves := [w], teams := [tTeam] }
    findWave s w.id = some w ∧ mayRetry w = true ∧ pendingTrap w = none ∧ heldBack w = false ∧ mayChoose { s with agenda := [] } w = true
    ∧ peekLine (refetchAt s w 0x1000) w 0x1000 = .ok ({ asid := 5, base := 0x1000, size := 12, leaf := 0x80F, at_ := 0x8000 }, noTarget)
    ∧ entryBad s w noTarget 0 = false ∧ arrivedBad w noTarget 0 = true ∧ arrivedBad tWave noTarget 0 = false := by decide +kernel

/-- StepRunsDecoded, the line: in the instruction cache, and in memory at its frame. -/
theorem test_StepRunsDecoded_line :
    aperOf 0x1000 = .global ∧ translate (tFetch 0) 5 0 0x1000 false = .leaf tXlate ∧ leafAper tXlate.leaf.toNat = 0 ∧ leafX tXlate.leaf.toNat = true
    ∧ icacheFind (tFetch 0) 0 5 (lineAddr 0x1000) = some { core := 0, asid := 5, base := 0x1000, size := 12, addr := 0x1000, bytes := lineFor 0 } ∧ lineOk (lineFor 0) = true
    ∧ parityOk (lineFor 0) = true
    ∧ icacheFind { tFetch 0 with icache := [] } 0 5 (lineAddr 0x1000) = none
    ∧ lineOk (memGets (memPuts [] 0 (lineFor 0)) (frameAddr tXlate (lineAddr 0x1000).toNat) 64) = true := by decide +kernel

/-- A wave whose slice runs at 0x1000. -/
def sliceWave : Wave := { tWave with slice := { tWave.slice with pc := 0x1000, stopped := false } }
/-- A state whose next step runs AHALT in that slice. -/
def sliceFetch : State := (tState (fun w => { w with slice := { w.slice with pc := 0x1000, stopped := false } }) id id).withFetchWord 96 0xC14000000000000000000000

/-- StepRunsDecoded, a slice and an event. -/
theorem test_StepRunsDecoded_slice :
    sliceFetch.agenda = [.slice sliceWave.id] ∧ findWave sliceFetch sliceWave.id = some sliceWave ∧ sliceWave.slice.stopped = false
    ∧ sliceWave.ctl.st ≠ .killed ∧ sliceWave.ctl.st ≠ .retired ∧ sliceWave.ctl.st ≠ .preempted
    ∧ pastAccess sliceFetch sliceWave sliceWave.slice.pc = false ∧ sliceWave.slice.skip = none
    ∧ peekLine sliceFetch sliceWave sliceWave.slice.pc = .ok (tXlate, lineFor 0xC14000000000000000000000)
    ∧ slotIndex sliceWave.slice.pc = some 0 ∧ slotIns (lineFor 0xC14000000000000000000000) 0 = some (.ahalt g0) := by decide +kernel
theorem test_StepRunsDecoded_event : ({ tPlain with agenda := [.event .governorWindow] } : State).agenda = [.event .governorWindow] := rfl

/-- StepKeepsMemories: the event leaves memories that list one byte as they are. -/
theorem test_StepKeepsMemories_meets : ∃ t, step { tPlain with hbm := [(5, 1)], agenda := [.event .governorWindow] } = .next t ∧ t.hbm = [(5, 1)] :=
  ⟨_, rfl, rfl⟩
theorem test_StepKeepsMemories_form : ({ tPlain with hbm := [(5, 1)], agenda := [.event .governorWindow] } : State).memOk := by
  refine ⟨by decide, by decide, by decide, ?_, ?_, ?_⟩
  · intro t ht; simp only [tPlain, tState, List.mem_cons, List.not_mem_nil, or_false] at ht; subst ht; decide
  · intro w hw; simp only [tPlain, tState, List.mem_cons, List.not_mem_nil, or_false] at hw; subst hw; decide
  · intro c hc; simp only [tPlain, tState, List.mem_cons, List.not_mem_nil, or_false] at hc; subst hc; decide

/-- A store of four bytes to one place. -/
def tStore (a : W64) (site : Site) : Access :=
  { kind := .store, ty := .b32, order := .relaxed, scope := .w, wb := .none, vector := false, viaHandle := false,
    elems := [{ lane := 0, piece := 0, addr := a, site := site, data := 0x04030201, cmp := 0 }] }

/-- StoreFrame: a store to the shelf, its last byte but one beside it; one through a leaf that is DIRTY, and one through a leaf that is not. -/
theorem test_StoreFrame_meets :
    (tStore 0xFF00000000000040 (.loc (.shelf 2) 0x40)).kind = .store
    ∧ (∀ e ∈ (tStore 0xFF00000000000040 (.loc (.shelf 2) 0x40)).elems, aperOf e.addr ≠ .global)
    ∧ 0x44 ∉ storedIn tPlain 0 (tStore 0xFF00000000000040 (.loc (.shelf 2) 0x40)) false (.shelf 2)
    ∧ 0x43 ∈ storedIn tPlain 0 (tStore 0xFF00000000000040 (.loc (.shelf 2) 0x40)) false (.shelf 2)
    ∧ (∃ f, translate (writeBytes (cacheAt tPlain tCtx 0x1100) .hbm 0x100 (natToBytes 4 0x04030201)) 5 0 0x1100 true = .leaf f ∧ leafDirty f.leaf.toNat = true)
    ∧ tPlain.hbm.wf = true ∧ forbidden tPlain 0 .hbm 0x100 = false ∧ 3 < tySize .b32 := by
  refine ⟨rfl, by decide +kernel, by decide +kernel, by decide +kernel, ⟨{ asid := 5, base := 0x1000, size := 12, leaf := 0x80F, at_ := 0x8000 }, ?_⟩, ?_⟩ <;>
    decide +kernel

/-- A state whose page at 0x1000 has a leaf, at 0x8000, that is not DIRTY. -/
def cleanState : State :=
  { tPlain with tlb := [{ asid := 5, base := 0x1000, size := 12, leaf := 0xF, at_ := 0x8000 }], hbm := memPuts [] 0x8000 [0xF] }
theorem test_StoreFrame_dirty :
    translate (writeBytes (cacheAt cleanState tCtx 0x1100) .hbm 0x100 (natToBytes 4 0x04030201)) 5 0 0x1100 true
      = .leaf { asid := 5, base := 0x1000, size := 12, leaf := 0xF, at_ := 0x8000 }
    ∧ leafDirty 0xF = false ∧ (0x104 < 0x100 ∨ 0x100 + tySize .b32 ≤ 0x104) ∧ (0x104 < 0x8000 ∨ 0x8000 + 8 ≤ 0x104) := by decide +kernel

/-- LatchTakesResult: the issues, the destination, the bounds; a line that goes on; a reader of x1 in a line without CHAIN, in its first
slot, and after an instruction without a result. -/
theorem test_LatchTakesResult_issues :
    Issues tPlain tWave tv (.sadd { g0 with hdr := { h0 with typ := .i32 }, dst := .s 5, a := .s 5, b := .imm 255 })
    ∧ Issues tPlain tWave tv (.vadd { g0 with hdr := { h0 with typ := .i16, msk := 2 }, dst := .v 20, a := .v 21, b := .imm 100, sat := true })
    ∧ tyWidth .i16 ≠ 64 ∧ boundsOk true tTeam tv [(20, [])] ∧ trapLanes (getTeam tPlain tv.team) tv [(20, [(0, 100)])] = 0 :=
  ⟨test_issue_scalar _ (by decide +kernel), test_issue_vecint _ (by decide +kernel), by decide, .inl rfl, by decide +kernel⟩
theorem test_LatchTakesResult_reads :
    takesBack tWave (.nop g0) = false ∧ tWave.ctl.recipe = none
    ∧ 1 ∈ xRegs (.vand { g0 with dst := .v 2, a := .x 1, b := .imm 15 }) ∧ tWave.ctl.chain = false ∧ tWave.ctl.latches.length < 1
    ∧ (∀ e ∈ xRegs (.vand { g0 with dst := .v 2, a := .x 1, b := .imm 15 }),
      e ≤ ({ latchWave with ctl := { latchWave.ctl with latches := [.nothing] } } : Wave).ctl.latches.length)
    ∧ latchWave.ctl.chain = true ∧ ([Latch.nothing] : List Latch)[1 - 1]? = some .nothing := by decide +kernel
/-- LatchTakesResult: the instructions of each list, with NWB and without. -/
theorem test_LatchTakesResult_nwb :
    (let g : GenW := { g0 with hdr := { h0 with typ := .i32 }, dst := .s 20, a := .s 5, b := .s 6, c := .s 7 }
     ([Instr.sadd, .ssub, .smul, .smulh, .smad, .sdiv, .srem, .sand, .sor, .sxor, .sshl, .sshr, .smin, .smax, .sbfe, .sbfi, .sclz, .spopc, .smov,
       .sli, .ssel, .kget, .kpopc, .kfirst, .kpoll, .vred, .vvote] : List (GenW → Instr)).all (fun k =>
         issuesOk tPlain tWave tv (k (withNwb false g)) && issuesOk tPlain tWave tv (k (withNwb true g))) = true)
    ∧ (let g : GenW := { g0 with dst := .k 20, a := .k 5, b := .k 6 }
       ([Instr.kand, .kor, .kxor, .kandn, .kmov, .kset, .elect, .vcmp, .vfcmp] : List (GenW → Instr)).all (fun k =>
         issuesOk tPlain tWave tv (k (withNwb false g)) && issuesOk tPlain tWave tv (k (withNwb true g))) = true)
    ∧ (let g : GenW := { g0 with hdr := { h0 with typ := .f32 }, dst := .v 20, a := .v 4, b := .v 6, c := .v 8 }
       ([Instr.vmov, .vadd, .vsub, .vmul, .vmulh, .vmad, .vand, .vor, .vxor, .vshl, .vshr, .vmin, .vmax, .vabs, .vclz, .vpopc, .vbfe, .vbfi, .vsel,
         .vdp4, .vfadd, .vfsub, .vfmul, .vfma, .vdiv, .vfmin, .vfmax, .vfclass, .vrcp, .vrsq, .vsqrt, .vexp2, .vlog2, .vfrnd, .vcvt, .vpack, .vunpk, .vshuf,
         .vxsh, .vbcast, .vsca, .vscan, .vcomp, .vexpd, .vrand] : List (GenW → Instr)).all (fun k =>
         issuesOk tPlain tWave tv (k (withNwb false g)) && issuesOk tPlain tWave tv (k (withNwb true g))) = true)
    ∧ tv.regs.poison = [] ∧ tv.regs.bmap = [] := by decide +kernel
/-- LatchTakesResult: SRD of the wave's own registers, and a DRAIN that has waited, under NWB. -/
theorem test_LatchTakesResult_counts :
    Issues tPlain tWave tv (.srd { g0 with hdr := { h0 with nwb := true }, dst := .s 20, a := .imm 0 }) ∧ (srdValue (putWave tPlain tv) tv 0 0).isSome = true
    ∧ (let w : Wave := { tWave with ctl := { tWave.ctl with wait := .drain [] 3 1 0 } }
       Issues { tPlain with waves := [w] } w (freezeLatches w) (.drain { g0 with hdr := { h0 with nwb := true }, dst := .s 22 })
         ∧ (freezeLatches w).ctl.wait = .drain [] 3 1 0) :=
  ⟨issues_of (by decide +kernel), by decide +kernel, issues_of (by decide +kernel), rfl⟩

/-- BoundInstructionsComplete and VectorWriteFrame have a wave with a register bound to a clamp. -/
def boundWave : Wave := { tWave with regs := { tWave.regs with bmap := [(4, 3), (5, 2)] } }
/-- Its team: register 3 of the bound registers traps above 5, register 2 clamps to 0 to 9. -/
def boundTeam : Team :=
  { tTeam with bounds := (newBound :: newBound :: ({ fmt := .i32, act := 2, mn := 0, mx := 9 } : Bound)
      :: ({ fmt := .i32, act := 3, mn := 0, mx := 5 } : Bound) :: List.replicate 12 newBound) }
/-- Its state. -/
def boundState : State :=
  tState (fun w => { w with regs := { w.regs with bmap := [(4, 3), (5, 2)] } })
    (fun t => { t with bounds := (newBound :: newBound :: ({ fmt := .i32, act := 2, mn := 0, mx := 9 } : Bound)
      :: ({ fmt := .i32, act := 3, mn := 0, mx := 5 } : Bound) :: List.replicate 12 newBound) }) id

/-- VectorWriteFrame: the bindings, a write in the last lane, and a VMOV of 6 that the trap binding stops. -/
theorem test_VectorWriteFrame_meets :
    tWave.regs.bmap = [] ∧ (([(31, 7)] : List (Nat × W32)).map (·.1)).Nodup ∧ 4 < tWave.regs.v.length ∧ 31 < ((tWave.regs.v[4]?).getD []).length
    ∧ boundOf boundTeam boundWave 5 = some (2, { fmt := .i32, act := 2, mn := 0, mx := 9 })
    ∧ Issues boundState boundWave (freezeLatches boundWave) (.vmov { g0 with hdr := { h0 with typ := .i32 }, dst := .v 4, a := .imm 6 })
    ∧ (freezeLatches boundWave).hz.handler = false
    ∧ trapLanes (getTeam boundState 2) (freezeLatches boundWave) (laneWrites 4 .i32 [(0, 6)]) ≠ 0
    ∧ trapLanes (getTeam boundState 2) (freezeLatches boundWave) (laneWrites 4 .i32 [(0, 5)]) = 0 :=
  ⟨rfl, by decide, by decide +kernel, by decide +kernel, by decide +kernel, issues_of (by decide +kernel), rfl, by decide +kernel, by decide +kernel⟩
theorem test_VectorWriteFrame_others :
    Issues boundState boundWave (freezeLatches boundWave) (.vadd { g0 with hdr := { h0 with typ := .i32 }, dst := .v 4, a := .imm 5, b := .imm 1 })
    ∧ trapLanes (getTeam boundState 2) (freezeLatches boundWave) (laneWrites 4 .i32 ((actLanes (freezeLatches boundWave) g0).map (fun l => (l, 6)))) ≠ 0
    ∧ Issues boundState boundWave (freezeLatches boundWave) (.vfadd { g0 with hdr := { h0 with typ := .f32 }, dst := .v 4, a := .imm 1, b := .v 5 })
    ∧ Issues boundState boundWave (freezeLatches boundWave) (.vfmul { g0 with hdr := { h0 with typ := .f32 }, dst := .v 4, a := .imm 1, b := .v 5 })
    ∧ Issues boundState boundWave (freezeLatches boundWave) (.vfma { g0 with hdr := { h0 with typ := .f32 }, dst := .v 4, a := .imm 1, b := .v 5, c := .v 6 }) :=
  ⟨issues_of (by decide +kernel), by decide +kernel, issues_of (by decide +kernel), issues_of (by decide +kernel), issues_of (by decide +kernel)⟩
/-! ### What the statements suppose: results, control -/

/-- With no bound registers no write is out of bounds, whatever is written. -/
theorem unbound_ok (n : Bool) (t : Team) (v : Wave) (ws : List (Nat × List (Nat × W32))) (h : v.regs.bmap = []) : boundsOk n t v ws := by
  refine .inr ?_
  have hb : ∀ r, boundOf t v r = none := fun r => by simp [boundOf, h]
  rw [trapLanes, List.flatMap_eq_nil_iff.2 (fun p _ => by rw [hb])]
  rfl

/-- The vector and cross-lane statements: a wave without bindings. -/
theorem test_vectors_unbound : tv.regs.bmap = [] := rfl

/-- ScalarMoveCompareCompletes: a move to %cc and one to a register. -/
theorem test_ScalarMove_meets :
    Issues tPlain tWave tv (.smov { g0 with dst := .sp .cc, a := .imm 1 }) ∧ Operand.s 8 ≠ .sp .cc
    ∧ Issues tPlain tWave tv (.smov { g0 with hdr := { h0 with nwb := true }, dst := .sp .cc, a := .imm 1 }) :=
  ⟨issues_of (by decide +kernel), by decide, issues_of (by decide +kernel)⟩

/-- VapndCompletes: no lane selected by k6; every lane selected by k0, with the counter in the last word of the shelf. -/
theorem test_Vapnd_meets :
    Issues tPlain tWave tv (.vapnd { g0 with hdr := { h0 with typ := .n32 }, dst := .v 14, a := .s 33, b := .k 6, c := .s 20 })
    ∧ lanes (maskOpd tv (.k 6) &&& actOf tv 0) tv.width = []
    ∧ Issues tPlain tWave tv (.vapnd { g0 with hdr := { h0 with typ := .n32 }, dst := .v 14, a := .s 33, b := .k 0, c := .s 20 })
    ∧ lanes (maskOpd tv (.k 0) &&& actOf tv 0) tv.width ≠ [] ∧ aperOf 0xFF00000000000040 ≠ .global
    ∧ resolve tPlain tv (.atom .add) .raw 4 0xFF00000000000040 = .ok (.loc (.shelf 2) 0x40)
    ∧ resolve tPlain tv (.atom .add) .raw 4 0xFF00000000000FFC = .ok (.loc (.shelf 2) 0xFFC)
    ∧ locksDamaged tPlain = false ∧ tv.hz.held = [] ∧ tv.hz.lazies = [] ∧ isPoison tPlain (.shelf 2) 0x40 = false :=
  ⟨issues_of (by decide +kernel), by decide +kernel, issues_of (by decide +kernel), by decide +kernel, by decide +kernel, by decide +kernel,
    by decide +kernel, by decide +kernel, rfl, rfl, by decide +kernel⟩

/-- BoundInstructionsComplete: bounds in order; the last registers of the file. -/
theorem test_BoundInstructions_meets :
    Issues tPlain tWave tv (.bset { g0 with hdr := { h0 with typ := .f32 }, a := .s 10, b := .s 11, opx := 3, ty2 := .n32 })
    ∧ valOf .f32 80 ≠ .nan ∧ valOf .f32 88 ≠ .nan ∧ flt (valOf .f32 88) (valOf .f32 80) = false ∧ flt (valOf .f32 80) (valOf .f32 80) = false
    ∧ Issues tPlain tWave tv (.bmap { g0 with a := .v 248, b := .imm 8, opx := 19 - 16 }) ∧ 248 + 8 ≤ 256 :=
  ⟨issues_of (by decide +kernel), by decide +kernel, by decide +kernel, by decide +kernel, by decide +kernel, issues_of (by decide +kernel), by decide⟩

/-- A state with a line at 0x1200 whose slot 0 is a legal branch target; `f` changes the wave. -/
def brState (f : Wave → Wave) : State :=
  { tState f id id with icache := [{ core := 0, asid := 5, base := 0x1000, size := 12, addr := 0x1200, bytes := lineFor 0 }] }

/-- BranchesComplete: targets that are legal, that are no slot, and whose TGT bit is clear. -/
theorem test_Branches_targets :
    brTarget tv { b0 with offset := 40 } = 0x1200 ∧ targetOk (brState id) tv 0x1200 true = true
    ∧ brTarget tv { b0 with offset := 41 } = 0x120C ∧ targetOk (brState id) tv 0x120C true = false ∧ targetOk (brState id) tv 0x1101 true = false
    ∧ scalarOp (brState id) tv none (.s 39) = 0x1200 ∧ scalarOp (brState id) tv none (.s 37) = 0x1101 := by decide +kernel

/-- BranchesComplete: each form, taken and not taken. -/
theorem test_Branches_meets :
    Issues (brState id) tWave tv (.bra { b0 with offset := 40 }) ∧ Issues (brState id) tWave tv (.bra { b0 with offset := 41 })
    ∧ Issues (brState id) tWave tv (.bkz { b0 with hdr := { h0 with msk := 2 }, offset := 40 })
    ∧ kreg tv 2 &&& kreg tv 0 &&& ~~~ tv.regs.dead = 0
    ∧ Issues (brState id) tWave tv (.bknz { b0 with offset := 40 }) ∧ kreg tv 0 &&& kreg tv 0 &&& ~~~ tv.regs.dead ≠ 0
    ∧ Issues (brState id) tWave tv (.bkz { b0 with offset := 40 })
    ∧ Issues (brState id) tWave tv (.bknz { b0 with hdr := { h0 with msk := 2 }, offset := 40 })
    ∧ Issues (brState id) tWave tv (.call { b0 with dst := .s 15, offset := 40 }) ∧ Issues (brState id) tWave tv (.call { b0 with dst := .s 15, offset := 41 })
    ∧ Issues (brState id) tWave tv (.ret { g0 with a := .s 39 }) ∧ Issues (brState id) tWave tv (.ret { g0 with a := .s 37 })
    ∧ Issues (brState id) tWave tv (.jmpi { g0 with a := .s 39 }) ∧ Issues (brState id) tWave tv (.jmpi { g0 with a := .s 37 }) :=
  ⟨issues_of (by decide +kernel), issues_of (by decide +kernel), issues_of (by decide +kernel), by decide +kernel, issues_of (by decide +kernel),
    by decide +kernel, issues_of (by decide +kernel), issues_of (by decide +kernel), issues_of (by decide +kernel), issues_of (by decide +kernel),
    issues_of (by decide +kernel), issues_of (by decide +kernel), issues_of (by decide +kernel), issues_of (by decide +kernel)⟩

/-- A slip of tag 0 that is not resolved. -/
def openSlip0 : Slip :=
  { tag := 0, pc := 0x1000, rcd := { iword := 0, a := 0, b := 0, c := 0, peer := 0, stream := 0, scope := 0 }, lanes := 0, op := .flush 0 [],
    orders := false, binds := [], bounds := [], fenced := false, handler := false, held := false, openPark := false, fail := none, ended := false, delivered := false, desched := false, hr := false }

/-- A wave with that slip and its tag counter at 2. -/
def openWave : Wave := { tWave with hz := { tWave.hz with tag := 2, slips := [openSlip0] } }
/-- Its state. -/
def openState : State := { brState id with waves := [openWave] }

/-- BranchesComplete, BHZ and WaitsComplete, HWAIT: tag 0 is passed where nothing waits, and not where its slip does. -/
theorem test_tags_meet :
    Issues openState openWave (freezeLatches openWave) (.bhz { b0 with a := .s 0, offset := 40 })
    ∧ tagPassed openState (freezeLatches openWave) none (.s 0) = false
    ∧ Issues { brState id with waves := [{ openWave with hz := { openWave.hz with slips := [] } }] }
        { openWave with hz := { openWave.hz with slips := [] } } (freezeLatches { openWave with hz := { openWave.hz with slips := [] } })
        (.bhz { b0 with a := .s 0, offset := 40 })
    ∧ tagPassed openState (freezeLatches { openWave with hz := { openWave.hz with slips := [] } }) none (.s 0) = true
    ∧ Issues openState openWave (freezeLatches openWave) (.hwait { g0 with a := .s 0 })
    ∧ passed (freezeLatches openWave) (waitTag (freezeLatches openWave) 0) = false ∧ (∀ x, openWave.ctl.wait ≠ .hwait x)
    ∧ Issues tPlain tWave tv (.hwait { g0 with a := .s 0 }) ∧ passed tv (waitTag tv 0) = true :=
  ⟨issues_of (by decide +kernel), by decide +kernel, issues_of (by decide +kernel), by decide +kernel, issues_of (by decide +kernel), by decide +kernel,
    fun x => nofun, issues_of (by decide +kernel), by decide +kernel⟩
/-- BranchesComplete: BKZ, BKNZ and BHZ, taken to a slot that is no target. -/
theorem test_Branches_trap :
    Issues (brState id) tWave tv (.bkz { b0 with hdr := { h0 with msk := 2 }, offset := 41 }) ∧ Issues (brState id) tWave tv (.bknz { b0 with offset := 41 })
    ∧ Issues (brState id) tWave tv (.bhz { b0 with a := .s 0, offset := 41 }) ∧ tagPassed (brState id) tv none (.s 0) = true :=
  ⟨issues_of (by decide +kernel), issues_of (by decide +kernel), issues_of (by decide +kernel), by decide +kernel⟩

/-- LoopCompletes: the greatest count that fits, zero, and 2^32. -/
theorem test_Loop_meets :
    Issues (brState id) tWave tv (.loop { b0 with hdr := { h0 with lit := some 0xFFFFFFFF }, dst := .s 7, a := .lit, offset := 40 })
    ∧ Issues (brState id) tWave tv (.loop { b0 with dst := .s 7, a := .imm 0, offset := 40 })
    ∧ Issues (brState id) tWave tv (.loop { b0 with hdr := { h0 with lit := some 0x100000000 }, dst := .s 7, a := .lit, offset := 40 })
    ∧ (0xFFFFFFFF : W64).toNat < 2 ^ 32 ∧ ¬ (0x100000000 : W64).toNat < 2 ^ 32 ∧ (40 : BitVec 39).toInt = 40
    ∧ slotIndex 0x1200 = some 0 ∧ tv.ctl.loops.length < 4 :=
  ⟨issues_of (by decide +kernel), issues_of (by decide +kernel), issues_of (by decide +kernel), by decide +kernel, by decide +kernel, by decide +kernel,
    by decide +kernel, by decide⟩

/-- SimpleControlCompletes: outside handler mode; the wave's own status; the barriers 15 and 16. -/
theorem test_SimpleControl_meets :
    tv.hz.handler = false
    ∧ Issues tPlain tWave tv (.srd { g0 with dst := .s 20, a := .imm 8, b := .imm 15 }) ∧ (srdValue (putWave tPlain tv) tv 8 15).isSome = true
    ∧ Issues tPlain tWave tv (.srd { g0 with dst := .s 20, a := .imm 8, b := .imm 16 }) ∧ 15 < (16 : W64).toNat
    ∧ Issues tPlain tWave tv (.srd { g0 with dst := .s 20, a := .imm 0 }) ∧ (srdValue (putWave tPlain tv) tv 0 0).isSome = true :=
  ⟨rfl, issues_of (by decide +kernel), by decide +kernel, issues_of (by decide +kernel), by decide, issues_of (by decide +kernel), by decide +kernel⟩

/-- A wave in handler mode whose frame holds the program counter 0x1200. -/
def handlerWave : Wave := { tWave with hz := { tWave.hz with handler := true }, stack := memPuts [] 0xFFF08 [0, 0x12] }
/-- Its state. -/
def handlerState : State := { brState id with waves := [handlerWave] }

/-- TrapAndReturnComplete: RFT in handler mode and outside it. -/
theorem test_TrapAndReturn_meets :
    Issues handlerState handlerWave (freezeLatches handlerWave) (.rft g0) ∧ w64 (memNat handlerWave.stack (0xFFF00 + 8) 8) = 0x1200
    ∧ targetOk handlerState (freezeLatches handlerWave) 0x1200 false = true ∧ (freezeLatches handlerWave).ctl.stopping = false
    ∧ Issues tPlain tWave tv (.rft g0) ∧ Issues tPlain tWave tv (.trap { g0 with a := .imm 3 }) :=
  ⟨issues_of (by decide +kernel), by decide +kernel, by decide +kernel, rfl, issues_of (by decide +kernel), issues_of (by decide +kernel)⟩
/-- A wave in handler mode that a trap has interrupted with lane 3 unfinished. -/
def restWave : Wave := { handlerWave with ctl := { handlerWave.ctl with rest := some (0x1200, oneLane 3) } }
/-- TrapAndReturnComplete: RFT to an instruction with lanes unfinished, and to another. -/
theorem test_Rft_rest :
    Issues { handlerState with waves := [restWave] } restWave (freezeLatches restWave) (.rft g0) ∧ (freezeLatches restWave).ctl.rest = some (0x1200, oneLane 3)
    ∧ targetOk { handlerState with waves := [restWave] } (freezeLatches restWave) 0x1200 false = true ∧ (freezeLatches restWave).ctl.stopping = false
    ∧ handlerWave.ctl.rest = none := ⟨issues_of (by decide +kernel), rfl, by decide +kernel, rfl, rfl⟩

/-- A context that is halted, and a wave that drains. -/
def haltedState : State := tState id id (fun c => { c with halted := true })
/-- A wave whose DRAIN has `l` left. -/
def drainWave (l : List Nat) : Wave := { tWave with ctl := { tWave.ctl with wait := .drain l 3 1 0 } }
/-- Its state. -/
def drainState (l : List Nat) : State := { tPlain with waves := [drainWave l] }
/-- A wave whose HALTCTX waits. -/
def haltingWave : Wave := { tWave with ctl := { tWave.ctl with st := .waiting, wait := .halting } }
/-- Its state, beside a wave `x` of its context. -/
def haltingState (w x : Wave) : State := { tState id id (fun c => { c with halted := true, haltWave := some 3 }) with waves := [w, x] }
/-- A wave of its context that the array holds, and one that has stopped. -/
def slavedWave : Wave := { tWave with id := 4, ctl := { tWave.ctl with st := .slaved } }
/-- The latter. -/
def stoppedWave : Wave := { tWave with id := 4, ctl := { tWave.ctl with st := .waiting, wait := .stopped } }

/-- ContextControlCompletes, HALTCTX: in a context that is halted; where every other wave stops; where one is slaved; and, re-issued, where every
wave has stopped and where one has not. -/
theorem test_Haltctx_meets :
    Issues haltedState tWave tv (.haltctx { g0 with dst := .s 21 }) ∧ (getCtx haltedState tv.ctx).halted = true
    ∧ Issues tPlain tWave tv (.haltctx { g0 with dst := .s 21 }) ∧ (getCtx tPlain tv.ctx).halted = false ∧ tv.ctl.wait ≠ .halting
    ∧ (∃ c ∈ tPlain.ctxs, c.id = tv.ctx) ∧ (∀ x ∈ tPlain.waves, x.ctl.st ≠ .slaved)
    ∧ Issues { tPlain with waves := [tWave, slavedWave] } tWave tv (.haltctx { g0 with dst := .s 21 })
    ∧ allStopped (haltCtx (putWave { tPlain with waves := [tWave, slavedWave] } tv) tv.ctx (some tv.id)) tv.ctx = false
    ∧ Issues (haltingState haltingWave stoppedWave) haltingWave (freezeLatches haltingWave) (.haltctx { g0 with dst := .s 21 })
    ∧ allStopped (putWave (haltingState haltingWave stoppedWave) (freezeLatches haltingWave)) 1 = true
    ∧ Issues (haltingState haltingWave slavedWave) haltingWave (freezeLatches haltingWave) (.haltctx { g0 with dst := .s 21 })
    ∧ allStopped (putWave (haltingState haltingWave slavedWave) (freezeLatches haltingWave)) 1 = false :=
  ⟨issues_of (by decide +kernel), by decide +kernel, issues_of (by decide +kernel), by decide +kernel, by decide, ⟨tCtx, by decide +kernel, rfl⟩,
    by decide +kernel, issues_of (by decide +kernel), by decide +kernel, issues_of (by decide +kernel), by decide +kernel, issues_of (by decide +kernel),
    by decide +kernel⟩

/-- An engine operation of the wave's context. -/
def drainedOp : EngOp :=
  { id := 7, kind := .chain { src0 := 0, src1 := 0, dst := 0, count := 1, t0 := .f32, t1 := .f32, td := .f32, ops := [], k0 := 0, k1 := 0 }, wave := 3, team := 2,
    ctx := 1, core := 0, asid := 5, die := 0, slot := none, engine := 0, tag := 0, scope := 0, comp := 0, running := false, chunk := 0, fetched := [],
    poison := none, fault := none, abort := none, stage := 0, far := [], farPois := [], order := 1 }

/-- ContextControlCompletes, DRAIN: with no operation of its context; with one; re-issued with none left, and with one left. -/
theorem test_Drain_meets :
    Issues tPlain tWave tv (.drain { g0 with dst := .s 22 }) ∧ (∀ o ∈ tPlain.ops, o.ctx ≠ tv.ctx) ∧ (∀ l d f a, tv.ctl.wait ≠ .drain l d f a)
    ∧ Issues { tPlain with ops := [drainedOp] } tWave tv (.drain { g0 with dst := .s 22, opx := 1 })
    ∧ ((({ tPlain with ops := [drainedOp] } : State).ops.filter (fun o => o.ctx == tv.ctx)).map (·.id)) ≠ []
    ∧ Issues (drainState []) (drainWave []) (freezeLatches (drainWave [])) (.drain { g0 with dst := .s 22 })
    ∧ (freezeLatches (drainWave [])).ctl.wait = .drain [] 3 1 0
    ∧ Issues (drainState [7]) (drainWave [7]) (freezeLatches (drainWave [7])) (.drain { g0 with dst := .s 22 })
    ∧ (freezeLatches (drainWave [7])).ctl.wait = .drain [7] 3 1 0 :=
  ⟨issues_of (by decide +kernel), by decide, nofun, issues_of (by decide +kernel), by decide +kernel, issues_of (by decide +kernel), rfl,
    issues_of (by decide +kernel), rfl⟩

/-- A wave that holds a store to 0x1100 back, under key 0. -/
def heldStoreWave : Wave := { tWave with hz := { tWave.hz with held := [{ key := 0, h := 0, failable := false, acc :=
  { kind := .store, ty := .b32, order := .relaxed, scope := .w, wb := .none, vector := false, viaHandle := false,
    elems := [{ lane := 0, piece := 0, addr := 0x1100, site := .loc .hbm 0x100, data := 0, cmp := 0 }] } }] } }
/-- That wave, or one without the store, as its TLBINV waits for it. -/
def invalWave (w : Wave) : Wave := { w with ctl := { w.ctl with st := .waiting, wait := .tlbinv [] [(3, 0)] [] [] } }

/-- ContextControlCompletes, TLBINV: with no access to wait for; with a held store; re-issued with the store performed, and with it still held. -/
theorem test_Tlbinv_meets :
    Issues tPlain tWave tv (.tlbinv { g0 with a := .s 32, b := .imm 1 })
    ∧ invWait (putWave tPlain tv) (invRange tPlain tv { g0 with a := .s 32, b := .imm 1 }) = .tlbinv [] [] [] [] ∧ (∀ a b c d, tv.ctl.wait ≠ .tlbinv a b c d)
    ∧ Issues { tPlain with waves := [heldStoreWave] } heldStoreWave (freezeLatches heldStoreWave) (.tlbinv { g0 with a := .s 32, b := .imm 1 })
    ∧ invWait (putWave { tPlain with waves := [heldStoreWave] } (freezeLatches heldStoreWave)) (invRange tPlain tv { g0 with a := .s 32, b := .imm 1 })
      ≠ .tlbinv [] [] [] []
    ∧ Issues { tPlain with waves := [invalWave tWave] } (invalWave tWave) (freezeLatches (invalWave tWave)) (.tlbinv { g0 with a := .s 32, b := .imm 1 })
    ∧ invLeft (putWave { tPlain with waves := [invalWave tWave] } (freezeLatches (invalWave tWave))) [] [(3, 0)] [] [] = .tlbinv [] [] [] []
    ∧ Issues { tPlain with waves := [invalWave heldStoreWave] } (invalWave heldStoreWave) (freezeLatches (invalWave heldStoreWave))
      (.tlbinv { g0 with a := .s 32, b := .imm 1 })
    ∧ invLeft (putWave { tPlain with waves := [invalWave heldStoreWave] } (freezeLatches (invalWave heldStoreWave))) [] [(3, 0)] [] [] ≠ .tlbinv [] [] [] [] :=
  ⟨issues_of (by decide +kernel), by decide +kernel, nofun, issues_of (by decide +kernel), by decide +kernel, issues_of (by decide +kernel),
    by decide +kernel, issues_of (by decide +kernel), by decide +kernel⟩

/-- A park under token 208. -/
def park208 : Park :=
  { token := 208, vaddr := 0x9000, pc := 0x1000, kind := 0, level := 1, access := 1, prist := 0, asid := 5, nlanes := 1, entry := 0, eaddr := 0,
    written := true, replayed := false, page := none, cause := 0x09 }

/-- A wave so parked, beside the service wave. -/
def parkedWave : Wave := { tWave with id := 4, ctl := { tWave.ctl with st := .parked, park := some park208 } }

/-- ContextControlCompletes, REPLAY: of a token that no wave holds, and of one that a parked wave holds. -/
theorem test_Replay_meets :
    Issues fswState fswWave (freezeLatches fswWave) (.replay { g0 with dst := .s 25, a := .s 26 })
    ∧ (∀ x ∈ (putWave fswState (freezeLatches fswWave)).waves, x.ctl.st ≠ .parked)
    ∧ Issues { fswState with waves := [fswWave, parkedWave] } fswWave (freezeLatches fswWave) (.replay { g0 with dst := .s 25, a := .s 26 })
    ∧ (putWave { fswState with waves := [fswWave, parkedWave] } (freezeLatches fswWave)).waves.find? (fun y => y.ctx == 1 && y.ctl.st == .parked
      && !killDue { fswState with waves := [fswWave, parkedWave] } y && (match y.ctl.park with | some p => p.token == scalarOp fswState fswWave none (.s 26) | none => false)) = some parkedWave
    ∧ parkedWave.id ≠ fswWave.id :=
  ⟨issues_of (by decide +kernel), by decide +kernel, issues_of (by decide +kernel), by decide +kernel, by decide⟩

/-- MarkCompletes: the last id of the table, whose entry is zero, and the first id above it. -/
theorem test_Mark_meets :
    Issues tPlain tWave tv (.mark { g0 with a := .imm 15 }) ∧ markId { g0 with a := .imm 15 } = some 15 ∧ (getTeam tPlain tv.team).kernel.flash ≠ 0
    ∧ 15 < (getTeam tPlain tv.team).kernel.flashN
    ∧ recAt (putWave tPlain tv) tv (0x3000 + w64 (64 * 15)) 1 8 = .ok (List.replicate 64 0) ∧ flashOk tv.regs.cnt (List.replicate 64 0) = true
    ∧ Issues tPlain tWave tv (.mark { g0 with a := .imm 16 }) ∧ markId { g0 with a := .imm 16 } = some 16
    ∧ (getTeam tPlain tv.team).kernel.flashN ≤ 16 :=
  ⟨issues_of (by decide +kernel), by decide +kernel, by decide +kernel, by decide +kernel, by decide +kernel, by decide +kernel,
    issues_of (by decide +kernel), by decide +kernel, by decide +kernel⟩
/-- A state whose entry of the flashback table for id 15 has a reserved byte set. -/
def badFlash : State := { tPlain with hbm := memPuts [] 0x23C0 (List.replicate 48 0 ++ [1]) }
/-- MarkCompletes: an entry that is not well formed. -/
theorem test_Mark_ill :
    Issues badFlash tWave tv (.mark { g0 with a := .imm 15 })
    ∧ recAt (putWave badFlash tv) tv (0x3000 + w64 (64 * 15)) 1 8 = .ok (List.replicate 48 0 ++ [1] ++ List.replicate 15 0)
    ∧ flashOk tv.regs.cnt (List.replicate 48 0 ++ [1] ++ List.replicate 15 0) = false := ⟨issues_of (by decide +kernel), by decide +kernel, by decide +kernel⟩
/-! ### What the statements suppose: matrices, memory -/

/-- A wave of 128 lanes of a team of two waves on a pair, all lanes dead but the first. -/
def matWave (id core : Nat) : Wave :=
  let w := newWave id 1 2 (id - 3) 0 core 0 256 0 0 0 false { tKernel with width := 128, lanes := 128 } 0 0
  { w with regs := { w.regs with v := List.replicate 256 (List.replicate 128 0), s := tScalars, dead := maskBelow 128 &&& ~~~ 1 },
           ctl := { w.ctl with pc := 0x1000, st := .ready } }

/-- The state of both halves, wave 3 about to issue. -/
def matState : State :=
  { tState id (fun t => { t with pair := true, waves := [3, 4] }) id with waves := [matWave 3 0, matWave 4 1] }

/-- MmaCompletes: an MMA of legal ranges, under a claimed slot and under none. -/
theorem test_Mma_meets :
    Issues matState (matWave 3 0) (freezeLatches (matWave 3 0))
      (.mma { g0 with hdr := { h0 with typ := .bf16 }, dst := .v 64, a := .v 0, b := .v 8, c := .v 64, opx := 1, ty2 := .bf16 })
    ∧ Issues matState (matWave 3 0) (freezeLatches (matWave 3 0))
      (.mma { g0 with hdr := { h0 with typ := .bf16, dsc := 7 }, dst := .v 64, a := .v 0, b := .v 8, c := .v 64, opx := 1, ty2 := .bf16 })
    ∧ mmaOk { g0 with hdr := { h0 with typ := .bf16 }, dst := .v 64, a := .v 0, b := .v 8, c := .v 64, opx := 1, ty2 := .bf16 }
      (putWave matState (freezeLatches (matWave 3 0))) (freezeLatches (matWave 3 0)) = some (matWave 4 1)
    ∧ unitFree (putWave matState (freezeLatches (matWave 3 0))) 0 = true
    ∧ trapBound matState (freezeLatches (matWave 3 0)) 64 (fragRegs 1 2) = false ∧ trapBound matState (matWave 4 1) 64 (fragRegs 1 2) = false
    ∧ fragPoison (freezeLatches (matWave 3 0)) [(0, fragRegs 1 0), (8, fragRegs 1 1), (64, fragRegs 1 2)] = 0 :=
  ⟨issues_of (by decide +kernel), issues_of (by decide +kernel), by decide +kernel, by decide +kernel, by decide +kernel, by decide +kernel,
    by decide +kernel⟩

/-- A leader whose last D register is bound to a trap. -/
def trapMat : Wave := { matWave 3 0 with regs := { (matWave 3 0).regs with bmap := [(64 + fragRegs 1 2 - 1, 0)] } }
/-- Its state. -/
def trapMatState : State :=
  { matState with
    waves := [trapMat, matWave 4 1],
    teams := matState.teams.map (fun t => { t with bounds := ({ fmt := .f32, act := 3, mn := 0, mx := 0 } : Bound) :: List.replicate 15 newBound }) }

/-- MmaCompletes: a trap binding on the last register of D. -/
theorem test_Mma_traps :
    Issues trapMatState trapMat (freezeLatches trapMat)
      (.mma { g0 with hdr := { h0 with typ := .bf16 }, dst := .v 64, a := .v 0, b := .v 8, c := .v 64, opx := 1, ty2 := .bf16 })
    ∧ mmaOk { g0 with hdr := { h0 with typ := .bf16 }, dst := .v 64, a := .v 0, b := .v 8, c := .v 64, opx := 1, ty2 := .bf16 }
      (putWave trapMatState (freezeLatches trapMat)) (freezeLatches trapMat) = some (matWave 4 1)
    ∧ trapBound trapMatState (freezeLatches trapMat) 64 (fragRegs 1 2) = true :=
  ⟨issues_of (by decide +kernel), by decide +kernel, by decide +kernel⟩

/-- An MMA in the array that has read its sources. -/
def tMma : MmaOp :=
  { id := 8, leader := 3, twin := 4, pair := 0, shape := 1, ta := .bf16, tb := .bf16, d := 64, a := 0, b := 8, c := 64, srcA := [], srcB := [], srcC := [],
    dead := 0, chained := none, inner := none, started := true, left := false, lazyLeft := false, bindsL := [], bindsT := [], bounds := [] }
/-- The same once it has left the array. -/
def tMmaOut : MmaOp := { tMma with inner := some ([], []), left := true }

/-- MmaEventsComplete. -/
theorem test_MmaEvents_meets :
    ({ matState with mmas := [tMma] } : State).mmas.find? (fun x => x.id == tMma.id) = some tMma ∧ tMma.left = false ∧ tMma.lazyLeft = false
    ∧ mmasBefore { matState with mmas := [tMma] } tMma = []
    ∧ ({ matState with mmas := [tMmaOut] } : State).mmas.find? (fun x => x.id == tMmaOut.id) = some tMmaOut ∧ tMmaOut.left = true
    ∧ mmasBefore { matState with mmas := [tMmaOut] } tMmaOut = [] ∧ tMmaOut.inner = some ([], [])
    ∧ findWave matState tMma.leader = some (matWave 3 0) ∧ findWave matState tMma.twin = some (matWave 4 1)
    ∧ mmaBad { matState with mmas := [tMmaOut] } 3 ([], []) 64 [] = 0 ∧ mmaBad { matState with mmas := [tMmaOut] } 4 ([], []) 64 [] = 0 := by decide +kernel
theorem test_MmaEvents_wait : ∀ op, (matWave 3 0).ctl.wait ≠ .mmaCheck op := nofun
/-- An MMA with a trap binding on the first register of D whose bounds, 1 to 2, its result is out of. -/
def trapMma : MmaOp :=
  { tMma with inner := some ([List.replicate 128 0], [List.replicate 128 0]), left := true, bindsL := [(64, 0)], bindsT := [],
              bounds := [{ fmt := .f32, act := 3, mn := 0x3F800000, mx := 0x40000000 }] }
/-- Its leader, which waits at it. -/
def checkWave : Wave := { matWave 3 0 with ctl := { (matWave 3 0).ctl with st := .waiting, wait := .mmaCheck 8 } }
/-- Its state. -/
def checkState : State :=
  { matState with
    waves := [checkWave, matWave 4 1], mmas := [trapMma],
    icache := [{ core := 0, asid := 5, base := 0x1000, size := 12, addr := 0x1000, bytes := lineFor 0x680003800080000102005C00 }] }
/-- MmaEventsComplete: a retirement that a trap binding stops. -/
theorem test_MmaRetire_traps :
    checkState.mmas.find? (fun x => x.id == trapMma.id) = some trapMma ∧ trapMma.left = true ∧ mmasBefore checkState trapMma = []
    ∧ trapMma.inner = some ([List.replicate 128 0], [List.replicate 128 0]) ∧ findWave checkState trapMma.leader = some checkWave
    ∧ checkWave.hz.handler = false ∧ (insAt { checkState with mmas := [] } checkWave checkWave.ctl.pc).isSome = true
    ∧ mmaBad { checkState with mmas := [] } 3 (trapMma.bindsL, trapMma.bounds) trapMma.d [List.replicate 128 0]
      ||| (mmaBad { checkState with mmas := [] } 4 (trapMma.bindsT, trapMma.bounds) trapMma.d [List.replicate 128 0] <<< 128) ≠ 0 := by decide +kernel

/-- MatrixShapingCompletes: MSCA with its destination as its source, MTRN in place and to registers just after. -/
theorem test_MatrixShaping_meets :
    Issues matState (matWave 3 0) (freezeLatches (matWave 3 0))
      (.msca { g0 with hdr := { h0 with typ := .f32 }, dst := .v 64, a := .v 64, b := .v 9, c := .imm 0, opx := 5 })
    ∧ mscaOk { g0 with hdr := { h0 with typ := .f32 }, dst := .v 64, a := .v 64, b := .v 9, c := .imm 0, opx := 5 } (freezeLatches (matWave 3 0))
      (fragRegs (5 % 4) 2) = true
    ∧ Issues tPlain tWave tv (.mtrn { g0 with dst := .v 32, a := .v 32 }) ∧ Issues tPlain tWave tv (.mtrn { g0 with dst := .v 32, a := .v 64 })
    ∧ 32 + 32 ≤ 64 :=
  ⟨issues_of (by decide +kernel), by decide +kernel, issues_of (by decide +kernel), issues_of (by decide +kernel), by decide⟩

/-- A wave of which lane 0 of some registers holds poison. -/
def poisonWave : Wave := { tWave with regs := { tWave.regs with poison := [(5, oneLane 0), (31, oneLane 0), (64, oneLane 0)] } }
/-- Its state, and the wave as an instruction finds it. -/
def poisonState : State := { tPlain with waves := [poisonWave] }
abbrev pv : Wave := freezeLatches poisonWave

/-- CrossLaneCompletes, MatrixShapingCompletes, FragmentAccessCompletes: lanes that consume poison, in a shuffle, a VSCA whose vector scale
is read from another lane, an MSCA, an MTRN, and a store of a fragment. -/
theorem test_Poison_meets :
    (let g : GenW := { g0 with dst := .v 5, a := .v 5, b := .v 6 }
     Issues poisonState poisonWave pv (.vshuf g) ∧ consumers pv g g.a 1 (fun _ => some 0) ≠ 0)
    ∧ (let g : GenW := { g0 with hdr := { h0 with typ := .f32 }, dst := .v 20, a := .v 20, b := .v 31, c := .imm 0, opx := 4 }
       Issues poisonState poisonWave pv (.vsca g) ∧ consumers pv g g.b 1 (fun l => some (l / 2 ^ g.opx.toNat)) ≠ 0)
    ∧ Issues poisonState poisonWave pv (.mtrn { g0 with dst := .v 32, a := .v 64 }) ∧ regPoison pv (64 + 0 % 32) 1 (0 / 32 * 32 + 0) = true :=
  ⟨⟨issues_of (by decide +kernel), by decide +kernel⟩, ⟨issues_of (by decide +kernel), by decide +kernel⟩, issues_of (by decide +kernel), by decide +kernel⟩
/-- A wave of a pair of which lane 0 of register 64 holds poison. -/
def poisonMat : Wave := { matWave 3 0 with regs := { (matWave 3 0).regs with poison := [(64, oneLane 0)] } }
/-- Its state. -/
def poisonMatState : State := { matState with waves := [poisonMat, matWave 4 1] }
theorem test_Poison_fragments :
    (let g : GenW := { g0 with hdr := { h0 with typ := .f32 }, dst := .v 64, a := .v 64, b := .v 9, c := .imm 0, opx := 5 }
     Issues poisonMatState poisonMat (freezeLatches poisonMat) (.msca g)
       ∧ mscaPoison g (freezeLatches poisonMat) (fragRegs (5 % 4) 2) (shapeNK (5 % 4)).1 (lanes (~~~ poisonMat.regs.dead) 128) ≠ 0)
    ∧ poisonMat.regs.poison ≠ [] ∧ fragPoison (freezeLatches poisonMat) [(64, fragRegs 1 2)] ≠ 0
    ∧ Issues poisonMatState poisonMat (freezeLatches poisonMat) (.mstf { m0 with hdr := { h0 with typ := .f32, dsc := 2, lit := some 0x900000040 }, a := .s 32, b := .lit, c := .v 64 }) :=
  ⟨⟨issues_of (by decide +kernel), by decide +kernel⟩, by decide, by decide +kernel, issues_of (by decide +kernel)⟩

/-- Whether an access is local, free to go, and gives no poison. -/
def localOk (p : State) (v : Wave) (a : Access) (via : Via) : Bool :=
  !a.elems.isEmpty && a.elems.all (fun e => match resolve p v a.kind via (elemSize a) e.addr with | .ok (.loc _ _) => true | _ => false)
    && !locksDamaged p && openSlip v == none && !holdsBack p v (placed p v a via) && coreRoom p v.core (placed p v a via)
    && poisonLanes (perform p v.core (getCtx p v.ctx) (placed p v a via) false).2 == 0
    && (match writeGot (perform p v.core (getCtx p v.ctx) (placed p v a via) false).1 v.id (placed p v a via)
          (perform p v.core (getCtx p v.ctx) (placed p v a via) false).2 with | .ok _ => true | _ => false)

/-- Such an access is what the statements call local. -/
theorem localOk_local {p : State} {v : Wave} {a : Access} {via : Via} (h : localOk p v a via = true) : ∃ t, LocalTo p v a via t := by
  simp only [localOk, Bool.and_eq_true, Bool.not_eq_true', beq_iff_eq, List.isEmpty_eq_false_iff, List.all_eq_true] at h
  obtain ⟨⟨⟨⟨⟨⟨⟨h1, h2⟩, h3⟩, h4⟩, h5⟩, h6⟩, h8⟩, h9⟩ := h
  cases hw : writeGot (perform p v.core (getCtx p v.ctx) (placed p v a via) false).1 v.id (placed p v a via)
    (perform p v.core (getCtx p v.ctx) (placed p v a via) false).2 with
  | error e => rw [hw] at h9; cases h9
  | ok t =>
    refine ⟨t, ⟨h1, fun e he => ?_⟩, ⟨h3, h4, h5, h6⟩, h8, hw⟩
    have := h2 e he
    revert this
    cases resolve p v a.kind via (elemSize a) e.addr with
    | ok st => cases st <;> simp
    | _ => simp

/-- Memory instructions on the address in `s`: the vector forms act on the lane that mask k3 names. -/
def memCases (a : Operand) (scope : Scp) (vec : Bool) : List (Instr × MemOp) :=
  let h : Hdr := { h0 with msk := 3 }
  let m : MemW := { m0 with a := a, b := .imm 0, scope := scope }
  let x : AtomW := { t0 with hdr := { h0 with typ := .i32 }, a := a, b := .imm 0, c := .imm 1, scope := scope, aop := .add }
  let f (l : List (Instr × MemOp)) : List (Instr × MemOp) := l
  if vec then
    f [(.ld { m with hdr := h, dst := .v 20 }, ldOp { m with hdr := h, dst := .v 20 }),
       (.st { m with hdr := h, c := .v 20 }, stOp { m with hdr := h, c := .v 20 } tv),
       (.ldb { m with hdr := h, dst := .v 20 }, ldbOp { m with hdr := h, dst := .v 20 }),
       (.stb { m with hdr := h, c := .v 20 }, stbOp { m with hdr := h, c := .v 20 } tv),
       (.atom { x with hdr := { h with typ := .i32 }, c := .v 6 }, atomOp { x with hdr := { h with typ := .i32 }, c := .v 6 } .none true),
       (.atomr { x with hdr := { h with typ := .i32 }, dst := .v 20 }, atomOp { x with hdr := { h with typ := .i32 }, dst := .v 20 } (.vec 20) true),
       (.cas { m with hdr := h, dst := .v 20, c := .v 22 }, casOp { m with hdr := h, dst := .v 20, c := .v 22 })]
  else
    f [(.ld { m with dst := .s 20 }, ldOp { m with dst := .s 20 }), (.st { m with c := .s 5 }, stOp { m with c := .s 5 } tv),
       (.atom x, atomOp x .none false), (.atomr { x with dst := .s 20 }, atomOp { x with dst := .s 20 } (.sca 20) false),
       (.cas { m with dst := .s 20, c := .s 5 }, casOp { m with dst := .s 20, c := .s 5 }),
       (.ldh { m with hdr := { h0 with typ := .b64 }, dst := .h 3 }, ldhOp { m with hdr := { h0 with typ := .b64 }, dst := .h 3 }),
       (.sth { m with hdr := { h0 with typ := .b64 }, c := .h 3 }, sthOp { m with hdr := { h0 with typ := .b64 }, c := .h 3 } tv)]

/-- A wave whose k3 names its last lane alone. -/
def laneWave : Wave := { tWave with regs := { tWave.regs with k := setAt tWave.regs.k 3 (oneLane 31) } }
/-- Its state. -/
def laneState : State := { tPlain with waves := [laneWave] }
/-- The wave as an instruction finds it. -/
abbrev lv : Wave := freezeLatches laneWave

/-- LocalAccessCompletes: every form, on an address of local HBM, and of the shelf. -/
theorem test_LocalAccess_meets : ∀ q ∈ memCases (.s 32) .d true ++ memCases (.s 32) .d false ++ memCases (.s 33) .t true ++ memCases (.s 34) .w false,
    Issues laneState laneWave lv q.1 ∧ (∃ b, baseOf (putWave laneState lv) lv q.2.hdr q.2.a (kWrites q.2.kind) = some (b, .raw, none)
      ∧ ∃ t, LocalTo (putWave laneState lv) lv (accOf (putWave laneState lv) lv q.1 q.2 b .raw) .raw t) := by
  have h : (memCases (.s 32) .d true ++ memCases (.s 32) .d false ++ memCases (.s 33) .t true ++ memCases (.s 34) .w false).all (fun q =>
      issuesOk laneState laneWave lv q.1 && baseOf (putWave laneState lv) lv q.2.hdr q.2.a (kWrites q.2.kind)
          == some (scalarOp (putWave laneState lv) lv none q.2.a, .raw, none)
        && localOk (putWave laneState lv) lv (accOf (putWave laneState lv) lv q.1 q.2 (scalarOp (putWave laneState lv) lv none q.2.a) .raw) .raw) = true := by
    decide +kernel
  intro q hq
  have hq := List.all_eq_true.mp h q hq
  simp only [Bool.and_eq_true, beq_iff_eq] at hq
  exact ⟨issues_of hq.1.1, _, hq.1.2, localOk_local hq.2⟩

/-- LocalAccessCompletes: an access of no lane, under the empty mask k2. -/
theorem test_LocalAccess_empty :
    Issues tPlain tWave tv (.ld { m0 with hdr := { h0 with msk := 2 }, dst := .v 20, a := .s 32, b := .imm 0, scope := .d })
    ∧ (accOf (putWave tPlain tv) tv (.ld { m0 with hdr := { h0 with msk := 2 }, dst := .v 20, a := .s 32, b := .imm 0, scope := .d })
      (ldOp { m0 with hdr := { h0 with msk := 2 }, dst := .v 20, a := .s 32, b := .imm 0, scope := .d }) 0x1100 .raw).elems = [] :=
  ⟨issues_of (by decide +kernel), by decide +kernel⟩

/-- FailableAccessCompletes: every form on an address of a peer's page. -/
theorem test_FarAccess_meets : ∀ q ∈ memCases (.s 35) .f true ++ memCases (.s 35) .f false,
    Issues laneState laneWave lv q.1 ∧ baseOf (putWave laneState lv) lv q.2.hdr q.2.a (kWrites q.2.kind) = some (0x10000, .raw, none)
    ∧ (∀ e ∈ memElems (putWave laneState lv) lv q.1 q.2 0x10000,
      ∃ st, resolve (putWave laneState lv) lv q.2.kind .raw (tySize q.2.hdr.typ) e.addr = .ok st)
    ∧ (placed (putWave laneState lv) lv (accOf (putWave laneState lv) lv q.1 q.2 0x10000 .raw) .raw).elems.any remote = true
    ∧ mayGo (putWave laneState lv) lv (placed (putWave laneState lv) lv (accOf (putWave laneState lv) lv q.1 q.2 0x10000 .raw) .raw) q.2.mode := by
  have h : (memCases (.s 35) .f true ++ memCases (.s 35) .f false).all (fun q =>
      issuesOk laneState laneWave lv q.1 && baseOf (putWave laneState lv) lv q.2.hdr q.2.a (kWrites q.2.kind) == some (0x10000, .raw, none)
        && (memElems (putWave laneState lv) lv q.1 q.2 0x10000).all (fun e =>
          match resolve (putWave laneState lv) lv q.2.kind .raw (tySize q.2.hdr.typ) e.addr with | .ok _ => true | _ => false)
        && (placed (putWave laneState lv) lv (accOf (putWave laneState lv) lv q.1 q.2 0x10000 .raw) .raw).elems.any remote
        && (let a := placed (putWave laneState lv) lv (accOf (putWave laneState lv) lv q.1 q.2 0x10000 .raw) .raw
            !holdsBack (putWave laneState lv) lv a && coreRoom (putWave laneState lv) lv.core a
              && packetRoom (putWave laneState lv) a (getCtx (putWave laneState lv) lv.ctx).asid q.2.mode.stream && !q.2.mode.hr)) = true := by decide +kernel
  intro q hq
  have hq := List.all_eq_true.mp h q hq
  simp only [Bool.and_eq_true, beq_iff_eq, Bool.not_eq_true', List.all_eq_true] at hq
  obtain ⟨⟨⟨⟨h1, h2⟩, h3⟩, h4⟩, ⟨⟨h5, h6⟩, h8⟩, h9⟩ := hq
  refine ⟨issues_of h1, h2, fun e he => ?_, h4, ⟨by decide +kernel, by decide +kernel, h5, h6⟩, .inl rfl, by decide +kernel, h8, fun h => ?_⟩
  · have := h3 e he
    revert this
    cases resolve (putWave laneState lv) lv q.2.kind .raw (tySize q.2.hdr.typ) e.addr with
    | ok st => exact fun _ => ⟨st, rfl⟩
    | _ => simp
  · rw [h9] at h; cases h
/-! ### What the statements suppose: held stores, fragments, peers, failed checks, fences, handles -/

/-- FailableAccessCompletes, held stores: a store under HR while tag 0 is open, with a claimed slot and without, and one under a slot alone. -/
theorem test_HeldAccess_meets :
    let v := freezeLatches openWave
    let hr : MemW := { m0 with dst := .v 1, a := .s 32, b := .imm 0, c := .s 5, scope := .d }
    let hb : MemW := { m0 with hdr := { h0 with msk := 3, dsc := 7 }, dst := .v 1, a := .s 32, b := .imm 0, c := .v 20, scope := .d }
    Issues openState openWave v (.st hr) ∧ Issues openState openWave v (.st { hr with hdr := { h0 with dsc := 7 } })
    ∧ Issues openState openWave v (.st { hr with hdr := { h0 with dsc := 7 }, dst := .v 0 }) ∧ Issues openState openWave v (.stb hb)
    ∧ (stOp hr v).mode.hr = true ∧ (stOp hr v).mode.slot = none ∧ (stOp { hr with hdr := { h0 with dsc := 7 } } v).mode.slot ≠ none
    ∧ (stOp { hr with hdr := { h0 with dsc := 7 }, dst := .v 0 } v).mode.hr = false ∧ (stbOp hb v).mode.hr = true ∧ (stbOp hb v).mode.slot ≠ none
    ∧ passed v (v.hz.tag - 1) = false ∧ v.hz.held.length < 64
    ∧ localOk (putWave openState v) v (accOf (putWave openState v) v (.st hr) (stOp hr v) 0x1100 .raw) .raw = true :=
  ⟨issues_of (by decide +kernel), issues_of (by decide +kernel), issues_of (by decide +kernel), issues_of (by decide +kernel), by decide +kernel⟩

/-- FragmentAccessCompletes: descriptors of shape 1, role C of f32 and role A of bf16; every lane dead, or one alive; the last registers that fit. -/
theorem test_FragmentAccess_load :
    let v := freezeLatches (matWave 3 0)
    let m : MemW := { m0 with hdr := { h0 with typ := .bf16, lit := some 0x100000040 }, dst := .v 0, a := .s 32, b := .lit, scope := .d }
    let a : Access := { kind := .load, ty := .bf16, order := .relaxed, scope := .d, wb := .frag 0 1 0, vector := true, viaHandle := false,
                        elems := fragElems (putWave matState v) v (.mldf m) .bf16 0x100000040 0x1100 }
    Issues matState (matWave 3 0) v (.mldf m) ∧ baseOf (putWave matState v) v m.hdr m.a false = some (0x1100, .raw, none)
    ∧ fragOk v .bf16 0 0x100000040 = true ∧ fragOk v .bf16 (256 - fragRegs 1 0) 0x100000040 = true ∧ (0x1100 : W64).toNat % 2 = 0
    ∧ localOk (putWave matState v) v a .raw = true
    ∧ fragElems matState { v with regs := { v.regs with dead := maskBelow 128 } } (.mldf m) .bf16 0x100000040 0x1100 = [] :=
  ⟨issues_of (by decide +kernel), by decide +kernel⟩
theorem test_FragmentAccess_store :
    let v := freezeLatches (matWave 3 0)
    let m : MemW := { m0 with hdr := { h0 with typ := .bf16, lit := some 0x100000040 }, c := .v 0, a := .s 32, b := .lit, scope := .d }
    let a : Access := { kind := .store, ty := .bf16, order := .relaxed, scope := .d, wb := .none, vector := true, viaHandle := false,
                        elems := fragElems (putWave matState v) v (.mstf m) .bf16 0x100000040 0x1100 }
    Issues matState (matWave 3 0) v (.mstf m) ∧ Issues matState (matWave 3 0) v (.mstf { m with hdr := { m.hdr with dsc := 1 } })
    ∧ baseOf (putWave matState v) v m.hdr m.a true = some (0x1100, .raw, none) ∧ localOk (putWave matState v) v a .raw = true
    ∧ lazyOf v (.mstf { m with hdr := { m.hdr with dsc := 1 } }) (fragRegs 1 0) (.v 0) ≠ none :=
  ⟨issues_of (by decide +kernel), issues_of (by decide +kernel), by decide +kernel⟩

/-- The accesses to a named peer on the lane that mask k3 names, and in the scalar form. -/
def peerCases : List (Instr × PeerOp) :=
  let r : RemW := { r0 with hdr := { h0 with msk := 3 }, dst := .v 6, a := .s 38, b := .s 32, c := .v 2, scope := .f }
  let x : AtomW := { t0 with hdr := { h0 with typ := .i32, msk := 3 }, dst := .v 6, a := .s 38, b := .s 32, c := .v 2, scope := .f, aop := .add }
  let q : RemW := { r0 with dst := .s 6, a := .s 38, b := .s 32, c := .imm 0, scope := .s }
  [(.pld r, remOp r .load (.vec 6) true {}), (.pld q, remOp q .load (.sca 6) false {}),
   (.pst r, remOp r .store .none true {}), (.pst q, remOp q .store .none false {}),
   (.psts { r with stream := 63 }, remOp { r with stream := 63 } .store .none true { stream := some 63 }),
   (.patom x, patomOp x .none true), (.patomr x, patomOp x (.vec 6) true)]

/-- PeerAccessCompletes: no check fails, and the access may go. -/
theorem test_PeerAccess_meets : peerCases.all (fun q =>
    issuesOk laneState laneWave lv q.1 && (peerTrap q.2 (peerElems (putWave laneState lv) lv q.1 q.2)).isNone
      && !(peerElems (putWave laneState lv) lv q.1 q.2).isEmpty
      && (let a : Access := { kind := q.2.kind, ty := q.2.hdr.typ, order := q.2.order, scope := q.2.scope, wb := q.2.wb, vector := q.2.vec, viaHandle := false,
                              elems := (peerElems (putWave laneState lv) lv q.1 q.2).map (·.1) }
          !locksDamaged (putWave laneState lv) && openSlip lv == none && !holdsBack (putWave laneState lv) lv a && coreRoom (putWave laneState lv) lv.core a
            && packetRoom (putWave laneState lv) a (getCtx (putWave laneState lv) lv.ctx).asid q.2.mode.stream && !q.2.mode.hr)) = true := by decide +kernel
theorem test_PeerAccess_empty :
    Issues tPlain tWave tv (.pld { r0 with hdr := { h0 with msk := 2 }, dst := .v 6, a := .s 38, b := .s 32, c := .v 2, scope := .f })
    ∧ peerElems (putWave tPlain tv) tv (.pld { r0 with hdr := { h0 with msk := 2 }, dst := .v 6, a := .s 38, b := .s 32, c := .v 2, scope := .f })
      (remOp { r0 with hdr := { h0 with msk := 2 }, dst := .v 6, a := .s 38, b := .s 32, c := .v 2, scope := .f } .load (.vec 6) true {}) = [] :=
  ⟨issues_of (by decide +kernel), by decide +kernel⟩

/-- AccessCheckTraps: every form at an address that is not aligned, and at one that is not mapped. -/
theorem test_AccessCheck_meets :
    (memCases (.s 37) .d true ++ memCases (.s 37) .d false).all (fun q => issuesOk laneState laneWave lv q.1
      && minRank ((accOf (putWave laneState lv) lv q.1 q.2 0x1101 .raw).elems.map (fun e =>
        (e, resolve (putWave laneState lv) lv q.2.kind .raw (tySize q.2.hdr.typ) e.addr))) == some 10) = true
    ∧ (memCases (.s 36) .d true ++ memCases (.s 36) .d false).all (fun q => issuesOk laneState laneWave lv q.1
      && minRank ((accOf (putWave laneState lv) lv q.1 q.2 0x9000 .raw).elems.map (fun e =>
        (e, resolve (putWave laneState lv) lv q.2.kind .raw (tySize q.2.hdr.typ) e.addr))) == some 50) = true
    ∧ lv.hz.handler = false ∧ locksDamaged laneState = false := by decide +kernel

/-- A wave whose unresolved slip is that of a store. -/
def fencedWave : Wave := { openWave with hz := { openWave.hz with slips := [{ openSlip0 with fenced := true }] } }

/-- FenceAndPrefetchComplete: nothing to wait for; a held store; a store over a link, for which the wide scopes alone wait. -/
theorem test_Fence_meets :
    Issues tPlain tWave tv (.fence { m0 with dst := .s 20, scope := .f }) ∧ Issues tPlain tWave tv (.fence { m0 with dst := .s 20, scope := .d })
    ∧ tv.hz.held = [] ∧ tv.hz.lazies = [] ∧ (∀ x ∈ tv.hz.slips, x.fenced = true → x.ended = true)
    ∧ Issues { tPlain with waves := [heldStoreWave] } heldStoreWave (freezeLatches heldStoreWave) (.fence { m0 with dst := .s 20, scope := .w })
    ∧ (freezeLatches heldStoreWave).hz.held ≠ []
    ∧ Issues { tPlain with waves := [fencedWave] } fencedWave (freezeLatches fencedWave) (.fence { m0 with dst := .s 20, scope := .s })
    ∧ ¬ (∀ x ∈ (freezeLatches fencedWave).hz.slips, x.fenced = true → x.ended = true) :=
  ⟨issues_of (by decide +kernel), issues_of (by decide +kernel), rfl, rfl, by decide +kernel, issues_of (by decide +kernel), by decide +kernel,
    issues_of (by decide +kernel), by decide +kernel⟩
/-- FenceAndPrefetchComplete: a failable held store that has been sent and is not performed. -/
theorem test_Fence_held :
    let w : Wave := { openWave with hz := { openWave.hz with slips := [{ openSlip0 with hr := true }] } }
    Issues { tPlain with waves := [w] } w (freezeLatches w) (.fence { m0 with dst := .s 20, scope := .w })
    ∧ ¬ (∀ x ∈ (freezeLatches w).hz.slips, x.hr = true → x.ended = true) := ⟨issues_of (by decide +kernel), by decide +kernel⟩

/-- A heap whose one catalogue entry is that of an object at 0x1100 with one pin; h3 is its handle. -/
def heapWave : Wave := { tWave with regs := { tWave.regs with h := setAt tWave.regs.h 3 (some { heap := 0, col := 0, base := 0x1100, moving := false }) } }
/-- Its state, with the descriptor at 0x1400, the catalogue at 0x1800, and at 0x1A00 the counts of the pages, `n` of the first. -/
def heapState (pins : Nat) (n : Nat := 1) : State :=
  { tState id id (fun c => { c with heapt := 0x1400 }) with
    waves := [heapWave],
    hbm := memPuts (memPuts (memPuts [] 0xA00 (natToBytes 2 n)) 0x400 (natToBytes 8 0x1000 ++ natToBytes 8 0x1000 ++ natToBytes 8 0x1800 ++ natToBytes 4 1 ++ [0, 1, 0, 0] ++ natToBytes 8 0x1A00))
      0x800 (natToBytes 8 0x1100 ++ natToBytes 8 0 ++ natToBytes 4 64 ++ natToBytes 2 pins ++ [1, 0]) }
/-- Its context. -/
def heapCtx : Ctx := { tCtx with heapt := 0x1400 }

/-- HandleInstructionsComplete: each form of HMOV; pins from 65,534, and the last one given back. -/
theorem test_Handles_meets :
    let v := freezeLatches heapWave
    Issues (heapState 1) heapWave v (.hmov { g0 with dst := .h 5, a := .h 3 }) ∧ Issues (heapState 1) heapWave v (.hmov { g0 with dst := .s 5, a := .h 3, opx := 1 })
    ∧ Issues (heapState 1) heapWave v (.hmov { g0 with hdr := { h0 with lit := some 0x1100 }, dst := .h 5, a := .lit, opx := 2 })
    ∧ (resolveRef (heapState 1) v 0x1100).isSome = true ∧ (resolveRef (heapState 1) v 0).isSome = true
    ∧ Issues (heapState 65534) heapWave v (.pin { g0 with dst := .s 22, a := .h 3 }) ∧ Issues (heapState 1) heapWave v (.unpin { g0 with a := .h 3 })
    ∧ hreg v 3 = some { heap := 0, col := 0, base := 0x1100, moving := false }
    ∧ useHandle (heapState 65534) v (hreg v 3) true = .base 0x1100 0x1000 0x1FFF none ∧ useHandle (heapState 1) v (hreg v 3) false = .base 0x1100 0x1000 0x1FFF none
    ∧ (∃ d, heapDesc (heapState 65534) heapCtx 0 = some d ∧ catLookup (heapState 65534) heapCtx d 0x1100
      = some { addr := 0x1800, old := 0x1100, new := 0, size := 64, pins := 65534, st := 1, mcol := 0 })
    ∧ (∃ d, heapDesc (heapState 1) heapCtx 0 = some d ∧ catLookup (heapState 1) heapCtx d 0x1100
      = some { addr := 0x1800, old := 0x1100, new := 0, size := 64, pins := 1, st := 1, mcol := 0 }) :=
  ⟨issues_of (by decide +kernel), issues_of (by decide +kernel), issues_of (by decide +kernel), by decide +kernel, by decide +kernel,
    issues_of (by decide +kernel), issues_of (by decide +kernel), by decide +kernel, by decide +kernel, by decide +kernel,
    ⟨{ rbase := 0x1000, rsize := 0x1000, cbase := 0x1800, cent := 1, colour := 0, pmap := 0x1A00 }, by decide +kernel⟩,
    ⟨{ rbase := 0x1000, rsize := 0x1000, cbase := 0x1800, cent := 1, colour := 0, pmap := 0x1A00 }, by decide +kernel⟩⟩
/-- HandleInstructionsComplete: a page count and a pin count from which one can be taken, and none; a page count that is full. -/
theorem test_Handles_counts :
    let v := freezeLatches heapWave
    let d : HeapDesc := { rbase := 0x1000, rsize := 0x1000, cbase := 0x1800, cent := 1, colour := 0, pmap := 0x1A00 }
    heapDesc (heapState 0) heapCtx 0 = some d ∧ pageEmpty (heapState 1) heapCtx d (objPages 0x1100 64) = false
    ∧ pageEmpty (heapState 1 0) heapCtx d (objPages 0x1100 64) = true ∧ pageFull (heapState 1) heapCtx d (objPages 0x1100 64) = false
    ∧ pageFull (heapState 1 65535) heapCtx d (objPages 0x1100 64) = true
    ∧ catLookup (heapState 0) heapCtx d 0x1100 = some { addr := 0x1800, old := 0x1100, new := 0, size := 64, pins := 0, st := 1, mcol := 0 }
    ∧ Issues (heapState 0) heapWave v (.unpin { g0 with a := .h 3 }) ∧ Issues (heapState 1 0) heapWave v (.unpin { g0 with a := .h 3 })
    ∧ Issues (heapState 1 65535) heapWave v (.pin { g0 with dst := .s 22, a := .h 3 })
    ∧ useHandle (heapState 0) v (hreg v 3) false = .base 0x1100 0x1000 0x1FFF none :=
  ⟨by decide +kernel, by decide +kernel, by decide +kernel, by decide +kernel, by decide +kernel, by decide +kernel, issues_of (by decide +kernel),
    issues_of (by decide +kernel), issues_of (by decide +kernel), by decide +kernel⟩
/-! ### What the statements suppose: the network, engines, counters, tasks -/

/-- A descriptor of a message of `len` bytes at 0x1800 on connection 0, with the atomic's operation and type. -/
def netBytes (len aop typ : Nat) : List Byte :=
  natToBytes 16 0 ++ natToBytes 8 0x1800 ++ natToBytes 4 len ++ [BitVec.ofNat 8 aop, BitVec.ofNat 8 typ] ++ List.replicate 34 0

/-- A state with that descriptor at 0x1100, connection 0 alive and of ASID 5 in host memory, and window 0 of that ASID at the base of the
window table. -/
def netState (len aop typ : Nat) : State :=
  { tPlain with hbm := memPuts (memPuts [] 0x10 [5, 0, 0, 0, 0xFF, 0xFF, 0, 1]) 0x100 (netBytes len aop typ), host := memPuts [] 0 [5, 0, 1] }

/-- NetworkOperationsComplete: the messages, at the greatest length that stays in mapped pages; NFLUSH of the live connection 0, of
connection 1, and of 2^20, which is none; WREV of window 0 and of 65,536, which is none. -/
theorem test_Network_meets :
    Issues (netState 0x2800 0 0) tWave tv (.nput { g0 with a := .s 32 }) ∧ Issues (netState 0x2800 0 0) tWave tv (.nget { g0 with a := .s 32 })
    ∧ Issues (netState 4 0 1) tWave tv (.natom { g0 with a := .s 32 })
    ∧ anyRecAt (putWave (netState 0x2800 0 0) tv) tv 0x1100 64 8 = .ok (netBytes 0x2800 0 0) ∧ netDescOk .put (netBytes 0x2800 0 0) = true
    ∧ netDescOk .get (netBytes 0x2800 0 0) = true ∧ netDescOk .atom (netBytes 4 0 1) = true
    ∧ rangeBad (putWave (netState 0x2800 0 0) tv) tCtx true 16 0x1800 0x2800 = none
    ∧ connAlive (netState 4 0 1) 0 = true ∧ connAsid (netState 4 0 1) 0 = tCtx.asid ∧ tv.hz.slips.length < 128 :=
  ⟨issues_of (by decide +kernel), issues_of (by decide +kernel), issues_of (by decide +kernel), by decide +kernel⟩
theorem test_Network_flush :
    Issues (netState 4 0 1) tWave tv (.nflush { g0 with a := .imm 0 }) ∧ Issues (netState 4 0 1) tWave tv (.nflush { g0 with a := .imm 1 })
    ∧ connAlive (netState 4 0 1) 1 = false ∧ Issues (netState 4 0 1) tWave tv (.nflush { g0 with hdr := { h0 with lit := some 0x100000 }, a := .lit })
    ∧ Issues (netState 4 0 1) tWave tv (.wrev { g0 with dst := .s 3, a := .imm 0 })
    ∧ (readNat (netState 4 0 1) .hbm 0x17 1 % 2 = 1 ∧ readNat (netState 4 0 1) .hbm 0x10 2 = tCtx.asid ∧ readNat (netState 4 0 1) .hbm 0x14 2 = 0xFFFF)
    ∧ Issues (netState 4 0 1) tWave tv (.wrev { g0 with hdr := { h0 with lit := some 0x10000 }, dst := .s 3, a := .lit }) :=
  ⟨issues_of (by decide +kernel), issues_of (by decide +kernel), by decide +kernel, issues_of (by decide +kernel), issues_of (by decide +kernel),
    by decide +kernel, issues_of (by decide +kernel)⟩

/-- A record of rank 1. -/
def recBytes (ty base dim box : Nat) : List Byte :=
  [1, BitVec.ofNat 8 ty, 0, 0, 0, 0, 0, 0] ++ natToBytes 8 base ++ natToBytes 20 dim ++ natToBytes 16 0 ++ natToBytes 12 box
/-- What it is read as, for a type of four bytes. -/
def recOf (t : Ty) (base : W64) (dim box : Nat) : Layout := { rank := 1, ty := t, base := base, dim := [dim], stride := [4], box := [box] }

/-- A chain command of four elements: one addition of two sources. -/
def chainBytes : List Byte :=
  natToBytes 8 0x1600 ++ natToBytes 8 0x1640 ++ natToBytes 8 0x1700 ++ natToBytes 4 4 ++ [3, 3, 3, 1] ++ natToBytes 32 0

/-- A state with a record at 0x1100, 0x1200 and 0x3000. -/
def recState (a b c : List Byte) : State := { tPlain with hbm := memPuts (memPuts (memPuts [] 0x100 a) 0x200 b) 0x2000 c }

/-- A copy of 16 words. -/
def copyState : State := recState (recBytes 2 0x1600 16 16) (recBytes 2 0x1700 16 16) []
/-- A gather of 4 rows of one word. -/
def gatherState : State := recState (recBytes 2 0x1600 16 1) (recBytes 2 0x1700 16 4) (recBytes 2 0x1500 4 4)
/-- The operands of COPY without an index record, and with one. -/
def copyW (indexed : Bool) : GenW :=
  if indexed then { g0 with dst := .s 39, a := .s 40, b := .s 32, c := .imm 0 } else { g0 with dst := .s 39, a := .s 32, b := .imm 0, c := .imm 0 }

/-- Whether the ranges of an operation are good and it has room. -/
def rangesOk (p : State) (v : Wave) (kind : EngKind) (rs : List (Except Out Range)) : Bool :=
  match allRanges rs with | .ok l => engRoom p v kind l | .error _ => false

/-- EngineOperationsComplete, COPY. -/
theorem test_Copy_meets :
    Issues copyState tWave tv (.copy (copyW false)) ∧ CopyRecords (putWave copyState tv) tv (copyW false) (recOf .n32 0x1600 16 16) none (recOf .n32 0x1700 16 16)
    ∧ copyOk (recOf .n32 0x1600 16 16) none (recOf .n32 0x1700 16 16) = true ∧ layoutSkew (recOf .n32 0x1600 16 16) = false
    ∧ layoutSkew (recOf .n32 0x1700 16 16) = false
    ∧ rangesOk (putWave copyState tv) tv (.copy (recOf .n32 0x1600 16 16) none (recOf .n32 0x1700 16 16))
      [recRange (putWave copyState tv) tv (recOf .n32 0x1600 16 16) false, recRange (putWave copyState tv) tv (recOf .n32 0x1700 16 16) true] = true :=
  ⟨issues_of (by decide +kernel),
    ⟨⟨recBytes 2 0x1700 16 16, by decide +kernel, by decide +kernel⟩, .inl ⟨by decide +kernel, rfl, recBytes 2 0x1600 16 16, by decide +kernel, by decide +kernel⟩⟩,
    by decide +kernel, by decide +kernel, by decide +kernel, by decide +kernel⟩
theorem test_Gather_meets :
    Issues gatherState tWave tv (.copy (copyW true))
    ∧ CopyRecords (putWave gatherState tv) tv (copyW true) (recOf .n32 0x1600 16 1) (some (recOf .n32 0x1500 4 4)) (recOf .n32 0x1700 16 4)
    ∧ copyOk (recOf .n32 0x1600 16 1) (some (recOf .n32 0x1500 4 4)) (recOf .n32 0x1700 16 4) = true ∧ layoutSkew (recOf .n32 0x1500 4 4) = false
    ∧ rangesOk (putWave gatherState tv) tv (.copy (recOf .n32 0x1600 16 1) (some (recOf .n32 0x1500 4 4)) (recOf .n32 0x1700 16 4))
      [recRange (putWave gatherState tv) tv (recOf .n32 0x1500 4 4) false, recRange (putWave gatherState tv) tv (recOf .n32 0x1700 16 4) true] = true :=
  ⟨issues_of (by decide +kernel),
    ⟨⟨recBytes 2 0x1700 16 4, by decide +kernel, by decide +kernel⟩,
      .inr ⟨by decide +kernel, recBytes 2 0x1500 4 4, recBytes 2 0x1600 16 1, _, rfl, by decide +kernel, by decide +kernel, by decide +kernel, by decide +kernel⟩⟩,
    by decide +kernel, by decide +kernel, by decide +kernel⟩

/-- EngineOperationsComplete, COPYM: 64 bytes to the end of the shelf of the team of rank 0; and CHAIN. -/
theorem test_Copym_meets :
    let g : GenW := { g0 with hdr := { h0 with lit := some 4032 }, dst := .lit, a := .s 32, b := .imm 1, c := .imm 0, opx := 16 }
    Issues copyState tWave tv (.copym g) ∧ recAt (putWave copyState tv) tv 0x1100 64 8 = .ok (recBytes 2 0x1600 16 16)
    ∧ layoutOf (recBytes 2 0x1600 16 16) = some (recOf .n32 0x1600 16 16) ∧ (maskTeams (putWave copyState tv) tv 1).map (·.2.id) = [2]
    ∧ 4032 + boxCount (recOf .n32 0x1600 16 16) * tySize .n32 = tTeam.shelfSize
    ∧ rangesOk (putWave copyState tv) tv (.multi (recOf .n32 0x1600 16 16) 4032 [2] none)
      [recRange (putWave copyState tv) tv (recOf .n32 0x1600 16 16) false, .ok (LockKey.shelf 2, 4032, 4096, true)] = true :=
  ⟨issues_of (by decide +kernel), by decide +kernel⟩
theorem test_Chain_meets :
    Issues (recState chainBytes [] []) tWave tv (.chain { g0 with a := .s 32, c := .imm 0 })
    ∧ recAt (putWave (recState chainBytes [] []) tv) tv 0x1100 64 8 = .ok chainBytes
    ∧ ∃ c, chainDesc chainBytes = some c ∧ c.count = 4 ∧ (∀ q ∈ chainStreams c, q.1.toNat % tySize q.2.1 = 0)
      ∧ rangesOk (putWave (recState chainBytes [] []) tv) tv (.chain c)
        ((chainStreams c).map (fun q => streamRange (putWave (recState chainBytes [] []) tv) tv q.1 q.2.1 c.count q.2.2)) = true :=
  ⟨issues_of (by decide +kernel), by decide +kernel,
    { src0 := 0x1600, src1 := 0x1640, dst := 0x1700, count := 4, t0 := .f32, t1 := .f32, td := .f32, ops := [(0, 0)], k0 := 0, k1 := 0 }, by decide +kernel⟩

/-- A wave whose batch 1 is closed and has an operation live. -/
def batchWave : Wave :=
  { tWave with batchNo := 1, batches := [{ num := 1, live := [8], failed := false, aborted := false }, { num := 2, live := [], failed := false, aborted := false }] }
/-- Its state. -/
def batchState : State := { tPlain with waves := [batchWave] }

/-- BatchesAndCountersComplete: WAITB with nothing live, and with an operation live; CADD on the device and on a peer. -/
theorem test_Batches_meets :
    Issues tPlain tWave tv (.close { g0 with dst := .s 18 }) ∧ Issues tPlain tWave tv (.waitb { g0 with dst := .s 19, a := .imm 0 }) ∧ waitBatches tv 0 = []
    ∧ Issues batchState batchWave (freezeLatches batchWave) (.waitb { g0 with dst := .s 19, a := .imm 1 })
    ∧ (waitBatches (freezeLatches batchWave) 1).map (·.live) = [[8]]
    ∧ Issues tPlain tWave tv (.cadd { g0 with hdr := { h0 with typ := .n64 }, a := .s 32, b := .imm 1, opx := 3 })
    ∧ localOk (putWave tPlain tv) tv (caddAccess (putWave tPlain tv) tv { g0 with hdr := { h0 with typ := .n64 }, a := .s 32, b := .imm 1, opx := 3 }) .raw = true
    ∧ Issues tPlain tWave tv (.cadd { g0 with hdr := { h0 with typ := .n64 }, a := .s 35, b := .imm 1, opx := 4 })
    ∧ resolve (putWave tPlain tv) tv (.atom .add) .raw 8 0x10000 = .ok (.peer 7)
    ∧ (let a := placed (putWave tPlain tv) tv (caddAccess (putWave tPlain tv) tv { g0 with hdr := { h0 with typ := .n64 }, a := .s 35, b := .imm 1, opx := 4 }) .raw
       a.elems.any remote = true ∧ mayGo (putWave tPlain tv) tv a {}) :=
  ⟨issues_of (by decide +kernel), issues_of (by decide +kernel), rfl, issues_of (by decide +kernel), by decide +kernel, issues_of (by decide +kernel),
    by decide +kernel, issues_of (by decide +kernel), by decide +kernel, by unfold mayGo freeToGo; decide +kernel⟩

/-- The TRYW of the tests, on the counter at 0x1100, with its word and literal slot. -/
def trywW (target : BitVec 8) : GenW := { g0 with hdr := { h0 with typ := .n64 }, a := .s 32, b := .imm target, c := .imm 4 }
/-- A wave that waits in a TRYW for target 1, up to cycle `l`, and has read its counter once. -/
def trywWave (l : Nat) : Wave := { tWave with ctl := { tWave.ctl with wait := .tryw 1 l (some 0), st := .suspended } }
/-- A state in which its line is cached, with the counter at 1. -/
def trywState (l : Nat) : State :=
  { tPlain with waves := [trywWave l], hbm := [(0x100, 1)],
                icache := [{ core := 0, asid := 5, base := 0x1000, size := 12, addr := 0x1000, bytes := lineFor 0xA18007000000906038200000 }] }

/-- BatchesAndCountersComplete, TRYW: the target reached; not reached, with the limit 0 and the limit 4. -/
theorem test_Tryw_meets :
    Issues tPlain tWave tv (.tryw (trywW 0)) ∧ Issues tPlain tWave tv (.tryw (trywW 1)) ∧ Issues tPlain tWave tv (.tryw { trywW 1 with c := .imm 0 })
    ∧ Issues tPlain tWave tv (.tryw { trywW 1 with hdr := { h0 with typ := .n64, lit := some 4096 }, c := .lit })
    ∧ placeAt (putWave tPlain tv) tv .load 8 0x1100 = .ok (.loc .hbm 0x100) ∧ readNat (putWave tPlain tv) .hbm 0x100 8 = 0
    ∧ isPoison (putWave tPlain tv) .hbm 0x100 = false :=
  ⟨issues_of (by decide +kernel), issues_of (by decide +kernel), issues_of (by decide +kernel), issues_of (by decide +kernel), by decide +kernel⟩
theorem test_Tryw_waits : (∀ a b c, tv.ctl.wait ≠ .tryw a b c)
    ∧ findWave (trywState 4000) (trywWave 4000).id = some (trywWave 4000) ∧ killDue (trywState 4000) (trywWave 4000) = false
    ∧ insAt (trywState 4000) (trywWave 4000) (trywWave 4000).ctl.pc = some (.tryw (trywW 1)) ∧ (trywState 4000).clk = 4000
    ∧ placeAt (trywState 4000) (trywWave 4000) .load 8 0x1100 = .ok (.loc .hbm 0x100) ∧ readNat (trywState 4000) .hbm 0x100 8 = 1 :=
  ⟨nofun, by decide +kernel⟩
/-- BatchesAndCountersComplete, TRYW: no link refuses the read, and it is not shut out. -/
theorem test_Tryw_goes :
    placeAt (forgetReads (putWave tPlain tv) 3) tv .load 8 0x1100 .acquire = .ok (.loc .hbm 0x100)
    ∧ linkRefuses (forgetReads (putWave tPlain tv) 3) .hbm 0x100 8 = false ∧ forbidden (forgetReads (putWave tPlain tv) 3) tv.core .hbm 0x100 = false
    ∧ placeAt (trywState 4000) (trywWave 4000) .load 8 0x1100 .acquire = .ok (.loc .hbm 0x100) ∧ linkRefuses (trywState 4000) .hbm 0x100 8 = false
    ∧ forbidden (trywState 4000) (trywWave 4000).core .hbm 0x100 = false := by decide +kernel
/-! ### What the statements suppose: tasks, barriers, registers, waits, slices, issue, traps -/

/-- A task of one wave with its entry at 0x2000. -/
def taskBytes : List Byte := natToBytes 8 0x2000 ++ natToBytes 8 0 ++ [32, 0, 8, 0] ++ natToBytes 4 0 ++ [1, 0] ++ natToBytes 166 0
/-- Its descriptor. -/
def tTask : TaskDesc := { entry := 0x2000, scope := 0, width := 32, regs := 8, shelf := 0, lanes := 1, args := List.replicate 16 0 }
/-- A scope of a depth. -/
def scopeAt (depth : Nat) (cancelled : Bool) : ScopeRec :=
  { slot := 0, gen := 1, parent := none, depth := depth, counter := 0, cancelled := cancelled, quiesced := false, opener := none, grid := none }
/-- A wave under scope 0x10000. -/
def scopeWave : Wave := { tWave with scope := 0x10000 }
/-- Its state, with the task's descriptor at 0x1100. -/
def scopeState (depth : Nat) (cancelled : Bool) : State :=
  { tState id id (fun c => { c with scopes := [scopeAt depth cancelled] }) with waves := [scopeWave], hbm := memPuts [] 0x100 taskBytes }

/-- TasksAndScopesComplete, SPAWN: into the root scope, which takes it, and of a wave whose scope is none. -/
theorem test_Spawn_meets :
    let v := freezeLatches scopeWave
    Issues (scopeState 1 false) scopeWave v (.spawn { g0 with dst := .s 20, a := .s 32 })
    ∧ recAt (putWave (scopeState 1 false) v) v 0x1100 64 24 = .ok taskBytes ∧ taskDesc taskBytes = some tTask
    ∧ spawnStatus (putWave (scopeState 1 false) v) v tTask v.scope = 0 ∧ v.hz.slips.length < 128
    ∧ Issues { scopeState 1 false with waves := [tWave] } tWave tv (.spawn { g0 with dst := .s 20, a := .s 32 })
    ∧ spawnStatus (scopeState 1 false) tv tTask 0 = 5 :=
  ⟨issues_of (by decide +kernel), by decide +kernel, by decide +kernel, by decide +kernel, by decide, issues_of (by decide +kernel), by decide +kernel⟩

/-- A context with every scope slot taken. -/
def fullCtx : Ctx := { tCtx with scopes := List.replicate 65536 (scopeAt 1 false) }
theorem fullCtx_slots : freeScope fullCtx = none := by
  simp only [freeScope, fullCtx, List.length_replicate]; rfl
theorem fullCtx_scope : scopeCancelled fullCtx 0 = false := by
  have : findScope fullCtx 0 = none := by simp [findScope]
  simp only [scopeCancelled, this]

/-- TasksAndScopesComplete, CSCOPE: under depth 15 and 16, and with no slot free; CANCEL of no scope, of a cancelled one, of a live one. -/
theorem test_Scopes_meet :
    let v := freezeLatches scopeWave
    Issues (scopeState 15 false) scopeWave v (.cscope { g0 with dst := .s 26, a := .imm 0 }) ∧ freeScope (getCtx (scopeState 15 false) 1) = some 1
    ∧ Issues (scopeState 16 false) scopeWave v (.cscope { g0 with dst := .s 26, a := .imm 0 }) ∧ (scopeAt 16 false).depth + 1 = 17
    ∧ findScope (getCtx (scopeState 16 false) 1) v.scope = some (scopeAt 16 false) ∧ (0x1100 : W64).toNat % 8 = 0
    ∧ Issues (scopeState 1 false) scopeWave v (.cancel { g0 with dst := .s 27, a := .s 0 }) ∧ findScope (getCtx (scopeState 1 false) 1) 0 = none
    ∧ Issues (scopeState 1 false) scopeWave v (.cancel { g0 with hdr := { h0 with lit := some 0x10000 }, dst := .s 27, a := .lit })
    ∧ findScope (getCtx (scopeState 1 false) 1) 0x10000 = some (scopeAt 1 false)
    ∧ Issues { scopeState 1 true with waves := [tWave] } tWave tv (.cancel { g0 with hdr := { h0 with lit := some 0x10000 }, dst := .s 27, a := .lit })
    ∧ findScope (getCtx (scopeState 1 true) 1) 0x10000 = some (scopeAt 1 true) :=
  ⟨issues_of (by decide +kernel), by decide +kernel, issues_of (by decide +kernel), rfl, by decide +kernel, rfl, issues_of (by decide +kernel), by decide +kernel,
    issues_of (by decide +kernel), by decide +kernel, issues_of (by decide +kernel), by decide +kernel⟩
theorem test_Scopes_full : Issues { tPlain with ctxs := [fullCtx] } tWave tv (.cscope { g0 with dst := .s 26, a := .imm 0 }) ∧ freeScope fullCtx = none :=
  ⟨{ cur := by decide +kernel, found := by decide +kernel, live := by decide +kernel, check := by decide +kernel, slots := by decide +kernel,
     guard := by decide +kernel, alive := fullCtx_scope, twin := by decide +kernel, lock := by decide +kernel, pops := rfl }, fullCtx_slots⟩

/-- A task that waits to be accepted, with its entry at an address. -/
def pendTask (pc : W64) : Task :=
  { id := 8, ctx := 1, cluster := 0, scope := 0x10000, kernel := { tKernel with exec := pc }, cnt := 8, shelf := 0, depth := 1, prio := 0, wave := 3, tag := 0,
    accepted := false, order := 0, since := 0 }

/-- TasksAndScopesComplete, TASK_ACCEPT: an entry in a page that has X, and one that is not mapped. -/
theorem test_TaskAccept_meets :
    ({ tPlain with tasks := [pendTask 0x2000] } : State).tasks.find? (fun x => x.id == 8) = some (pendTask 0x2000) ∧ (pendTask 0x2000).accepted = false
    ∧ entryCause { tPlain with tasks := [pendTask 0x2000] } tCtx 0x2000 = none ∧ entryCause { tPlain with tasks := [pendTask 0x9000] } tCtx 0x9000 = some 0x09 := by
  decide +kernel

/-- A state whose team has barriers of two waves, in which wave 3 has arrived at barrier 1. -/
def barState : State :=
  tState id (fun t => { t with bars := (newBarrier 2 :: ({ newBarrier 2 with arrived := 1 } : Barrier) :: List.replicate 14 (newBarrier 2)) }) id
/-- A wave that arrived at barrier 0 in phase `p`. -/
def arrivedWave (p : W32) : Wave := { tWave with ctl := { tWave.ctl with barPhase := setAt tWave.ctl.barPhase 0 (some p) } }
/-- Its state. -/
def arrivedState (p : W32) : State := { barState with waves := [arrivedWave p] }

/-- BarriersComplete: barrier 15 with 65,535 landings; one where the wave has arrived; 16; 65,536 landings; a phase that completes and one
that does not; BARW before an arrival, after the phase, and in it. -/
theorem test_Barriers_meet :
    Issues barState tWave tv (.bara { g0 with hdr := { h0 with lit := some 0xFFFF }, a := .imm 15, b := .lit }) ∧ (barOf barState tv 15).arrived &&& waveBit tv.idx = 0
    ∧ Issues barState tWave tv (.bara { g0 with a := .imm 1, b := .imm 0 }) ∧ (barOf barState tv 1).arrived &&& waveBit tv.idx ≠ 0
    ∧ Issues barState tWave tv (.bara { g0 with a := .imm 16, b := .imm 0 })
    ∧ Issues barState tWave tv (.bara { g0 with hdr := { h0 with lit := some 0x10000 }, a := .imm 0, b := .lit })
    ∧ Issues tPlain tWave tv (.bars { g0 with a := .imm 0, b := .imm 0 })
    ∧ (barOf (arrive (putWave tPlain tv) tv 0 0) tv 0).phase ≠ (barOf tPlain tv 0).phase
    ∧ Issues barState tWave tv (.bars { g0 with a := .imm 0, b := .imm 0 })
    ∧ (barOf (arrive (putWave barState tv) tv 0 0) tv 0).phase = (barOf barState tv 0).phase :=
  ⟨issues_of (by decide +kernel), by decide +kernel, issues_of (by decide +kernel), by decide +kernel, issues_of (by decide +kernel), issues_of (by decide +kernel),
    issues_of (by decide +kernel), by decide +kernel, issues_of (by decide +kernel), by decide +kernel⟩
theorem test_Barw_meets :
    Issues barState tWave tv (.barw { g0 with a := .imm 15 }) ∧ (tv.ctl.barPhase[15]?).getD none = none
    ∧ Issues (arrivedState 9) (arrivedWave 9) (freezeLatches (arrivedWave 9)) (.barw { g0 with a := .imm 0 })
    ∧ ((freezeLatches (arrivedWave 9)).ctl.barPhase[0]?).getD none = some 9 ∧ (barOf (arrivedState 9) (freezeLatches (arrivedWave 9)) 0).phase = 0
    ∧ Issues (arrivedState 0) (arrivedWave 0) (freezeLatches (arrivedWave 0)) (.barw { g0 with a := .imm 0 })
    ∧ (getTeam barState tv.team).bars[15]? = some (newBarrier 2) ∧ barState.teams.find? (fun t => t.id == tv.team) = some (getTeam barState tv.team) :=
  ⟨issues_of (by decide +kernel), by decide +kernel, issues_of (by decide +kernel), by decide +kernel, by decide +kernel, issues_of (by decide +kernel),
    by decide +kernel, by decide +kernel⟩
/-- BarriersComplete: BARS and BARW of barrier 16, and 65,536 landings at BARS. -/
theorem test_Barriers_trap :
    Issues barState tWave tv (.bars { g0 with a := .imm 16, b := .imm 0 }) ∧ Issues barState tWave tv (.barw { g0 with a := .imm 16 })
    ∧ Issues barState tWave tv (.bars { g0 with hdr := { h0 with lit := some 0x10000 }, a := .imm 0, b := .lit })
    ∧ (0x10000 : W64).toNat = 2 ^ 16 ∧ releaseWaits (putWave barState tv) tv = false :=
  ⟨issues_of (by decide +kernel), issues_of (by decide +kernel), issues_of (by decide +kernel), by decide +kernel, by decide +kernel⟩

/-- A wave of 192 registers, of which the last is still to be read. -/
def poolWave : Wave :=
  { tWave with regs := { tWave.regs with cnt := 192, v := List.replicate 192 (List.replicate 32 0) },
               hz := { tWave.hz with lazies := [{ slot := 1, ins := .nop g0, oldV := [(191, [])], oldS := [], whole := false, target := .packets 0 }] } }
/-- Its state. -/
def poolState : State := { tPlain with waves := [poolWave] }
/-- The same with the pool of its half one step short of 64. -/
def emptyState : State := { tState id (fun t => { t with pools := [56, 0] }) id with waves := [poolWave] }

/-- RegisterPoolCompletes, GIVE: nothing; all but 8; registers in use; a count that is no multiple of 8; all. -/
theorem test_Give_meets :
    Issues tPlain tWave tv (.give { g0 with a := .imm 0 }) ∧ Issues tPlain tWave tv (.give { g0 with hdr := { h0 with lit := some 248 }, a := .lit })
    ∧ 248 + 8 = tv.regs.cnt ∧ rangeBusy (putWave tPlain tv) tv 8 248 = false
    ∧ Issues poolState poolWave (freezeLatches poolWave) (.give { g0 with a := .imm 8 })
    ∧ rangeBusy (putWave poolState (freezeLatches poolWave)) (freezeLatches poolWave) 184 8 = true
    ∧ Issues tPlain tWave tv (.give { g0 with a := .imm 4 }) ∧ Issues tPlain tWave tv (.give { g0 with hdr := { h0 with lit := some 256 }, a := .lit }) :=
  ⟨issues_of (by decide +kernel), issues_of (by decide +kernel), by decide +kernel, by decide +kernel, issues_of (by decide +kernel), by decide +kernel,
    issues_of (by decide +kernel), issues_of (by decide +kernel)⟩

/-- RegisterPoolCompletes, CLAIM: nothing; up to 256; more than the pool has; a count that is no multiple of 8; above 256. -/
theorem test_Claim_meets :
    Issues tPlain tWave tv (.claim { g0 with a := .imm 0 }) ∧ Issues poolState poolWave (freezeLatches poolWave) (.claim { g0 with a := .imm 64 })
    ∧ poolHas poolState (freezeLatches poolWave) 64 = true ∧ claimQueue poolState (freezeLatches poolWave) = []
    ∧ Issues emptyState poolWave (freezeLatches poolWave) (.claim { g0 with a := .imm 64 }) ∧ poolHas emptyState (freezeLatches poolWave) 64 = false
    ∧ Issues tPlain tWave tv (.claim { g0 with a := .imm 4 }) ∧ Issues tPlain tWave tv (.claim { g0 with a := .imm 8 }) :=
  ⟨issues_of (by decide +kernel), issues_of (by decide +kernel), by decide +kernel, by decide +kernel, issues_of (by decide +kernel), by decide +kernel,
    issues_of (by decide +kernel), issues_of (by decide +kernel)⟩

/-- A wave that waits in a GIVE of 8. -/
def giveWave : Wave := { tWave with ctl := { tWave.ctl with wait := .give 8, st := .waiting } }
theorem test_GiveRelease_meets :
    findWave { tFetch 0xB1C000000001840000000000 with waves := [giveWave] } giveWave.id = some giveWave
    ∧ insAt { tFetch 0xB1C000000001840000000000 with waves := [giveWave] } giveWave giveWave.ctl.pc = some (.give { g0 with a := .imm 8 })
    ∧ giveWave.ctl.wait = .give 8 ∧ 8 + 8 ≤ giveWave.regs.cnt ∧ rangeBusy tPlain giveWave 248 8 = false := by decide +kernel

/-- A wave that waits in an HWAIT for tag 0, which is open, or which is passed. -/
def hwaitWave (l : List Slip) : Wave := { openWave with hz := { openWave.hz with slips := l }, ctl := { openWave.ctl with wait := .hwait 0 } }
/-- A wave that has yielded, whose time is over. -/
def yieldWave : Wave := { tWave with ctl := { tWave.ctl with wait := .yielded [4] 4000 } }

/-- WaitsComplete. -/
theorem test_Waits_meet :
    Issues { tPlain with waves := [hwaitWave [openSlip0]] } (hwaitWave [openSlip0]) (freezeLatches (hwaitWave [openSlip0])) (.hwait { g0 with a := .s 0 })
    ∧ passed (freezeLatches (hwaitWave [openSlip0])) 0 = false
    ∧ Issues { tPlain with waves := [hwaitWave []] } (hwaitWave []) (freezeLatches (hwaitWave [])) (.hwait { g0 with a := .s 0 })
    ∧ passed (freezeLatches (hwaitWave [])) 0 = true
    ∧ Issues tPlain tWave tv (.waitt { g0 with a := .imm 1 }) ∧ bitAt 1 0 = true ∧ Issues tPlain tWave tv (.waitt { g0 with a := .imm 0xFE })
    ∧ bitAt 0xFE 0 = false ∧ (∀ j, j ∈ List.range 8 → slotHeld tv j = false)
    ∧ Issues slotState slotWave (freezeLatches slotWave) (.waitt { g0 with a := .imm 2 }) ∧ bitAt 2 1 = true ∧ slotHeld (freezeLatches slotWave) 1 = true
    ∧ findWave { tPlain with waves := [yieldWave] } yieldWave.id = some yieldWave ∧ 4000 ≤ tPlain.clk :=
  ⟨issues_of (by decide +kernel), by decide +kernel, issues_of (by decide +kernel), by decide +kernel, issues_of (by decide +kernel), by decide,
    issues_of (by decide +kernel), by decide, by decide +kernel, issues_of (by decide +kernel), by decide, by decide +kernel, by decide +kernel, by decide⟩

/-- A slice at 0x1000 with the loops given. -/
def loopSlice (l : List SliceLoop) : Wave := { tWave with slice := { tWave.slice with pc := 0x1000, stopped := false, loops := l } }
/-- A state in which it issues, its line holding ALOOP 0 and AEND. -/
def loopState (l : List SliceLoop) : State :=
  { tPlain with waves := [loopSlice l], cur := .slice 3,
                icache := [{ core := 0, asid := 5, base := 0x1000, size := 12, addr := 0x1000, bytes := lineFor (0xC04000000000000000000000 * 2 ^ 96 + 0xC00000000001800000000000) }] }

/-- AccessSliceCompletes: a loop that is entered, one with the count zero, whose end follows, or lies past the section's end; an end before
the last round, at it, and without a loop; a queue with room. -/
theorem test_AccessSlice_meets :
    (loopState []).cur = .slice (loopSlice []).id ∧ findWave (loopState []) (loopSlice []).id = some (loopSlice [])
    ∧ (sliceVal (loopSlice []) none (.imm 1)).toNat = 1 ∧ (loopSlice []).slice.loops.length < 4
    ∧ sliceVal (loopSlice []) none (.imm 0) = 0 ∧ insAt (loopState []) (loopSlice []) 0x100C = some (.aend g0)
    ∧ afterAend (loopState []) (loopSlice []) 65536 0 0x100C = .found 0x1018
    ∧ afterAend { loopState [] with accEnds := [(tKernel.access, 0x100C)] } (loopSlice []) 65536 0 0x100C = .blocked 0x100C 0
    ∧ findWave (loopState [{ start := 0x100C, count := 2, index := 0 }]) 3 = some (loopSlice [{ start := 0x100C, count := 2, index := 0 }]) ∧ 0 + 1 < 2
    ∧ findWave (loopState [{ start := 0x100C, count := 2, index := 1 }]) 3 = some (loopSlice [{ start := 0x100C, count := 2, index := 1 }]) ∧ 2 ≤ 1 + 1
    ∧ ((loopSlice []).slice.discard[1]?).getD 0 = 0 ∧ (((loopSlice []).queues[1]?).getD []).length < 8 ∧ locksDamaged (loopState []) = false := by
  decide +kernel
/-- AccessSliceCompletes: a count of 2^32, a fifth level, an entry to be discarded, and a core with room. -/
theorem test_AccessSlice_bounds :
    (sliceVal (loopSlice []) (some 0x100000000) .lit).toNat = 2 ^ 32
    ∧ (loopSlice (List.replicate 4 { start := 0x100C, count := 2, index := 0 })).slice.loops.length = 4
    ∧ (({ loopSlice [] with slice := { (loopSlice []).slice with discard := [0, 2, 0, 0] } } : Wave).slice.discard[1]?).getD 0 = 2
    ∧ coreOut (loopState []) (loopSlice []).core = 0 := by decide +kernel

/-- IssueChecks: a store in a recipe, a latch in a line without CHAIN, MARK in the service wave, and the privileged instructions without privilege. -/
theorem test_IssueChecks_meets :
    issueFault tPlain { tWave with ctl := { tWave.ctl with recipe := some (0x1000, 1) } } (.st { m0 with a := .s 32, b := .imm 0, c := .s 5 }) = some 0x01
    ∧ issueFault tPlain tWave (.vadd { g0 with dst := .v 20, a := .x 1, b := .imm 0 }) = some 0x04
    ∧ issueFault fswState fswWave (.mark { g0 with a := .imm 7 }) = some 0x01
    ∧ (let s := tState id id (fun c => { c with priv := false })
       issueFault s tWave (.haltctx { g0 with dst := .s 1 }) = some 0x01 ∧ issueFault s tWave (.drain { g0 with dst := .s 1 }) = some 0x01
       ∧ issueFault s tWave (.tlbinv { g0 with a := .s 1, b := .imm 0 }) = some 0x01 ∧ issueFault s tWave (.replay { g0 with dst := .s 1, a := .s 2 }) = some 0x01)
    ∧ tWave.hz.handler = false ∧ tWave.fsw = false := by decide +kernel
theorem test_IssueChecks_guard :
    issueFault tPlain tWave (.sadd { g0 with hdr := { h0 with grd := .eq }, dst := .s 1, a := .s 2, b := .s 3 }) = none
    ∧ slotsFree tWave (.sadd { g0 with hdr := { h0 with grd := .eq }, dst := .s 1, a := .s 2, b := .s 3 }) = true
    ∧ guardHolds .eq tWave.regs.cc = false ∧ discardPops tv (qRegs (.sadd { g0 with hdr := { h0 with grd := .eq }, dst := .s 1, a := .s 2, b := .s 3 })) = some tv
    ∧ discardPops (freezeLatches queueWave) (qRegs (.vxor { g0 with dst := .v 2, a := .q 1, b := .v 3 })) ≠ none := by decide +kernel
/-- A chained line in which an MMA of the wave still owes v64. -/
def owedWave : Wave := { tWave with ctl := { tWave.ctl with chain := true } }
/-- Its state. -/
def owedState : State := { tPlain with waves := [owedWave], mmas := [tMma] }
/-- IssueChecks: a guarded-off instruction that does not wait for its latch, and one that does. -/
theorem test_IssueChecks_off :
    offWaits (putWave tPlain tv) tv (.sadd { g0 with hdr := { h0 with grd := .eq }, dst := .s 1, a := .s 2, b := .s 3 }) = false
    ∧ issueFault owedState owedWave (.vmov { g0 with hdr := { h0 with grd := .eq }, dst := .v 64, a := .imm 1 }) = none
    ∧ slotsFree owedWave (.vmov { g0 with hdr := { h0 with grd := .eq }, dst := .v 64, a := .imm 1 }) = true ∧ guardHolds .eq owedWave.regs.cc = false
    ∧ offWaits (putWave owedState (freezeLatches owedWave)) (freezeLatches owedWave) (.vmov { g0 with hdr := { h0 with grd := .eq }, dst := .v 64, a := .imm 1 }) = true := by
  decide +kernel
theorem test_IssueChecks_kill :
    issueFault (scopeState 1 true) scopeWave (.bra b0) = none ∧ slotsFree scopeWave (.bra b0) = true ∧ guardHolds .al scopeWave.regs.cc = true
    ∧ killDue (scopeState 1 true) (freezeLatches scopeWave) = true
    ∧ killPoint (putWave (scopeState 1 true) (freezeLatches scopeWave)) (freezeLatches scopeWave) (.bra b0) = true := by decide +kernel

/-- TrapEntry: a policy that names a handler; the fault-service wave; handler mode; the policy to halt. -/
theorem test_TrapEntry_meets :
    findWave tPlain tWave.id = some tWave ∧ (getTeam tPlain tWave.team).kernel.policy = 1 ∧ (getTeam tPlain tWave.team).kernel.trapPc ≠ 0
    ∧ (getTeam tPlain tWave.team).kernel.fromFsw = false ∧ tWave.fsw = false ∧ tWave.hz.handler = false
    ∧ findWave fswState fswWave.id = some fswWave ∧ fswWave.fsw = true
    ∧ findWave handlerState handlerWave.id = some handlerWave ∧ handlerWave.fsw = false ∧ handlerWave.hz.handler = true
    ∧ (getTeam (tState id (fun t => { t with kernel := { tKernel with policy := 2 } }) id) tWave.team).kernel.policy = 2 := by decide +kernel
/-- TrapEntry: the policy to cancel, with a scope that lives, one that is cancelled, and none; the kernel of the fault-service wave; an instruction of
a handler that raises a secondary cause; the wave does not stop. -/
theorem test_TrapEntry_policies :
    tWave.ctl.stopping = false ∧ tWave.hz.slips = []
    ∧ (getTeam (tState id (fun t => { t with kernel := { tKernel with policy := 0 } }) id) tWave.team).kernel.policy = 0
    ∧ (getTeam (tState id (fun t => { t with kernel := { tKernel with fromFsw := true } }) id) tWave.team).kernel.fromFsw = true
    ∧ findScope (getCtx (scopeState 1 false) 1) scopeWave.scope = some (scopeAt 1 false)
    ∧ findScope (getCtx (scopeState 1 true) 1) scopeWave.scope = some (scopeAt 1 true) ∧ findScope (getCtx tPlain 1) tWave.scope = none
    ∧ handlerWave.popped = [] ∧ (∀ x ∈ handlerState.waves, x.id = handlerWave.id → x = handlerWave)
    ∧ findWave handlerState handlerWave.id = some handlerWave := by decide +kernel
/-! ### What the statements suppose: the events of the device -/

/-- A wave of a cancelled scope, parked. -/
def parkedScope : Wave := { scopeWave with ctl := { scopeWave.ctl with st := .parked } }
/-- A wave that has been killed. -/
def killedWave : Wave := { tWave with ctl := { tWave.ctl with st := .killed } }
/-- A wave whose NOPRE region opened 2 ms ago. -/
def nopreWave : Wave := { tWave with ctl := { tWave.ctl with nopre := some 3000000 } }

/-- WaveEventsComplete: a parked wave of a cancelled scope, and one that waits for a tag; a killed wave with nothing left; a live wave; a
region that has run for 2 ms exactly; a cancelled scope without waves. -/
theorem test_WaveEvents_meet :
    findWave { scopeState 1 true with waves := [parkedScope] } parkedScope.id = some parkedScope
    ∧ killDue { scopeState 1 true with waves := [parkedScope] } parkedScope = true ∧ parkedScope.ctl.stopping = false ∧ parkedScope.ctl.st = .parked
    ∧ findWave (settleAll { tPlain with waves := [killedWave] } 3) 3 = some killedWave ∧ retireReady (settleAll { tPlain with waves := [killedWave] } 3) killedWave = true
    ∧ tWave.ctl.st = .ready
    ∧ findWave { tPlain with waves := [nopreWave] } nopreWave.id = some nopreWave ∧ nopreWave.ctl.nopre = some 3000000 ∧ 3000000 + 2000000 = tPlain.ns
    ∧ (getCtx { scopeState 1 true with waves := [] } 1).scopes.find? (fun x => x.slot == 0) = some (scopeAt 1 true)
    ∧ scopeIdle { scopeState 1 true with waves := [] } (getCtx { scopeState 1 true with waves := [] } 1) 0 = true
    ∧ (getCtx { scopeState 1 true with waves := [] } 1).status = 0 := by decide +kernel
/-- WaveEventsComplete: a cancelled scope that is a grid's root. -/
theorem test_WaveEvents_root :
    let s : State := { tState id id (fun c => { c with scopes := [{ scopeAt 1 true with grid := some 8 }] }) with waves := [] }
    (getCtx s 1).scopes.find? (fun x => x.slot == 0) = some { scopeAt 1 true with grid := some 8 } ∧ scopeIdle s (getCtx s 1) 0 = true
    ∧ (getCtx s 1).status = 0 := by decide +kernel

/-- A slip of an operation. -/
def slipOf (op : SlipOp) : Slip := { openSlip0 with op := op }
/-- A wave with it. -/
def slipWave (op : SlipOp) : Wave := { tWave with hz := { tWave.hz with tag := 1, slips := [slipOf op] } }
/-- A message of the wave on connection 0. -/
def tMsg (op : NetOp) (sent : Bool) (ns : Nat) : NetMsg :=
  { id := 8, wave := 3, ctx := 1, asid := 5, tag := 0, conn := 0, op := op, win := 0, key := 0, roff := 0, laddr := 0x1800, len := 4, aop := .add, atyp := .n32,
    opnd := 0, cntr := 0, msg := 0, serial := 0, ready := true, failure := none,
    parts := [{ id := 9, off := 0, len := 4, sent := sent, acked := false, resent := 16, last := ns, wanted := sent, data := [] }] }
/-- A state with a message, with connection 0 alive and cached. -/
def msgState (op : NetOp) (sent : Bool) (ns : Nat) : State :=
  { netState 4 0 1 with waves := [slipWave (.net 8)], net := { resetNet with cache := [0], msgs := [tMsg op sent ns] } }
/-- A store to host memory. -/
def hostStore : Access := tStore 0x1100 (.link .host 0x4000)
/-- A wave on which an overrun is pending. -/
def overWave : Wave := { tWave with hz := { tWave.hz with overrun := true } }
/-- The trap that it is. -/
def overTrap : TrapInfo :=
  { cause := 0x19, cls := .event, pcdlv := 0x1000, pcop := 0, tag := none, faddr := 0, rcd := noRec, lanes := 0, mixed := false, desched := false }

/-- DeliveryEventsComplete, SLIP_RESOLVE and TRAP_DELIVERY. -/
theorem test_Delivery_meets :
    findWave { tPlain with waves := [slipWave (.mem hostStore [] true)] } 3 = some (slipWave (.mem hostStore [] true))
    ∧ findSlip { tPlain with waves := [slipWave (.mem hostStore [] true)] } 3 0 = some (slipOf (.mem hostStore [] true))
    ∧ lazyLeft (slipWave (.mem hostStore [] true)) 0 = false ∧ linkWaits { tPlain with waves := [slipWave (.mem hostStore [] true)] } (slipWave (.mem hostStore [] true)) 0 hostStore [] = false
    ∧ findSlip (msgState .put false 0) 3 0 = some (slipOf (.net 8)) ∧ (msgState .put false 0).net.msgs.find? (fun y => y.id == 8) = some (tMsg .put false 0)
    ∧ (tMsg .put false 0).parts.any (fun p => !p.sent) = true
    ∧ findWave { tPlain with waves := [overWave] } overWave.id = some overWave ∧ atBoundary overWave = true ∧ pendingTrap overWave = some overTrap := by
  decide +kernel
/-- A wave of a cancelled scope that waits for a tag. -/
def dueWave : Wave := { scopeWave with ctl := { scopeWave.ctl with st := .waiting, wait := .hwait 0 } }
/-- DeliveryEventsComplete: a wave to be killed where it waits; the data of an NPUT that a link refuses. -/
theorem test_Delivery_kill :
    findWave { scopeState 1 true with waves := [dueWave] } dueWave.id = some dueWave ∧ killableWait dueWave = true
    ∧ killDue { scopeState 1 true with waves := [dueWave] } dueWave = true ∧ killableWait overWave = false
    ∧ replyFails (.failed 0x10 0) = true
    ∧ (let s : State :=
         { msgState .put false 0 with
           tlb := [{ asid := 5, base := 0x1000, size := 12, leaf := 0x783F, at_ := 0x8000 }],
           link := { resetLink with ats := [(5, 0, { frame := 0x5000, r := true, w := true })] } }
       overLinks s (getCtx s 1) 0x1800 4 = true ∧ (tMsg .put false 0).parts.any (fun p => !p.sent) = true) := by decide +kernel
/-- TrapEntry: a trap of the horizon class of tag 0, with a younger held store, which is discarded; and a machine check. -/
theorem test_TrapEntry_classes :
    let t : TrapInfo := { overTrap with cause := 0x10, cls := .horizon, tag := some 0 }
    let w : Wave := { openWave with hz := { openWave.hz with held := heldStoreWave.hz.held.map (fun h => { h with h := 1 }) } }
    t.cls ≠ .machine ∧ (discardHeld w 0).1.hz.held = [] ∧ w.hz.held ≠ [] ∧ ({ t with cls := .machine } : TrapInfo).cls = .machine := by decide +kernel

/-- A team of the service wave 6, with a ring of two records at 0x1800 and its counts at 0x1900 and 0x1908. -/
def serviceTeam : Team := { tTeam with id := 5, kind := .service, waves := [6], kernel := { tKernel with args := [0x1800, 2, 0x1900, 0x1908] } }
/-- A parked wave whose record waits. -/
def waitingPark : Wave := { parkedWave with id := 3, ctl := { parkedWave.ctl with park := some { park208 with written := false } } }
/-- The state: PROD is 1. -/
def recordState : State :=
  { tState id id (fun c => { c with fswWave := some 6, records := [3] }) with
    teams := [tTeam, serviceTeam], waves := [waitingPark, { fswWave with id := 6, team := 5 }], hbm := memPuts [] 0x900 [1] }

/-- DeliveryEventsComplete, FAULT_RECORD_WRITE: the last place of the ring. -/
theorem test_FaultRecord_meets :
    findWave recordState waitingPark.id = some waitingPark ∧ waitingPark.ctl.park = some { park208 with written := false }
    ∧ faultQueue recordState (getCtx recordState waitingPark.ctx) = some (0x1800, 2, 0x1900, 0x1908)
    ∧ (getCtx recordState waitingPark.ctx).records.head? = some waitingPark.id ∧ ctxAsks recordState (getCtx recordState waitingPark.ctx) 0x1900 8 true = []
    ∧ ctxAsks recordState (getCtx recordState waitingPark.ctx) 0x1908 8 false = []
    ∧ ctxAsks recordState (getCtx recordState waitingPark.ctx) (0x1800 + w64 (64 * (1 % 2))) 64 true = []
    ∧ ctxNat recordState (getCtx recordState waitingPark.ctx) 0x1900 8 = some 1
    ∧ ctxNat recordState (getCtx recordState waitingPark.ctx) 0x1908 8 = some 0 ∧ (1 + 2 ^ 64 - 0) % 2 ^ 64 < 2 := by decide +kernel

/-- A second context with a launch that no core holds: no core of its partition is enabled. -/
def otherCtx : Ctx := { tCtx with id := 7, asid := 6, part := 1 }
/-- Its launch, of one team of one wave. -/
def tGrid : Grid :=
  { id := 8, ctx := 7, queue := 0, prio := 0, kernel := { noKernel with exec := 0x1000, width := 32, lanes := 1 }, teams := 1, next := 0, live := 0, waves := 1,
    pair := false, roles := [{ first := 0, last := 0, cnt := 8 }], shelf := 0, ack := 0, done := 0, root := none, pending := true, order := 1, since := 0,
    placed := false, ended := false }
/-- The state: the first context has used its slice of 1 ms. -/
def sliceState : State :=
  { tPlain with
    teams := [{ tTeam with kind := .grid 9 }],
    ctxs := [{ tCtx with slice := 1000, since := some 4000000, saveAt := 0x2000, saveSize := 0x100000 }, otherCtx], grids := [tGrid] }
/-- The saved team of the context, alone. -/
def savedTeam : Team := { tTeam with kind := .grid 8, saved := some (0, 0) }
/-- Its state. -/
def savedState : State := { tPlain with teams := [savedTeam], waves := [{ tWave with ctl := { tWave.ctl with st := .preempted } }] }


/-- PreemptionEventsComplete: a slice that ends now, with a launch of another partition that no core can take; a context that is being
saved; a saved team, which goes to a core of its cluster's number. -/
theorem test_Preemption_meets :
    (getCtx sliceState 1).since = some 4000000 ∧ topPrio sliceState 1 = some 0 ∧ (getCtx sliceState 1).slice = 1000 ∧ 4000000 + 1000 * 1000 = sliceState.ns
    ∧ (getCtx sliceState 1).halted = false ∧ areaFits sliceState (getCtx sliceState 1) = true ∧ otherWaits sliceState 1 0 = true
    ∧ (let s : State := { tPlain with waves := [{ tWave with ctl := { tWave.ctl with preempt := true } }] }
       (getCtx s 1).halted = false ∧ saving s 1 = true) := by decide +kernel
theorem test_Restore_meets :
    (pendings savedState).find? (fun x => (pendCore savedState x).isSome) = some { ctx := 1, prio := 0, task := false, order := 0, ref := .saved savedTeam }
    ∧ mayTake savedState (getCtx savedState 1) (savedShape savedState savedTeam) (savedSlot savedTeam) (savedOk savedTeam) 0 = true
    ∧ mayTake savedState (getCtx savedState 1) (savedShape savedState savedTeam) (savedSlot savedTeam) (savedOk savedTeam) 16 = false := by decide +kernel


/-- A context whose tables map the first GiB of its addresses to HBM, and which the bindery finds for the record at 0x2000. -/
def bdyCtx : Ctx := { tCtx with asid := Config.batchAsid 0x2000, ptroot := 0x100000, heapt := 0x1400 }
/-- Its state: a heap at 0x1000, a batch record of one entry, and its tables. -/
def bdyState (b : Bindery) : State :=
  { tPlain with
    ctxs := [bdyCtx], teams := [], waves := [], tlb := [], bindery := [b, resetBindery, resetBindery, resetBindery],
    hbm := memPuts (memPuts (memPuts (memPuts (memPuts [] 0x1400 (natToBytes 8 0x1000 ++ natToBytes 8 0x1000 ++ natToBytes 8 0x1800 ++ natToBytes 4 1 ++ [0, 1]))
      0x2000 ([0, 0, 1, 0] ++ natToBytes 4 0 ++ natToBytes 8 0x2100 ++ natToBytes 8 0x1100 ++ natToBytes 8 0x1200 ++ natToBytes 4 64))
      0x100000 (natToBytes 8 0x101001)) 0x101000 (natToBytes 8 0x102001)) 0x102000 (natToBytes 8 0x80F) }
/-- A bindery at a step of that batch. -/
def bdyAt (step : Nat) : Bindery := { resetBindery with batch := some 0x2000, step := step, moving := [(0, 0x1800)] }

/-- BinderyEventsComplete: a queue of 15 and of 16; a record with a good header; each step of it. -/
theorem test_Bindery_meets :
    (getBindery (bdyState { resetBindery with queue := List.replicate 15 0x2000 }) 0).queue.length = 15
    ∧ (getBindery (bdyState { resetBindery with queue := List.replicate 16 0x2000 }) 0).queue.length = 16 ∧ (0x2000 : W64).getLsbD 1 = false
    ∧ w64 ((0x2000 : W64).toNat / 64 * 64) ≠ 0
    ∧ (getBindery (bdyState { resetBindery with queue := [0x2000] }) 0).queue = [0x2000]
    ∧ headOk (bdyState { resetBindery with queue := [0x2000] }) bdyCtx 0x2000 (batchHead (bdyState { resetBindery with queue := [0x2000] }) bdyCtx 0x2000) = true
    ∧ (heapDesc (bdyState { resetBindery with queue := [0x2000] }) bdyCtx 0).isSome = true
    ∧ (getBindery (bdyState (bdyAt 2)) 0).batch = some 0x2000 ∧ (getBindery (bdyState (bdyAt 2)) 0).step = 2 ∧ (bdyState (bdyAt 2)).colours = []
    ∧ pendingMove (bdyState (bdyAt 2)) bdyCtx 0x2000 (bdyAt 2).moving = false ∧ (getBindery (bdyState (bdyAt 3)) 0).step = 3 := by decide +kernel
theorem test_Bindery_context (b : Bindery) : ctxOfAsid (bdyState b) (Config.batchAsid 0x2000) = some bdyCtx := by
  simp [ctxOfAsid, bdyState, bdyCtx, tCtx, noCtx]
/-- BinderyEventsComplete: an object that can be copied, and one beyond what is mapped. -/
theorem test_Bindery_objects :
    (moveObject (bdyState (bdyAt 3)) bdyCtx { idx := 0, old := 0x1100, new := 0x1200, size := 64 }).isSome = true
    ∧ moveObject (bdyState (bdyAt 3)) bdyCtx { idx := 0, old := 0x8000000000, new := 0x1200, size := 64 } = none := by decide +kernel

/-- An operation of an engine, of no effect but its end. -/
def tOp (kind : EngKind) : EngOp :=
  { id := 8, kind := kind, wave := 3, team := 2, ctx := 1, core := 0, asid := 5, die := 0, slot := none, engine := 0, tag := 0, scope := 0, comp := 0, running := true,
    chunk := 0, fetched := [], poison := none, fault := none, abort := none, stage := 0, far := [], farPois := [], order := 0 }
/-- A copy of 16 words on the device, and one from the page of peer 7. -/
def copyOp : EngOp := tOp (.copy (recOf .n32 0x1600 16 16) none (recOf .n32 0x1700 16 16))
/-- The same from the page of peer 7. -/
def farOp : EngOp := tOp (.copy (recOf .n32 0x10000 16 16) none (recOf .n32 0x1700 16 16))
/-- A state with an operation. -/
def opState (o : EngOp) : State :=
  { tPlain with ops := [o], fab := { resetFabric with joined := true, en := true, id := 1, inc := 1, peers := [(7, (1, 1))] } }

/-- EngineEventsComplete: an operation that has not started; a chunk of local elements and one of a peer's; the end; an abort. -/
theorem test_EngineEvents_meet :
    (opState { copyOp with running := false }).ops.find? (fun x => x.id == 8) = some { copyOp with running := false }
    ∧ lockConflict (opState { copyOp with running := false }) { copyOp with running := false } = false
    ∧ ((unitOps (opState { copyOp with running := false }) false 0).filter (fun x => x.running && x.engine == 0)).length < 16
    ∧ copyOp.chunk < engChunks copyOp ∧ opPackets (opState copyOp) 8 = [] ∧ chunkNeeds (opState copyOp) copyOp (chunkElems copyOp 0) = ([], [])
    ∧ (chunkNeeds (opState farOp) farOp (chunkElems farOp 0)).1 = [] ∧ (chunkNeeds (opState farOp) farOp (chunkElems farOp 0)).2.length = 16
    ∧ packetRoom (opState farOp) (engAccess .load .n64 (chunkNeeds (opState farOp) farOp (chunkElems farOp 0)).2) farOp.asid none = true
    ∧ engChunks { copyOp with chunk := 1 } ≤ 1 ∧ (opState { copyOp with chunk := 1 }).ops.find? (fun x => x.id == 8) = some { copyOp with chunk := 1 }
    ∧ (opState { copyOp with abort := some .cancel }).ops.find? (fun x => x.id == 8) = some { copyOp with abort := some .cancel } := by decide +kernel
/-- EngineEventsComplete: an operation to be aborted that has a chunk left. -/
theorem test_EngineEvents_abort : pastAbort { copyOp with abort := some .cancel } = false ∧ ({ copyOp with abort := some .cancel } : EngOp).far = [] := by
  decide +kernel

/-- A context descriptor of ASID 9. -/
def descB : List Byte := natToBytes 2 9 ++ [0, 1] ++ natToBytes 4 0 ++ natToBytes 24 0 ++ natToBytes 4 1 ++ natToBytes 92 0
/-- A launch packet of one team of one wave of that context. -/
def packetB : List Byte :=
  natToBytes 8 0x6000 ++ natToBytes 8 0x1000 ++ natToBytes 32 0 ++ natToBytes 4 1 ++ natToBytes 2 32 ++ [1, 0] ++ natToBytes 4 0 ++ natToBytes 2 0 ++ natToBytes 2 1
    ++ [0, 0] ++ natToBytes 2 8 ++ natToBytes 188 0
/-- A queue with a ring of one packet at 0x4000, announced. -/
def tQueue : LaunchQ := { resetQueue with base := 0x4000, en := true, widx := 1 }
/-- A state with a queue 63, and, at 0x4000 and 0x6000, the packet and the descriptor. -/
def queueAt (q : LaunchQ) (l : List Byte) : State :=
  { tPlain with queues := setAt State.reset.queues 63 q, hbm := memPuts (memPuts [] 0x4000 l) 0x6000 descB }
/-- What serving a packet gives: the code of a refusal, 100 for a wait, and 200 for a launch that is taken. -/
def serveCode (s : State) (h : Bool) : Nat :=
  match servePacket s 63 (packetAt s (getQueue s 63)) h with | .refused _ c => c | .wait _ => 100 | .taken _ _ _ => 200
/-- The packet with one dependence, whose list lies in the host's page 0x9000. -/
def depPacket : List Byte := packetB.take 0x70 ++ natToBytes 8 0x9000 ++ [1] ++ packetB.drop 0x79

/-- LaunchAndEndEventsComplete: a doorbell at the end of a ring, and of a queue that is off; a packet of zeros, a good one, and one that
waits for the host; a held launch whose dependence is met exactly. -/
theorem test_Launch_meets :
    (getQueue (queueAt resetQueue []) 63).en = false ∧ (getQueue (queueAt tQueue []) 63).en = true ∧ ((1 : W32) - (getQueue (queueAt tQueue []) 63).ridx).toNat = 2 ^ 0
    ∧ 63 < (queueAt tQueue []).queues.length ∧ (queueAt tQueue []).rel.powered = true
    ∧ (getQueue (queueAt tQueue []) 63).ridx ≠ (getQueue (queueAt tQueue []) 63).widx ∧ (getQueue (queueAt tQueue []) 63).held = none
    ∧ overran (getQueue (queueAt tQueue []) 63) = false ∧ serveCode (queueAt tQueue []) false = 1 ∧ serveCode (queueAt tQueue packetB) false = 200
    ∧ serveCode { queueAt tQueue depPacket with tlb := [{ asid := 9, base := 0x9000, size := 12, leaf := 0x783F, at_ := 0x8000 }] } false = 100 := by decide +kernel
theorem test_Pending_meets :
    let s : State := { queueAt { tQueue with held := some 8, deps := [(0x1100, 7)] } [] with
      grids := [{ tGrid with ctx := 1 }], hbm := memPuts [] 0x100 [7] }
    (getQueue s 63).held = some 8 ∧ s.grids.find? (fun x => x.id == 8) = some { tGrid with ctx := 1 } ∧ (getQueue s 63).deps = [(0x1100, 7)]
    ∧ depsMet (depWords s (getQueue s 63) (getCtx s 1) ((getQueue s 63).deps.map (·.1))) (getQueue s 63).deps = true := by decide +kernel
/-- LaunchAndEndEventsComplete: a launch that core 0 can take; one that is over; a context whose aborts have finished; contexts that END ends. -/
theorem test_Ends_meet :
    (let s : State := { sliceState with ctxs := [tCtx, { otherCtx with part := 0 }] }
     (pendings (placeServices s)).findSome? (fun e => (pendCore (placeServices s) e).map (fun k => (e.ref, k))) = some (.grid tGrid, 0))
    ∧ sliceState.rel.powered = true ∧ gridOver { tGrid with next := 1 } = true
    ∧ ({ tPlain with grids := [{ tGrid with next := 1 }] } : State).grids.find? (fun x => x.id == 8) = some { tGrid with next := 1 }
    ∧ (getCtx (tState id id (fun c => { c with status := 3 })) 1).status = 3 ∧ (tState id id (fun c => { c with status := 3 })).ops = []
    ∧ heldCtx { tState id id (fun c => { c with desc := 0x80 }) with ctxEnd := 0x80 } (w64 ((0xFF : W64).toNat / 128 * 128)) = some { tCtx with desc := 0x80 }
    ∧ heldCtx { tState id id (fun c => { c with desc := 0x80, halted := true, haltWave := some 3 }) with ctxEnd := 0x80 } (w64 ((0x80 : W64).toNat / 128 * 128))
      = some { tCtx with desc := 0x80, halted := true, haltWave := some 3 } := by decide +kernel

/-- A wave parked for the host page 0x7000. -/
def pageWave : Wave := { tWave with ctl := { tWave.ctl with st := .parked, park := some { park208 with asid := 5, page := some 0x7000 } } }
/-- Its state: a translation asked for, one held, one page request of an allowance of two. -/
def pageState : State :=
  { tPlain with
    waves := [pageWave],
    link := { resetLink with asked := [(5, 0x8000)], ats := [(5, 0x9000, { frame := 0x5000, r := true, w := true })], allowance := 2,
                             requests := [{ asid := 5, page := 0x6000, sent := true, group := 511 }] } }

/-- HostLinkEventsComplete: each clause, at the last group and the last of the allowance. -/
theorem test_HostLink_meets :
    (5, 0x8000) ∈ pageState.link.asked
    ∧ frameInUse pageState 5 ((pageState.link.ats.filter (fun x => atsCovered 5 0x9FFF 1 x.1 x.2.1)).map (fun x => x.2.2.frame.toNat / 4096)) = false
    ∧ (pageState.link.ats.filter (fun x => atsCovered 5 0x9FFF 1 x.1 x.2.1)).length = 1
    ∧ pageWaves pageState 5 0x7000 ≠ [] ∧ 5 ∉ pageState.link.stopped ∧ (∀ r ∈ pageState.link.requests, ¬ (r.asid = 5 ∧ r.page = 0x7000))
    ∧ pageState.link.requests.length < pageState.link.allowance ∧ freeGroup pageState.link = some 0
    ∧ 5 ∈ ({ pageState.link with stopped := [5] } : HostLink).stopped ∧ pageState.link.requests.filter (fun r => r.group == 511) ≠ [] := by decide +kernel
/-- HostLinkEventsComplete: an invalidation of a page that an access still uses, and whose translation is held no more. -/
theorem test_HostLink_left :
    let w : Wave := { tWave with hz := { tWave.hz with tag := 1, slips := [{ openSlip0 with op := .mem (tStore 0x9000 (.link .host 0x5000)) [] true }] } }
    let s : State := { tPlain with waves := [w], link := { resetLink with left := [(5, 0x9000, { frame := 0x5000, r := true, w := true })] } }
    (s.link.left.filter (fun x => atsCovered 5 0x9FFF 1 x.1 x.2.1)).length = 1
    ∧ frameInUse s 5 (((s.link.ats ++ s.link.left).filter (fun x => atsCovered 5 0x9FFF 1 x.1 x.2.1)).map (fun x => x.2.2.frame.toNat / 4096)) = true := by
  decide +kernel

/-- The header of a packet of peer 7 to this device, of a kind. -/
def tHead (kind seq : Nat) (dinc : BitVec 16) : Head :=
  { dst := 1, src := 7, dinc := dinc, sinc := 1, asid := 5, kind := kind, streamed := false, sub := 0, seq := w32 seq, base := 0x1000, lines := if kind = 0 then 16 else 0,
    cls := 1, recs := if kind = 1 ∨ kind = 2 then 1 else 0, etype := tyCode .n32, aop := aopCode .add, part := false, aseq := 0, status := 0 }
/-- The packet: a write of the line of address 0x1100, or one record for that address. -/
def inPkt (kind seq : Nat) (dinc : BitVec 16) (acquire : Bool) : Packet :=
  let l := [headBytes (tHead kind seq dinc),
            if kind = 0 then List.replicate 64 0xFF else natToBytes 8 0x1100 ++ natToBytes 8 3 ++ List.replicate 48 0]
  { flits := l, tag := flitTag l, acquire := acquire, linkFails := false, poison := [] }
/-- The space that receives it, with the replies kept. -/
def inSpace (kept : List OutReply) (refused : Bool) : SeqIn :=
  { space := { peer := 7, asid := 5, streamed := false, sub := 1 }, expected := 0, accepted := [], responses := kept, refused := refused }
/-- The state that receives it, where its peers may use atomics, its line committed or not, and a reply kept or not. -/
def inState (pend : Bool) (kept : List OutReply) : State :=
  { opState copyOp with
    pending := if pend then [(.hbm, 4)] else [], tlb := [{ asid := 5, base := 0x1000, size := 12, leaf := 0x84F, at_ := 0x8000 }],
    fab := { (opState copyOp).fab with spacesIn := [inSpace kept false] } }
/-- A reply kept of number 1,023 before the next. -/
def tReply : OutReply :=
  { peer := 7, dinc := 1, kind := 5, cls := 1, space := { peer := 7, asid := 5, streamed := false, sub := 1 }, seq := 0xFFFFFFFF, status := 0, results := [], poison := [] }

/-- The conditions that the clauses share, on a packet of a kind. -/
theorem test_FabricRequests_meet : ∀ k ∈ [0, 1, 2],
    (reqOf (inPkt k 0 1 true)).headerOk = true ∧ (reqOf (inPkt k 0 1 true)).kind = k ∧ (inState false []).fab.joined = true
    ∧ (reqOf (inPkt k 0 1 true)).dst = (inState false []).fab.id ∧ staleIn (inState false []) 7 1 1 = false
    ∧ (reqOf (inPkt k 0 1 true)).src = 7 ∧ (reqOf (inPkt k 0 1 true)).dinc = 1 ∧ (reqOf (inPkt k 0 1 true)).sinc = 1
    ∧ staleIn (inState false []) (reqOf (inPkt k 0 0 true)).src.toNat (reqOf (inPkt k 0 0 true)).dinc (reqOf (inPkt k 0 0 true)).sinc = true
    ∧ (inState false []).fab.stale ≠ BitVec.allOnes 32 := by decide +kernel
theorem test_FabricTag_meets (k n : Nat) (d : BitVec 16) (b : Bool) : (reqOf (inPkt k n d b)).tagOk = true := by simp [reqOf, inPkt]
/-- FabricRequestsComplete: the first number of the window and the last; a number answered before; a read and an atomic with places, in a
line that is committed and one that is not; a read whose reply comes at once. -/
theorem test_FabricFresh_meets :
    seqCheck (spaceIn (inState false []) (reqSpace (reqOf (inPkt 0 0 1 true)))) (reqOf (inPkt 0 0 1 true)) = .fresh
    ∧ seqCheck (spaceIn (inState false []) (reqSpace (reqOf (inPkt 1 1023 1 true)))) (reqOf (inPkt 1 1023 1 true)) = .fresh
    ∧ seqCheck (spaceIn (inState false []) (reqSpace (reqOf (inPkt 2 0 1 true)))) (reqOf (inPkt 2 0 1 true)) = .fresh
    ∧ seqCheck (spaceIn (inState false [tReply]) (reqSpace (reqOf (inPkt 0 0xFFFFFFFF 1 true)))) (reqOf (inPkt 0 0xFFFFFFFF 1 true)) = .again (some tReply) := by
  decide +kernel
/-- FabricRequestsComplete: a stream in which a packet has been refused. -/
theorem test_FabricRefused_meets :
    let s : State := { inState false [] with fab := { (inState false []).fab with spacesIn := [inSpace [] true] } }
    (spaceIn s (reqSpace (reqOf (inPkt 0 0 1 true)))).refused = true
    ∧ seqCheck (spaceIn s (reqSpace (reqOf (inPkt 0 0 1 true)))) (reqOf (inPkt 0 0 1 true)) = .fresh
    ∧ (spaceIn (inState false []) (reqSpace (reqOf (inPkt 0 0 1 true)))).refused = false := by decide +kernel
theorem test_FabricPlaces_meet :
    (servePlaces (inState false []) (reqOf (inPkt 1 0 1 true)) .load ((reqOf (inPkt 1 0 1 true)).recs.map (·.addr))).map (·.2) = some [(.hbm, 0x100)]
    ∧ (reqOf (inPkt 1 0 1 true)).acquire = true ∧ placePending (inState true []) (.hbm, 0x100) = true ∧ placePending (inState false []) (.hbm, 0x100) = false
    ∧ (servePlaces (inState false []) (reqOf (inPkt 2 0 1 true)) (.atom .add) ((reqOf (inPkt 2 0 1 true)).recs.map (·.addr))).map (·.2) = some [(.hbm, 0x100)] := by decide +kernel
theorem test_FabricServed_meets :
    (serveRead (reqOf (inPkt 1 0 1 true)) (inState false []) tReply).isSome = true
    ∧ (serveAtomic (reqOf (inPkt 2 0 1 true)) (inState false []) tReply).isSome = true := by
  have h (q : Req) (hq : q.tagOk = true) : q = { q with tagOk := true } := by cases q; cases hq; rfl
  rw [h _ (test_FabricTag_meets 1 0 1 true), h _ (test_FabricTag_meets 2 0 1 true)]
  decide +kernel

/-- A space of peer 7. -/
def tSpace (streamed : Bool) : SeqSpace := { peer := 7, asid := 5, streamed := streamed, sub := 1 }
/-- A packet of it, which has left at 4,000,000 ns, or is queued. -/
def outPkt (streamed : Bool) (kind : Nat) (first : Option Nat) : OutPkt :=
  { id := 8, space := tSpace streamed, seq := 0, dinc := 1, cls := 1, kind := kind, acc := tStore 0x10000 (.peer 7), owner := .nobody, hold := false,
    queued := first.isNone, first := first, last := 4900000, ins := none, poison := [], srcs := [] }
/-- A state with it and one plane up. -/
def outState (p : OutPkt) : State :=
  { opState copyOp with fab := { (opState copyOp).fab with out := [p], planes := [31], spacesOut := [{ space := tSpace true, next := 0, resync := true }], rto := 100, tmo := 100 } }

/-- An answer of peer 7 to number 0 of a space. -/
def tAnswer (streamed : Bool) (kind status : Nat) (sinc : BitVec 16) : Answer :=
  let h : Head := { tHead 0 0 1 with kind := kind, lines := 0, sinc := sinc, streamed := streamed, sub := if streamed then 1 else 0, status := status }
  { flits := [headBytes h], tag := flitTag [headBytes h], poison := [] }

/-- FabricAnswersComplete: acks, naks and responses of each status; writes and reads, streamed and not; an answer of an earlier incarnation. -/
theorem test_FabricAnswer_tag (b : Bool) (k n : Nat) (d : BitVec 16) : (ansOf (tAnswer b k n d)).tagOk = true := by simp [ansOf, tAnswer]
theorem test_FabricAnswer_meets : ∀ q ∈ [(false, 5, 0), (false, 6, 1), (false, 6, 2), (true, 6, 2), (false, 3, 0), (false, 4, 1)],
    let a := ansOf (tAnswer q.1 q.2.1 q.2.2 1)
    a.headerOk = true ∧ a.kind = q.2.1 ∧ a.status = q.2.2 ∧ a.space = tSpace q.1 ∧ a.seq = 0
    ∧ (outState (outPkt false 0 none)).fab.joined = true ∧ a.dst = (outState (outPkt false 0 none)).fab.id
    ∧ staleIn (outState (outPkt false 0 none)) a.space.peer a.dinc a.sinc = false
    ∧ staleIn (outState (outPkt false 0 none)) a.space.peer a.dinc (ansOf (tAnswer q.1 q.2.1 q.2.2 2)).sinc = true := by decide +kernel
theorem test_FabricSent_meets :
    sentPkt (outState (outPkt false 0 (some 4000000))) (tSpace false) 0 = some (outPkt false 0 (some 4000000))
    ∧ sentPkt (outState (outPkt true 0 (some 4000000))) (tSpace true) 0 = some (outPkt true 0 (some 4000000))
    ∧ sentPkt (outState (outPkt false 1 (some 4000000))) (tSpace false) 0 = some (outPkt false 1 (some 4000000)) := by decide +kernel
/-- FabricAnswersComplete: both timers at their ends; a stream to be resynchronised. -/
theorem test_FabricTimers_meet :
    (outState (outPkt false 0 (some 4000000))).fab.out.find? (fun x => x.id == 8) = some (outPkt false 0 (some 4000000))
    ∧ (outPkt false 0 (some 4000000)).queued = false ∧ 4900000 + 1000 * 100 = (outState (outPkt false 0 none)).ns
    ∧ 4000000 + 10000 * 100 = (outState (outPkt false 0 none)).ns
    ∧ (spaceOut (outState (outPkt false 0 none)) (tSpace true)).resync = true ∧ outIn (outState (outPkt false 0 none)) (tSpace true) = []
    ∧ (tSpace true).streamed = true := by decide +kernel
/-- FabricAnswersComplete: an acknowledgement of a stream, and the packet that it answers. -/
theorem test_FabricStream_meets :
    let a := ansOf (tAnswer true 5 0 1)
    let s := outState (outPkt true 0 (some 4000000))
    a.headerOk = true ∧ a.kind = 5 ∧ a.space.streamed = true ∧ s.fab.joined = true ∧ a.dst = s.fab.id ∧ staleIn s a.space.peer a.dinc a.sinc = false
    ∧ (outIn s a.space).filter (fun p => p.first.isSome && (p.seq == a.seq || tagBefore p.seq a.seq)) = [outPkt true 0 (some 4000000)] := by decide +kernel

/-- The state with a plane that has sent two flits, the first of them retried `n` times. -/
def retryState (n : Nat) : State :=
  { outState (outPkt false 0 none) with fab := { (outState (outPkt false 0 none)).fab with sent := [(31, 2)], retries := [(31, 0, n)] } }
/-- FabricStateEventsComplete: a join for the first time and again; peer 7 unchanged, new, and down; planes 0 and 31; the fifteenth and the
sixteenth retry; a packet that can leave, and a reply that does before it. -/
theorem test_FabricState_meets :
    ({ resetFabric with joining := true } : Fabric).everJoined = false
    ∧ ({ resetFabric with joining := true, everJoined := true } : Fabric).joining = true ∧ assoc (outState (outPkt false 0 none)).fab.peers 7 (0, 0) = (1, 1)
    ∧ 0 ∉ (outState (outPkt false 0 none)).fab.planes ∧ 31 ∈ (outState (outPkt false 0 none)).fab.planes
    ∧ 1 < assoc (retryState 14).fab.sent 31 0 ∧ flitRetries (retryState 14) 31 0 = 14 ∧ flitRetries (retryState 15) 31 0 = 15
    ∧ (outState (outPkt false 0 none)).fab.joined = true ∧ (outState (outPkt false 0 none)).fab.en = true
    ∧ pickPacket (outState (outPkt false 0 none)) 31 = some (.req (outPkt false 0 none))
    ∧ pickPacket { outState (outPkt false 0 none) with fab := { (outState (outPkt false 0 none)).fab with replies := [tReply] } } 31 = some (.rep tReply) := by
  decide +kernel

/-- A packet on connection 0 of `n` bytes. -/
def netPkt (n : Nat) : NetPacket :=
  { conn := 0, op := .put, msg := 0, off := 0, len := n, win := 0, key := 0, roff := 0, total := n, aop := .add, atyp := .n32, opnd := 0, data := List.replicate n 0,
    tagOk := true, ce := false }
/-- The state without a cached context, with packets parked. -/
def parkState (l : List NetPacket) : State := { netState 4 0 1 with net := { resetNet with parked := l } }
/-- A packet that leaves just `n` bytes of the buffer. -/
def fullPark (n : Nat) : List NetPacket := [{ netPkt 0 with len := 2 ^ 18 - n, data := List.replicate (2 ^ 18 - n) 0 }]
theorem fullPark_size (n : Nat) (m : Nat) : ((fullPark n).map parkSize).foldl (· + ·) (parkSize (netPkt m)) = m + (2 ^ 18 - n) := by
  simp only [fullPark, parkSize, netPkt, List.map_cons, List.map_nil, List.foldl_cons, List.foldl_nil, List.length_replicate]

/-- NetworkEventsComplete, arrivals: a cached context; the last bytes of the parking buffer, and none left; a context that has been fetched. -/
theorem test_NetArrival_meets :
    (netPkt 4).tagOk = true ∧ (msgState .put true 0).net.cache.contains 0 = true ∧ (cacheConn (msgState .put true 0) 0).isSome = true
    ∧ (parkState []).net.cache.contains 0 = false ∧ ((parkState [netPkt 4]).net.parked.filter (fun p => p.conn == 0)) ≠ []
    ∧ (cacheConn (parkState [netPkt 4]) 0).isSome = true := by decide +kernel
theorem test_NetPark_fits : (((parkState (fullPark 4)).net.parked.map parkSize).foldl (· + ·) (parkSize (netPkt 4))) = 2 ^ 18 :=
  (fullPark_size 4 4).trans (by norm_num)
theorem test_NetPark_full : (((parkState (fullPark 4)).net.parked.map parkSize).foldl (· + ·) (parkSize (netPkt 5))) = 2 ^ 18 + 1 :=
  (fullPark_size 4 5).trans (by norm_num)

/-- An answer for the message. -/
def tAns (status : Nat) : NetAnswer := { conn := 0, msg := 0, off := 0, status := status, data := [1, 2, 3, 4], ce := true }

/-- NetworkEventsComplete, answers: a put and a get; a refusal and a context miss; a packet parked away 4 µs ago, and one sent 40 µs ago,
for the sixteenth time. -/
theorem test_NetAnswers_meet :
    answered (msgState .put true 4996000) (tAns 1) = some (tMsg .put true 4996000) ∧ answered (msgState .get true 4996000) (tAns 4) = some (tMsg .get true 4996000)
    ∧ ((tMsg .put true 4996000).parts.find? (fun p => p.off == 0 && p.sent && !p.acked)).isSome = true
    ∧ (ackPart (tMsg .get true 4996000) 0).parts.all (·.acked) = true
    ∧ (findPart (msgState .put true 4996000) 9).isSome = true ∧ 4996000 + 4000 = (msgState .put true 4996000).ns
    ∧ findPart (msgState .put true 4960000) 9 = some (tMsg .put true 4960000, { id := 9, off := 0, len := 4, sent := true, acked := false, resent := 16, last := 4960000,
                                                                                 wanted := true, data := [] })
    ∧ 4960000 + 40000 = (msgState .put true 4960000).ns ∧ (tMsg .put true 4960000).failure = none := by decide +kernel
/-- The same for the data of an NGET, with its place in memory, and for the data of an NPUT that is sent for the fifteenth time. -/
def lateMsg : NetMsg := { tMsg .put true 4960000 with parts := (tMsg .put true 4960000).parts.map (fun p => { p with resent := 15 }) }
theorem test_NetData_meets :
    (let s := congested (msgState .get true 4996000) 0 true
     ctxAsks s (getCtx s 1) 0x1800 4 true = [] ∧ (ownerWrite s (getCtx s 1) 0x1800 [1, 2, 3, 4]).isSome = true)
    ∧ (let s : State := { msgState .put true 4960000 with net := { (msgState .put true 4960000).net with msgs := [lateMsg] } }
       (findPart s 9).map (fun q => q.2.resent) = some 15 ∧ (findPart s 9).map (fun q => partData s q.1 q.2) = some (.data [0, 0, 0, 0])) := by decide +kernel
/-- An NGET whose data goes to a page of host memory that is not translated. -/
theorem test_NetAsks_meets :
    let s : State := { msgState .get true 4996000 with tlb := [{ asid := 5, base := 0x1000, size := 12, leaf := 0x783F, at_ := 0x8000 }] }
    ctxAsks s (getCtx s 1) 0x1800 4 true ≠ [] := by decide +kernel
/-- NetworkEventsComplete: an answer that matches nothing, on a connection that is alive; a response that has no place in memory. -/
theorem test_NetAnswers_none :
    answered (msgState .put true 4996000) { tAns 1 with msg := 7 } = none ∧ connAlive (msgState .put true 4996000) 0 = true
    ∧ (let s : State := congested { msgState .get true 4996000 with tlb := [{ asid := 5, base := 0x1000, size := 12, leaf := 0x7857, at_ := 0x8000 }] } 0 true
       ctxAsks s (getCtx s 1) 0x1800 4 true = [] ∧ ownerWrite s (getCtx s 1) 0x1800 [1, 2, 3, 4] = none) := by decide +kernel

/-- A lock entry of an operation. -/
def tLock : Lock := { die := 0, index := 2, key := .global 5, lo := 0x1700, hi := 0x1740, both := true, op := 8, damaged := false }
/-- A team in whose barrier 0 wave 3 has waited for 100 ms. -/
def wdgTeam : Team := { tTeam with bars := List.replicate 16 { newBarrier 2 with arrived := 1, waited := 100000000 } }
/-- The wave that waits. -/
def wdgWave : Wave := { tWave with ctl := { tWave.ctl with st := .waiting, wait := .bars 0 0 } }
/-- Its state. -/
def wdgState : State := { tPlain with teams := [wdgTeam], waves := [wdgWave] }

/-- ReliabilityEventsComplete: a core without teams, and one whose team cannot be saved; an array with three and with four spares used; a
lock entry; clusters 11 and one under test; a barrier at the end of its time. -/
theorem test_Reliability_meets :
    coreBusy (evacuateCores (holdCore tPlain 191) (fun x => x == 191)) 191 = false ∧ coreBusy (evacuateCores (holdCore wdgState 0) (fun x => x == 0)) 0 = true
    ∧ (.l2Slice 95, 2) ∈ ({ tPlain with rel := { tPlain.rel with tests := [(.l2Slice 95, 2)] } } : State).rel.tests
    ∧ spareUsed { tPlain.rel with spares := [(.l2Slice 95, 2, 3)] } (.l2Slice 95) 2 = 3 ∧ spareUsed { tPlain.rel with spares := [(.l2Slice 95, 2, 4)] } (.l2Slice 95) 2 = 4
    ∧ ({ opState copyOp with locks := [tLock] } : State).locks.find? (fun x => x.die == 0 && x.index == 2) = some tLock
    ∧ tPlain.rel.testing.contains 11 = false ∧ ctxsOn { tPlain with rel := { tPlain.rel with testing := [11] } } (fun x => clusterOf x == 11) = []
    ∧ (getTeam wdgState 2).bars[0]? = some { newBarrier 2 with arrived := 1, waited := 100000000 } ∧ wdgState.rel.wdgEn = true ∧ resident (getTeam wdgState 2) = true
    ∧ barComplete ({ newBarrier 2 with arrived := 1, waited := 100000000 } : Barrier) = false ∧ 1000000 * wdgState.rel.wdgTmo = 100000000
    ∧ wdgState.waves.filter (fun (w : Wave) => w.team == 2 && !killDue wdgState w && (match w.ctl.wait with | .bars m _ | .barw m _ => m == 0 | _ => false)) ≠ [] := by
  decide +kernel
/-- ReliabilityEventsComplete: another row than the one under test. -/
theorem test_Reliability_row :
    (FailUnit.l2Slice 95, 3) ∉ ({ tPlain with rel := { tPlain.rel with tests := [(.l2Slice 95, 2)] } } : State).rel.tests
    ∧ ({ array := 2, row := 3, outcome := .pass } : TestReport).row = 3 := by decide +kernel

/-- A state whose layout is prepared, with a checksum. -/
def xbarState (commit : Nat) (sum : W32) : State := { tPlain with rel := { tPlain.rel with commit := commit, cksum := sum } }
/-- An image that verifies, of a version. -/
def tImage (v : Nat) (m : Bool) : FirmwareImage := { name := 1, rsaOk := true, slhOk := true, version := v, management := m }

theorem xbarState_sum (n : Nat) (c : W32) : shadowSum (xbarState n c) = shadowSum tPlain := by simp only [shadowSum, xbarState]

/-- BoardEventsComplete: a prepared layout whose checksum matches, and one whose checksum does not. -/
theorem test_Xbar_meets :
    (xbarState 1 (shadowSum tPlain)).rel.commit = 1 ∧ (xbarState 1 (shadowSum tPlain)).rel.cksum = shadowSum (xbarState 1 (shadowSum tPlain))
    ∧ (xbarState 1 (shadowSum tPlain + 1)).rel.cksum ≠ shadowSum (xbarState 1 (shadowSum tPlain + 1)) := by
  rw [xbarState_sum, xbarState_sum]
  refine ⟨rfl, rfl, ?_⟩
  show shadowSum tPlain + 1 ≠ shadowSum tPlain
  generalize shadowSum tPlain = x
  bv_omega

/-- BoardEventsComplete: a layout that is not prepared; images at the least version and below it; the
bounds of the thermal marks; a device without power; a latency and a governor window that has begun, and one that has not. -/
theorem test_Board_meets :
    (0x500000001 : W64).toNat % 4 = 1 ∧ (0x500000001 : W64).getLsbD 2 = false ∧ (xbarState 0 0).rel.commit ≠ 1
    ∧ (let s : State := { tPlain with rel := { tPlain.rel with minVersion := 4, erase := true } }
       s.rel.erase = true ∧ s.rel.keys = true ∧ (tImage 4 true).rsaOk = true ∧ (tImage 4 true).slhOk = true ∧ s.rel.minVersion ≤ (tImage 4 true).version
       ∧ (tImage 3 true).version < s.rel.minVersion ∧ (tImage 4 true).management = true ∧ (tImage 4 false).management = false ∧ s.rel.mpRunning = true)
    ∧ tPlain.hiTemp < 106 ∧ tPlain.hot.contains 0 = false ∧ 94 ≤ tPlain.hiTemp ∧ 94 < lowTemp tPlain ∧ State.reset.rel.powered = false
    ∧ State.reset.rel.minVersion ≤ (tImage 0 false).version
    ∧ (tPlain.latWin < ({ tPlain with ns := 10000000 } : State).ns / 10 ^ 7 ∧ tPlain.ns / 10 ^ 7 ≤ tPlain.latWin)
    ∧ (tPlain.govWin < govNow tPlain ∧ govNow tPlain ≤ ({ tPlain with govWin := 5000 } : State).govWin) := by decide +kernel
/-- BoardEventsComplete: STATE 1 written where 3 is prepared. -/
theorem test_Board_commit : (xbarState 3 0).rel.commit = 3 ∧ (0x500000001 : W64).toNat % 4 = 1 ∧ (0x500000001 : W64).getLsbD 2 = false := by decide +kernel

/-- RegisterAccessCompletes: the links are up and the management processor runs; the last byte of HBM, and one beyond it. -/
theorem test_RegisterAccess_meets :
    tPlain.rel.links = true ∧ tPlain.rel.mpRunning = true ∧ 0x7FFFFFFFFF + 1 ≤ 0x8000000000 ∧ 0x8000000000 < 0x7FFFFFFFFF + 2
    ∧ ([1] : List Byte).length = 1 := by decide +kernel

/-! ### Single steps with the results that the spec's worked cases give -/

/-- An instruction run by the wave of a small state, and a test of the wave after it. -/
def ran (f : Wave → Wave) (g : Team → Team) (i : Instr) (p : Wave → Bool) : Bool := nextHas (exec i (tState f g id)) (waveHas p)
/-- A wave with the first lanes of a vector register set. -/
def withV (r : Nat) (xs : List W32) (w : Wave) : Wave :=
  { w with regs := { w.regs with v := setAt w.regs.v r (xs ++ List.replicate (32 - xs.length) 0) } }
/-- A wave with a mask register set. -/
def withK (r : Nat) (m : Mask) (w : Wave) : Wave := { w with regs := { w.regs with k := setAt w.regs.k r m } }

/-- The worked case of R198: 2^24, 1, 1 and −2^24 reduce to 1. -/
theorem test_vred_tree :
    ran (fun w => withK 1 (BitVec.ofNat 1024 15) (withV 8 [0x4B800000, 0x3F800000, 0x3F800000, 0xCB800000] w)) id
      (.vred { g0 with hdr := { h0 with typ := .f32, msk := 1 }, dst := .s 20, a := .v 8 }) (fun w => sreg w 20 == 0x3F800000) = true := by decide +kernel

/-- The worked case of R199: lanes 5, 9 and 20 go to lanes 0, 1 and 3, past the dead lane 2, which keeps its element. -/
theorem test_vcomp_dead_lane :
    ran (fun w => withK 4 (oneLane 5 ||| oneLane 9 ||| oneLane 20) (withV 12 ((List.range 32).map (fun l => BitVec.ofNat 32 (100 + l)))
        { w with regs := { w.regs with dead := oneLane 2 } })) id
      (.vcomp { g0 with dst := .v 12, a := .v 12, b := .k 4, c := .s 18 })
      (fun w => (w.regs.v[12]?).getD [] == [105, 109, 102, 120] ++ List.replicate 28 0 && sreg w 18 == 3) = true := by decide +kernel

/-- The worked case of R210: 9.5 written to a register clamped to −8 to 8 leaves 8.0, sets bit 3 of %bflag and B in %cc. -/
theorem test_bound_clamp :
    ran (fun w => withV 5 [0x41180000] { w with regs := { w.regs with bmap := [(42, 3)] } })
      (fun t => { t with bounds := setAt t.bounds 3 { fmt := .f32, act := 2, mn := 0xC1000000, mx := 0x41000000 } })
      (.vmov { g0 with hdr := { h0 with typ := .f32 }, dst := .v 42, a := .v 5 })
      (fun w => vreg w 42 0 == 0x41000000 && w.regs.bflag == 8 && w.regs.cc.getLsbD 5) = true := by decide +kernel

/-- The commentary's conversions: 464 saturates to 448 in e4m3, with .nan 470 is a NaN, and 65,520 overflows f16. -/
theorem test_cvt_edges :
    cvtTo .e4m3 .rn false (fval (fmtOf .f32) 0x43E80000) = 0x7E ∧ cvtTo .e4m3 .rn true (fval (fmtOf .f32) 0x43EB0000) = 0x7F
    ∧ cvtTo .f16 .rn true (fval (fmtOf .f32) 0x477FF000) = 0x7E00 ∧ cvtTo .e4m3 .rn false (fval (fmtOf .f32) 0x3A83126F) = 0x01 := by decide +kernel

/-- The commentary's bp8 encodings: 0.5, 0.75, −0.375, 0.8 and 3.25. -/
theorem test_bp8_canonical :
    toBp8 (.fin false 1 (-1)) = 0x17 ∧ toBp8 (.fin false 3 (-2)) = 0x12 ∧ toBp8 (.fin true 3 (-3)) = 0xAB
    ∧ toBp8 (fval (fmtOf .f32) 0x3F4CCCCD) = 0x12 ∧ toBp8 (.fin false 13 (-2)) = 0x00 := by decide +kernel

/-- The worked encoding of R164 on 0x8000_0000: the sum wraps to 0x7FFF_FFFF with C and V set. -/
theorem test_sadd_wraps :
    ran (fun w => { w with regs := { w.regs with s := setAt w.regs.s 5 0x80000000 } }) id
      (.sadd { g0 with hdr := { h0 with typ := .i32 }, dst := .s 5, a := .s 5, b := .imm 255 })
      (fun w => sreg w 5 == 0x7FFFFFFF && w.regs.cc.getLsbD 2 && w.regs.cc.getLsbD 3 && !w.regs.cc.getLsbD 0 && !w.regs.cc.getLsbD 1) = true := by decide +kernel

/-- R166: MIN / −1 gives MIN with V. -/
theorem test_sdiv_min :
    ran (fun w => { w with regs := { w.regs with s := setAt w.regs.s 5 0xFFFFFFFF80000000 } }) id
      (.sdiv { g0 with hdr := { h0 with typ := .i32 }, dst := .s 6, a := .s 5, b := .imm 255 }) (fun w => sreg w 6 == 0xFFFFFFFF80000000) = true := by decide +kernel

/-- R52, R69: a misaligned store of every lane takes 0x08 precisely, at the first offending lane's address. -/
theorem test_store_misaligned :
    ran id id (.st { m0 with hdr := { h0 with typ := .n32 }, a := .s 37, b := .imm 0, c := .imm 1, dst := .v 0 })
      (fun w => w.hz.handler && w.ctl.pc == 0x2000 && memGets w.stack 0xFFF00 4 == [8, 0, 0, 0] && memGets w.stack 0xFFF28 2 == [0x01, 0x11]) = true := by
  decide +kernel

end Sys2Proof.Tests
end

section
/-! PROOFS. What the meanings of this family share: operands and waves of a state that a wave has been put back in, and the write-back of results
outside `Issues`. -/

namespace Sys2Proof.Machine

@[simp] theorem putWave_scalarOp (s : State) (v w : Wave) (lit : Option W64) (o : Operand) :
    scalarOp (putWave s v) w lit o = scalarOp s w lit o := by
  cases o <;> rfl

/-- The wave of an identifier after one wave is changed in place. -/
theorem findWave_modWave (s : State) (n k : Nat) (f : Wave → Wave) (hf : ∀ x, (f x).id = x.id) :
    findWave (modWave s n f) k = (findWave s k).map (fun x => if x.id = n then f x else x) := by
  simp only [findWave, modWave]
  refine find_map_keep _ _ _ (fun x => ?_)
  split <;> simp [hf]

/-- The identifier of a wave that is found. -/
theorem findWave_id {s : State} {n : Nat} {w : Wave} (h : findWave s n = some w) : w.id = n := by
  simpa using List.find?_some h

/-- A wave that is there is still there after one wave is changed in place. -/
theorem findWave_modWave_some {s : State} {n k : Nat} {f : Wave → Wave} (hf : ∀ x, (f x).id = x.id) (h : ∃ y, findWave s k = some y) :
    ∃ y, findWave (modWave s n f) k = some y := by
  obtain ⟨y, hy⟩ := h
  exact ⟨_, by rw [findWave_modWave _ _ _ _ hf, hy]; rfl⟩

/-- The write-back of a scalar result, in any state. -/
theorem writeOut_scalar (s : State) (w : Wave) (d : Nat) (x : W64) (n : Bool) :
    writeOut s w { s := [(d, x)] } n = (.done (putWave s (wroteS n w d x)), if n then some (latchOf w { s := [(d, x)] } true) else none) := by
  refine writeOut_ok rfl ((writeEff_ok (.inr rfl)).trans ?_)
  cases n <;> simp [wroteS]

/-- The write-back of a scalar result and of flags that keep D and B, in any state. -/
theorem writeOut_scalarFlags (s : State) (w : Wave) (d : Nat) (x : W64) (z n c o b : Bool) :
    ∃ l, writeOut s w { s := [(d, x)], cc := some (withFlags w.regs.cc z n c o) } b
      = (.done (putWave s (withCC (wroteS b w d x) (withFlags w.regs.cc z n c o))), l) := by
  refine ⟨_, writeOut_ok rfl ((writeEff_ok (.inr rfl)).trans ?_)⟩
  cases b <;> simp [wroteS, mergeCC_withFlags]

/-- The wave that an effect starts from, found under its own identifier. -/
theorem Issues.v_here {s : State} {w v : Wave} {i : Instr} (h : Issues s w v i) : findWave (putWave s v) v.id = some v := by
  rw [h.v_id]; exact h.v_found

/-- An effect that changes nothing. -/
theorem Issues.doesNothing {s : State} {w v : Wave} {i : Instr} {f : Body} (h : Issues s w v i) (l : Option Latch)
    (he : Sys2Proof.Machine.exec i s = issueR i s f) (hf : f (putWave s v) v = (.done (putWave s v), l)) : Does s i v :=
  h.does l he hf h.v_id rfl rfl rfl

/-- An effect that makes its wave wait, its wave as the effect found it. -/
theorem Issues.waitsHere {s t : State} {w v : Wave} {i : Instr} {f : Body} {wt : Wait} (h : Issues s w v i) (l : Option Latch)
    (he : Sys2Proof.Machine.exec i s = issueR i s f) (hf : f (putWave s v) v = (.stay t wt, l)) (ht : findWave t v.id = some v) :
    Waits s i t v.id wt := by
  rw [h.v_id] at ht ⊢
  exact h.waits l he hf ht rfl

end Sys2Proof.Machine
end

section
/-! PROOFS. What the vector rules share (R20, R175, R210): lane words of a state that a wave has been put back in, the write-back of vector
elements, and the trap of a bound register. -/

namespace Sys2Proof.Machine

/-! ### Reads -/

@[simp] theorem putWave_laneWord (s : State) (v w : Wave) (lit : Option W64) (t : Ty) (o : Operand) (l : Nat) :
    laneWord (putWave s v) w lit t o l = laneWord s w lit t o l := by
  cases o <;> rfl

@[simp] theorem putWave_vword (s : State) (v w : Wave) (g : GenW) (o : Operand) (l : Nat) : vword (putWave s v) w g o l = vword s w g o l :=
  putWave_laneWord ..

@[simp] theorem putWave_src (s : State) (v w : Wave) (g : GenW) (o : Operand) : src (putWave s v) w g o = src s w g o :=
  congrArg BitVec.toNat (putWave_scalarOp ..)

@[simp] theorem putWave_redList (s : State) (v w : Wave) (g : GenW) : redList (putWave s v) w g = redList s w g := by
  simp only [redList, putWave_vword]

/-! ### Writes -/

/-- The results of lane words are the writes of their registers (R175). -/
theorem vres_eq (d : Nat) (t : Ty) (l : List (Nat × Nat)) : vres d t l = { v := laneWrites d t l } := by
  by_cases h : tyWidth t = 64
  · simp only [vres, laneWrites, if_pos h]
  · simp only [vres, laneWrites, if_neg h]

/-- The elements of lane words that are left when some lanes write none. -/
theorem laneWrites_filter (d : Nat) (t : Ty) (m : Mask) (ls : List Nat) (f : Nat → Nat) :
    (laneWrites d t (ls.map (fun l => (l, f l)))).map (fun p => (p.1, p.2.filter (fun q => !m.getLsbD q.1)))
      = laneWrites d t ((ls.filter (fun l => !m.getLsbD l)).map (fun l => (l, f l))) := by
  have key : ∀ g : Nat → W32, ((ls.map (fun l => (l, f l))).map (fun p => (p.1, g p.2))).filter (fun q => !m.getLsbD q.1)
      = ((ls.filter (fun l => !m.getLsbD l)).map (fun l => (l, f l))).map (fun p => (p.1, g p.2)) := by
    intro g
    rw [List.map_map, List.map_map, List.filter_map]
    rfl
  by_cases h : tyWidth t = 64
  · simp only [laneWrites, if_pos h, List.map_cons, List.map_nil, key (fun x => w32 x), key (fun x => w32 (x / 2 ^ 32))]
  · simp only [laneWrites, if_neg h, List.map_cons, List.map_nil, key (fun x => w32 x)]

/-- An effect without the elements of the lanes that consume poison. -/
theorem aliveEff_map (e : Eff) : aliveEff e = { e with v := e.v.map (fun p => (p.1, p.2.filter (fun q => !e.dies.getLsbD q.1))) } := by
  by_cases h : e.dies = 0
  · have hid : (fun q : Nat × W32 => !e.dies.getLsbD q.1) = fun _ => true := by
      funext q
      simp [h]
    simp only [aliveEff, if_pos h, hid, List.filter_true, Prod.mk.eta, List.map_id']
  · simp only [aliveEff, if_neg h]

@[simp] theorem aliveEff_dies (e : Eff) : (aliveEff e).dies = e.dies := by rw [aliveEff_map]

/-- The write-back of vector elements and flags that no trap binding stops. -/
theorem writeEff_flags {t : Team} {w : Wave} {ws : List (Nat × List (Nat × W32))} {c : W32} (dies : Mask) {n : Bool} (h : boundsOk n t w ws) :
    writeEff t w { v := ws, cc := some c, dies := dies } n = .ok (withCC (wroteV n t w ws) (mergeCC (wroteV n t w ws).regs.cc c)) := by
  refine (writeEff_ok h).trans ?_
  cases n <;> simp

/-! ### Effects of which lanes may die -/

/-- The completion of an instruction whose effect is results alone, of which some lanes may consume poison (R40). -/
theorem Issues.dying {s : State} {w v x : Wave} {i : Instr} {f : Body} {e : Eff} (h : Issues s w v i)
    (he : Sys2Proof.Machine.exec i s = issueR i s f) (hf : f (putWave s v) v = writeOut (putWave s v) v e (isNwb i))
    (hx : writeEff (getTeam s v.team) v (aliveEff e) (isNwb i) = .ok x)
    (h1 : x.id = v.id) (h2 : x.ctl = v.ctl) (h3 : x.ctx = v.ctx) (h4 : x.scope = v.scope) : DoesDying s i x e.dies := by
  refine ⟨fun hd => ?_, fun _ => ?_⟩
  · rw [aliveEff_eq hd] at hx
    exact h.effect he hf hd hx h1 h2 h3 h4
  · have hw := writeOut_dies (s := putWave s v) hx
    rw [putWave_putWave _ _ _ h1.symm, aliveEff_dies] at hw
    have hfin := h.finishes _ he (hf.trans hw)
    rw [← h1] at hfin
    exact hfin

/-- The completion of an instruction whose results are vector elements and flags, and of which some lanes may consume poison. -/
theorem Issues.dyingFlags {s : State} {w v : Wave} {i : Instr} {f : Body} {ws : List (Nat × List (Nat × W32))} {c : W32} {dies : Mask}
    (h : Issues s w v i) (he : Sys2Proof.Machine.exec i s = issueR i s f)
    (hf : f (putWave s v) v = writeOut (putWave s v) v { v := ws, cc := some c, dies := dies } (isNwb i)) :
    let ws' := ws.map (fun p => (p.1, p.2.filter (fun q => !dies.getLsbD q.1)))
    boundsOk (isNwb i) (getTeam s v.team) v ws' →
    let x := wroteV (isNwb i) (getTeam s v.team) v ws'
    DoesDying s i (withCC x (mergeCC x.regs.cc c)) dies := by
  intro ws' hb x
  refine h.dying (x := withCC x (mergeCC x.regs.cc c)) he hf ?_ ?_ ?_ ?_ ?_
  · rw [aliveEff_map]
    exact writeEff_flags dies hb
  all_goals simp [x]

/-- An instruction of lane words and flags, of which the lanes of a mask consume poison, meets its rule. -/
theorem Issues.laneFlags {s : State} {w v : Wave} {i : Instr} {f : Body} {d : Nat} {t : Ty} {ls : List Nat} {word : Nat → Nat} {c : W32}
    {dies : Mask} (h : Issues s w v i) (he : Sys2Proof.Machine.exec i s = issueR i s f)
    (hf : f (putWave s v) v = writeOut (putWave s v) v { vres d t (ls.map (fun l => (l, word l))) with cc := some c, dies := dies } (isNwb i)) :
    let ws := laneWrites d t ((ls.filter (fun l => !dies.getLsbD l)).map (fun l => (l, word l)))
    boundsOk (isNwb i) (getTeam s v.team) v ws →
    let x := wroteV (isNwb i) (getTeam s v.team) v ws
    DoesDying s i (withCC x (mergeCC x.regs.cc c)) dies := by
  rw [vres_eq] at hf
  have hdy := h.dyingFlags he hf
  rw [laneWrites_filter] at hdy
  exact hdy

/-! ### Bound traps -/

/-- A write that a trap binding stops (R210). -/
theorem checkedWrite_trap {t : Team} {w : Wave} {ws : List (Nat × List (Nat × W32))} (h : trapLanes t w ws ≠ 0) :
    checkedWrite t w ws = .error (trapLanes t w ws) := by
  have hb : w.regs.bmap ≠ [] := by
    intro hb
    have hnil : ws.flatMap (fun _ => ([] : List Nat)) = [] := List.flatMap_eq_nil_iff.mpr (fun _ _ => rfl)
    exact h (by simp only [trapLanes, boundOf_unbound hb, hnil]; rfl)
  have hb' : w.regs.bmap.isEmpty = false := by simpa using hb
  simp only [checkedWrite, hb', Bool.false_eq_true, if_false, bne_iff_ne, ne_eq, h, not_false_eq_true, if_true]

/-- Outside handler mode the write-back that a trap binding stops raises 0x07 with the lanes out of bounds (R210). -/
theorem writeOut_trap {s : State} {w : Wave} {e : Eff} (hd : e.dies = 0) (hh : w.hz.handler = false)
    (h : trapLanes (getTeam s w.team) w e.v ≠ 0) :
    writeOut s w e false = (.trap s { precise 0x07 with lanes := trapLanes (getTeam s w.team) w e.v }, none) := by
  have hw : writeEff (getTeam s w.team) w e false = .error (trapLanes (getTeam s w.team) w e.v) := by
    simp only [writeEff, checkedWrite_trap h, Bool.false_eq_true, if_false]
  simp only [writeOut, aliveEff_eq hd, hw, hh, Bool.false_eq_true, if_false]

/-- A vector instruction of lane words meets the rule of bound traps. -/
theorem boundTrapRule_of {k : GenW → Instr} {f : State → Wave → GenW → Nat → Nat}
    (he : ∀ (s : State) (g : GenW), Sys2Proof.Machine.exec (k g) s = issueR (k g) s (fun x v =>
      writeOut x v (vres (vNum g.dst) g.hdr.typ ((actLanes v g).map (fun l => (l, f x v g l)))) (isNwb (k g))))
    (hs : ∀ (s : State) (v : Wave) (g : GenW) (l : Nat), f (putWave s v) v g l = f s v g l)
    (hn : ∀ g : GenW, isNwb (k g) = g.hdr.nwb) : BoundTrapRule k f := by
  intro s w v g h ws hnwb hh ht
  refine h.traps none (he s g) ?_
  simp only [hn, hnwb, hs, vres_eq]
  exact writeOut_trap rfl hh ht

/-- A vector instruction of lane words meets its rule. -/
theorem laneRule_of {k : GenW → Instr} {f : State → Wave → GenW → Nat → Nat}
    (he : ∀ (s : State) (g : GenW), Sys2Proof.Machine.exec (k g) s = issueR (k g) s (fun x v =>
      writeOut x v (vres (vNum g.dst) g.hdr.typ ((actLanes v g).map (fun l => (l, f x v g l)))) (isNwb (k g))))
    (hs : ∀ (s : State) (v : Wave) (g : GenW) (l : Nat), f (putWave s v) v g l = f s v g l)
    (hn : ∀ g : GenW, isNwb (k g) = g.hdr.nwb) : LaneRule k f := by
  intro s w v g h ws hb
  have hdoes := h.vectorOnly (ws := ws) (he s g) (by simp only [hs, vres_eq]; rfl)
  rw [hn] at hdoes
  exact hdoes hb

/-- The words of an instruction that works on each element of its type are those of the state that its wave was put back in. -/
theorem putWave_elemLane (f : GenW → Nat → Nat → Nat → Nat) (s : State) (v : Wave) (g : GenW) (l : Nat) :
    elemLane f (putWave s v) v g l = elemLane f s v g l := by
  simp only [elemLane, putWave_vword]

end Sys2Proof.Machine
end

section
/-! PROOFS. The launch mask in k0 (R19). -/

namespace Sys2Proof.Machine

/-- The bits of lanes below a number, and no other. -/
theorem maskBelow_getLsbD {n i : Nat} (h : i < 1024) : (maskBelow n).getLsbD i = decide (i < n) := by
  simp only [maskBelow, BitVec.getLsbD_ofNat, Nat.testBit_two_pow_sub_one, h, decide_true, Bool.true_and]

/-- DST of a word of the general layout, where it is a destination. -/
theorem dstOp_gen {i : Instr} {w : GenW} {o : Operand} (hl : layOf i = some (.gen w)) (h : dstOp i = some o) : w.dst = o := by
  simp only [dstOp, insOps, hl] at h
  split at h
  · simpa using h
  · cases h

/-- The same of the memory layout. -/
theorem dstOp_mem {i : Instr} {w : MemW} {o : Operand} (hl : layOf i = some (.mem w)) (h : dstOp i = some o) : w.dst = o := by
  simp only [dstOp, insOps, hl] at h
  split at h
  · simpa using h
  · cases h

/-- The same of the atomic layout. -/
theorem dstOp_atom {i : Instr} {w : AtomW} {o : Operand} (hl : layOf i = some (.atom w)) (h : dstOp i = some o) : w.dst = o := by
  simp only [dstOp, insOps, hl] at h
  split at h
  · simpa using h
  · cases h

/-- The same of the remote layout. -/
theorem dstOp_rem {i : Instr} {w : RemW} {o : Operand} (hl : layOf i = some (.rem w)) (h : dstOp i = some o) : w.dst = o := by
  simp only [dstOp, insOps, hl] at h
  split at h
  · simpa using h
  · cases h

/-- The same of the branch layout. -/
theorem dstOp_br {i : Instr} {w : BrW} {o : Operand} (hl : layOf i = some (.br w)) (h : dstOp i = some o) : w.dst = o := by
  simp only [dstOp, insOps, hl] at h
  split at h
  · simpa using h
  · cases h

/-- A word of the general layout whose entry does not permit k0 as DST is not legal with it. -/
theorem okGen_k0 {e : GenSpec} {w : GenW} (hd : w.dst = .k 0) (he : e.dst (.k 0) = false) : okGen e w = false := by
  simp only [okGen, hd, he, Bool.and_false, Bool.false_and]

/-- The same of the memory layout. -/
theorem okMem_k0 {e : MemSpec} {w : MemW} (hd : w.dst = .k 0) (he : e.dst (.k 0) = false) : okMem e w = false := by
  simp only [okMem, hd, he, Bool.and_false, Bool.false_and]

/-- The same of FENCE, whose DST is a scalar register (R228). -/
theorem okFence_k0 {w : MemW} (hd : w.dst = .k 0) : okFence w = false := by
  simp [okFence, hd, isS]

/-- The same of the atomic layout. -/
theorem okAtom_k0 {dst : Operand → Bool} {vec : AtomW → Bool} {w : AtomW} (hd : w.dst = .k 0) (he : dst (.k 0) = false) :
    okAtom dst vec w = false := by
  simp only [okAtom, hd, he, Bool.and_false, Bool.false_and]

/-- The same of PLD, whose DST is a vector or scalar register (R235). -/
theorem okRem_k0 {orders : List Order} {stream : Bool} {w : RemW} (hd : w.dst = .k 0) : okRem true orders stream w = false := by
  simp [okRem, hd, isVS, isV, isS]

/-- The same of PATOMR (R237). -/
theorem okPatom_k0 {w : AtomW} (hd : w.dst = .k 0) : okPatom true w = false := by
  simp [okPatom, hd, isVS, isV, isS]

/-- The same of the branch layout. -/
theorem okBr_k0 {dst a : Operand → Bool} {msk nwb : Bool} {w : BrW} (hd : w.dst = .k 0) (he : dst (.k 0) = false) :
    okBr dst a msk nwb w = false := by
  simp only [okBr, hd, he, Bool.and_false, Bool.false_and]

/-- An instruction that names k0 as its destination is not legal: the cases are those whose DST is no destination, the events, and then the
layouts (R19, R138). -/
theorem legal_k0 {i : Instr} (h : dstOp i = some (.k 0)) : legal i = false := by
  cases i with
  | bra | bkz | bknz | bhz | mstf | st | stb | atom | prf | sth | pst | psts | patom | copy | copym => exact absurd h nofun
  | yieldExpiry | mmaRetire | trywPeriodicRead | trywLimitExpiry | taskAccept | giveRelease | waveKill | waveRetire | waveStateMachineCheck
  | scopeQuiesceAck | slipResolve | trapDelivery | faultRecordWrite | nopreOverrun | preemption | teamRestore | binderyBatchStart
  | binderyDrainDone | binderyBatchDone | bdyDoorbell | pstsResync | engineOpStart | engineChunk | engineOpComplete | engineOpAbort | lqDoorbell
  | launchPacketRead | launchPending | teamPlacement | gridEnd | contextEndInterrupt | ctxEnd | governorWindow | coreHotMark | coreDroop
  | priPageRequest | priResponse | atsInvalidateRequest | fabCtlEn | fabricJoin | fabricPeerUpdate | planeDown | flitLinkRetry
  | fabricWritePacket | fabricReadPacket | fabricAtomicPacket | fabricAck | fabricNak | fabricResponse | fabricRtoExpiry | fabricTmoExpiry
  | netPacketArrival | netContextFetchDone | netAck | netNak | netParkResend | netRetransmitTimeout | arrayUncorrectableError
  | arrayCorrectedError | selfTestComplete | rangeLockEntryError | infieldTestDue | infieldTestEnd | watchdogFire | xbarCommitPrepare | xbarSwap
  | mpWatchdogReset | latencyWindowEnd | securityAlarm | firmwareImageVerify | pwrMode | errStatusClear | powerOn | registerWrite
  | hostBarAccess | fabricPlaneUp | fabricPacketSend | mmaLeavesArray | atsTranslationResponse | priCapabilityWrite | pwrModeChangeComplete
  | mainPowerLoss => exact absurd h nofun
  | call | loop => exact okBr_k0 (dstOp_br rfl h) rfl
  | mldf | ld | ldb | cas | ldh => exact okMem_k0 (dstOp_mem rfl h) rfl
  | fence => exact okFence_k0 (dstOp_mem rfl h)
  | atomr => exact okAtom_k0 (vec := fun w => isV w.dst) (dstOp_atom rfl h) rfl
  | pld => exact okRem_k0 (dstOp_rem rfl h)
  | patomr => exact okPatom_k0 (dstOp_atom rfl h)
  | _ => exact okGen_k0 (dstOp_gen rfl h) rfl

/-- A wave that meets a slot which holds no legal instruction takes 0x01 there (R138). -/
theorem fetchRun_illegal {s : State} {w : Wave} {e : TlbEntry} {l : List Byte} {n : Nat}
    (hp : peekLine (refetchAt s w w.ctl.pc) w w.ctl.pc = .ok (e, l)) (hn : slotIndex w.ctl.pc = some n) (hlit : isLitSlot l n = false)
    (hb : entryBad (refetchAt s w w.ctl.pc) w l n = false) (ha : arrivedBad w l n = false) (hi : slotIns l n = none) :
    fetchRun s w = .next (
      let x : Wave := { enterLine w l with ctl := { (enterLine w l).ctl with fresh := false, needTgt := false } }
      illegalWord (putWave (cacheLine (refetchAt s w w.ctl.pc) w.core e w.ctl.pc l) x) x (slotWord l n)) := by
  simp only [fetchRun, hp, hn, hlit, hb, ha, hi, Bool.or_self, Bool.false_eq_true, if_false]

/-- Settles O6: k0 as the start and the two restorations give it, and no word that writes it is legal. -/
theorem launchMaskFixed : Obligations.LaunchMaskFixed := by
  unfold Obligations.LaunchMaskFixed
  refine ⟨?_, ?_, ?_, ?_, ?_, ?_⟩
  · exact fun _ _ _ _ _ _ _ _ _ _ _ _ _ _ _ _ hi => maskBelow_getLsbD hi
  · exact fun v m => if_pos rfl
  · intro w l free
    simp [liveRegs, kreg]
  · exact fun _ _ _ _ hi => maskBelow_getLsbD hi
  · exact fun i h => legal_k0 h
  · exact fun s w e l n _ _ hp hn hlit hb ha hi => fetchRun_illegal hp hn hlit hb ha hi

end Sys2Proof.Machine
end

section
/-! PROOFS. The cross-lane and data-shaping group (R40, R195 to R206). -/

namespace Sys2Proof.Machine

/-- Whether a lane that reads lane `p`, if any, consumes poison (R40). -/
def readsPoison (v : Wave) (o : Operand) (n : Nat) (p : Option Nat) : Bool := p.elim false (crossPoison v o n)

/-- The lanes that consume poison are those that read a lane which holds it (R40). -/
theorem consumers_eq (v : Wave) (g : GenW) (o : Operand) (n : Nat) (f : Nat → Option Nat) :
    consumers v g o n f = maskOf ((actLanes v g).filter (fun l => readsPoison v o n (f l))) := by
  unfold consumers
  congr 1
  apply List.filter_congr
  intro l _
  cases f l with
  | none => rfl
  | some p => cases o <;> rfl

/-- The word that a read across lanes gives: zero from no lane, a dead one, or one at or above W (R194). -/
def crossWord (v : Wave) (word : Nat → Nat) (p : Option Nat) : Nat := p.elim 0 (crossRead v word)

/-- What a cross-lane instruction gives: its words, D where it reads a dead lane, and the lanes that consume poison (R40, R194). -/
theorem shuffle_eq (i : Instr) (g : GenW) (s : State) (f : State → Wave → Nat → Option Nat) :
    shuffle i g s f = issueEff i s (fun s v =>
      { vres (vNum g.dst) g.hdr.typ ((actLanes v g).map (fun l => (l, crossWord v (vword s v g g.a) (f s v l)))) with
        cc := some (setD v.regs.cc ((actLanes v g).any (fun l => (f s v l).elim false (crossDead v)))),
        dies := consumers v g g.a (regsOf g.hdr.typ) (f s v) }) := by
  simp only [shuffle, consumers_eq, vres_eq]
  refine congrArg (issueEff i s) (funext fun s => funext fun v => ?_)
  congr 1
  · refine congrArg _ (List.map_congr_left fun l _ => ?_)
    cases f s v l <;> rfl
  · congr 3
    funext l
    cases f s v l <;> rfl
  · congr 2
    funext l
    cases f s v l <;> rfl

/-- A read across lanes meets its rule: lanes that read poison die, and D is set when a dead lane is read (R40, R194). -/
theorem shuffleRule_of {k : GenW → Instr} {f : State → Wave → GenW → Nat → Option Nat}
    (he : ∀ (s : State) (g : GenW), Sys2Proof.Machine.exec (k g) s = shuffle (k g) g s (fun x v => f x v g))
    (hs : ∀ (s : State) (v : Wave) (g : GenW), f (putWave s v) v g = f s v g)
    (hn : ∀ g : GenW, isNwb (k g) = g.hdr.nwb) : ShuffleRule k f := by
  intro s w v g h dies word ws hb x cc
  have hrule := h.laneFlags (d := vNum g.dst) (t := g.hdr.typ) (ls := actLanes v g) (word := word) (c := cc) (dies := dies)
    ((he s g).trans (shuffle_eq ..)) ?_
  · rw [hn] at hrule
    exact hrule hb
  · have hv : vword (putWave s v) v g g.a = vword s v g g.a := funext (putWave_vword s v v g g.a)
    have hword : word = fun l => crossWord v (vword s v g g.a) (f s v g l) := by
      funext l
      simp only [word]
      cases f s v g l <;> rfl
    have hcc : setD v.regs.cc ((actLanes v g).any (fun l => (f s v g l).elim false (crossDead v))) = cc := by
      simp only [cc, setD]
      congr 3
      funext l
      cases f s v g l <;> rfl
    simp only [hs, hv, hword, hcc, dies]

/-- An instruction of lane words and flags, of which lanes may consume poison, meets its rule. -/
theorem laneFlagRule_of {k : GenW → Instr} {f : State → Wave → GenW → Nat → Nat} {cc : State → Wave → GenW → W32} {dies : Wave → GenW → Mask}
    (he : ∀ (s : State) (g : GenW), Sys2Proof.Machine.exec (k g) s = issueEff (k g) s (fun s v =>
      { vres (vNum g.dst) g.hdr.typ ((actLanes v g).map (fun l => (l, f s v g l))) with cc := some (cc s v g), dies := dies v g }))
    (hf : ∀ (s : State) (v : Wave) (g : GenW) (l : Nat), f (putWave s v) v g l = f s v g l)
    (hc : ∀ (s : State) (v : Wave) (g : GenW), cc (putWave s v) v g = cc s v g)
    (hn : ∀ g : GenW, isNwb (k g) = g.hdr.nwb) : LaneFlagRule k f cc dies := by
  intro s w v g h ws hb x
  have hrule := h.laneFlags (d := vNum g.dst) (t := g.hdr.typ) (ls := actLanes v g) (word := f s v g) (c := cc s v g) (dies := dies v g)
    (he s g) (by simp only [hf, hc])
  rw [hn] at hrule
  exact hrule hb

/-- The vscaLane and added elements of a lane of VSCA; the lanes of a vector scale are read across lanes (R206). -/
def vscaLane (s : State) (v : Wave) (g : GenW) (l : Nat) : Nat :=
  let vecB := isVec g.b || g.b == .sp .lane
  let bw (x : Nat) : Nat := laneWord s v g.hdr.lit .f32 g.b x
  let sc := fval (fmtOf .f32) (signMod g 1 (fmtOf .f32) (if vecB then crossRead v bw (l / 2 ^ g.opx.toNat) else bw l))
  eachElem g.hdr.typ (fun j => roundTo (fmtOf g.hdr.typ) g.rm (ffma g.rm
    (felem g 0 (subElem (tyWidth g.hdr.typ) (vword s v g g.a l) j)) sc (felem g 2 (subElem (tyWidth g.hdr.typ) (vword s v g g.c l) j))))

/-- A vector scale of VSCA consumes poison as any read across lanes (R40, R206). -/
theorem execVsca_eq (g : GenW) (s : State) :
    execVsca g s = issueEff (.vsca g) s (fun s v =>
      { vres (vNum g.dst) g.hdr.typ ((actLanes v g).map (fun l => (l, vscaLane s v g l))) with
        cc := some (setD v.regs.cc ((isVec g.b || g.b == .sp .lane) && (actLanes v g).any (fun l => crossDead v (l / 2 ^ g.opx.toNat)))),
        dies := consumers v g g.b 1 (fun l => some (l / 2 ^ g.opx.toNat)) }) := by
  simp only [consumers_eq]
  refine congrArg (issueEff _ s) (funext fun s => funext fun v => ?_)
  rfl

/-- The write-back of vector elements, one more scalar and flags, that no trap binding stops. -/
theorem writeEff_extra {t : Team} {w : Wave} {ws : List (Nat × List (Nat × W32))} {d : Nat} {x : W64} {c : W32} {n : Bool}
    (h : boundsOk n t w ws) : writeEff t w { v := ws, extra := [(d, x)], cc := some c } n
      = .ok (withCC (setS (wroteV n t w ws) d x) (mergeCC (wroteV n t w ws).regs.cc c)) := by
  refine (writeEff_ok h).trans ?_
  cases n <;> simp

/-- The write-back of vector elements alone, that no trap binding stops. -/
theorem writeEff_vector {t : Team} {w : Wave} {ws : List (Nat × List (Nat × W32))} {n : Bool} (h : boundsOk n t w ws) :
    writeEff t w { v := ws } n = .ok (wroteV n t w ws) := by
  refine (writeEff_ok h).trans ?_
  cases n <;> simp

/-- What a vote finds in the words of the lanes of act (R202): some not zero, all not zero, all equal. -/
def voteOf (op : Nat) (xs : List Nat) : Bool :=
  match op with
  | 0 => xs.any (· != 0)
  | 1 => xs.all (· != 0)
  | _ => match xs with | [] => true | x :: r => r.all (· == x)

/-- VVOTE writes its vote as 0 or 1, with flag Z (R202). -/
theorem execVvote_eq (g : GenW) (s : State) : execVvote g s = issueEff (.vvote g) s (fun s v =>
    let r := voteOf g.opx.toNat ((actLanes v g).map (fun l => vword s v g g.a l))
    { s := [(sNum g.dst, w64 (b2n r))], cc := some (ccZ v.regs.cc (!r)) }) := rfl

/-- A Boolean as a word. -/
theorem w64_b2n (b : Bool) : w64 (b2n b) = if b then 1 else 0 := by cases b <;> rfl

/-- Settles O17: the shuffles and VSCA by the rules of reads across lanes, VSCAN and VEXPD by the rule of lane words, and the others by their
results. -/
theorem crossLaneCompletes : Obligations.CrossLaneCompletes := by
  unfold Obligations.CrossLaneCompletes
  refine ⟨?_, ?_, ?_, ?_, ?_, ?_, ?_, ?_, ?_, ?_, ?_⟩
  · refine shuffleRule_of (fun _ _ => rfl) (fun s v g => ?_) (fun _ => rfl)
    funext l
    rw [putWave_laneWord]
  · refine shuffleRule_of (fun _ _ => rfl) (fun s v g => ?_) (fun _ => rfl)
    simp only [putWave_src]
  · refine shuffleRule_of (fun _ _ => rfl) (fun s v g => ?_) (fun _ => rfl)
    simp only [putWave_src]
  · refine laneFlagRule_of (fun s g => execVsca_eq g s) (fun s v g l => ?_) (fun _ _ _ => rfl) (fun _ => rfl)
    simp only [putWave_laneWord, putWave_vword]
  · intro s w v g h l
    refine h.scalarOnly rfl ?_
    simp only [putWave_redList]
    rfl
  · refine laneRule_of (fun _ _ => rfl) (fun s v g l => ?_) (fun _ => rfl)
    simp only [putWave_redList]
  · intro s w v g h sel dst cnt ws hb x
    refine h.effect (e := { v := ws, extra := [(sNum g.c, w64 cnt)], cc := some (withFlags v.regs.cc (cnt == 0) false false
      (decide (dst.length < sel.length))) }) rfl ?_ rfl (writeEff_extra hb) ?_ ?_ ?_ ?_
    · simp only [putWave_vword, vres_eq]
      rfl
    all_goals simp [x]
  · refine laneRule_of (fun _ _ => rfl) (fun s v g l => ?_) (fun _ => rfl)
    simp only [putWave_vword]
  · intro s w v g h xs r
    have hr : voteOf g.opx.toNat xs = r := rfl
    refine h.scalarFlags (execVvote_eq g s) ?_
    simp only [putWave_vword, w64_b2n, ← hr]
    rfl
  · intro s w v g h ws v1 hb
    have hw := writeOut_ok (s := putWave s v) (w := v1) (e := { v := ws }) rfl (writeEff_vector hb)
    have hid : v.id = (wroteV g.hdr.nwb (getTeam (putWave s v) v1.team) v1 ws).id := (wroteV_id _ _ v1 _).symm
    rw [putWave_putWave s v _ hid] at hw
    refine h.does _ rfl hw ((wroteV_id ..).trans h.v_id) ?_ ?_ ?_ <;> simp [v1]
  · intro s w v g h
    refine h.does none rfl ?_ h.v_id rfl rfl rfl
    simp only [putWave_scalarOp]
    exact congrArg (fun t => (Out.done t, none)) (putWave_putWave s v _ rfl)

end Sys2Proof.Machine
end

section
/-! PROOFS. MMA at its issue (R40, R208, R209, R214, R216, R287). -/

namespace Sys2Proof.Machine

/-- The lanes of its leader that consume poison at the issue of an MMA: those that hold it in A or B, or in a C that is read (R40, R216). -/
def mmaPoison (s : State) (v : Wave) (g : GenW) : Mask :=
  fragPoison v ([(vNum g.a, fragRegs g.opx.toNat 0), (vNum g.b, fragRegs g.opx.toNat 1)]
    ++ (if (chainOf s v (.mma g)).isSome then [] else [(vNum g.c, fragRegs g.opx.toNat 2)]))

/-- The operation that an MMA puts in the array queue of its pair. -/
def mmaEntry (s : State) (v t : Wave) (g : GenW) : MmaOp :=
  let n := g.opx.toNat
  let ch := chainOf s v (.mma g)
  { id := s.nextId, leader := v.id, twin := t.id, pair := pairOf v.core, shape := n, ta := g.hdr.typ, tb := g.ty2, d := vNum g.dst,
    a := vNum g.a, b := vNum g.b, c := vNum g.c, srcA := regRows v (vNum g.a) (fragRegs n 0), srcB := regRows v (vNum g.b) (fragRegs n 1),
    srcC := regRows v (vNum g.c) (fragRegs n 2), dead := v.regs.dead ||| mmaPoison s v g, chained := ch.map (·.id),
    inner := (match ch with | some m => if m.left then m.inner else none | none => none), started := true, left := false,
    lazyLeft := g.hdr.dsc != 0, bindsL := v.regs.bmap, bindsT := t.regs.bmap, bounds := (getTeam s v.team).bounds }

/-- The state of the device once an MMA is in the array queue, with its unit taken (R287). -/
def mmaQueued (s : State) (v t : Wave) (g : GenW) : State :=
  takeUnit { s with mmas := s.mmas ++ [mmaEntry s v t g], nextId := s.nextId + 1 } (pairOf v.core)

/-- The lazy read of an MMA that claims a slot (R130). -/
def mmaLazies (s : State) (v : Wave) (g : GenW) : List LazyRead :=
  if g.hdr.dsc = 0 then []
  else [{ slot := g.hdr.dsc.toNat, ins := .mma g, target := .mma s.nextId, oldS := [], whole := false,
          oldV := ([(vNum g.a, fragRegs g.opx.toNat 0), (vNum g.b, fragRegs g.opx.toNat 1), (vNum g.c, fragRegs g.opx.toNat 2)].flatMap
            (fun p => (List.range p.2).map (fun k => (p.1 + k, (v.regs.v[p.1 + k]?).getD [])))) }]

/-- The leader of an MMA, its lazy read noted. -/
def mmaLeading (s : State) (v : Wave) (g : GenW) : Wave := { v with hz := { v.hz with lazies := v.hz.lazies ++ mmaLazies s v g } }

/-- The state in which the effect of an MMA ends. -/
def mmaIssued (s : State) (v t : Wave) (g : GenW) : State :=
  markDead (putWave (mmaQueued s v t g) (mmaLeading s v g)) v.id (mmaPoison s v g)

/-- A unit taken changes no wave and no context. -/
theorem takeUnit_keeps (s : State) (pair : Nat) : (takeUnit s pair).waves = s.waves ∧ (takeUnit s pair).ctxs = s.ctxs := by
  unfold takeUnit
  split <;> exact ⟨rfl, rfl⟩

/-- A unit taken in a state that a wave has been put back in. -/
theorem takeUnit_putWave (s : State) (v : Wave) (pair : Nat) : takeUnit (putWave s v) pair = putWave (takeUnit s pair) v := by
  unfold takeUnit
  by_cases h : s.govEn = true
  · rw [if_pos h, if_pos (by exact h)]; rfl
  · rw [if_neg h, if_neg (by exact h)]

/-- The effect of an MMA that passes its checks with a unit free: it is issued; its wave stays at it where a trap binding is to be checked, unless it
retires (R216). -/
theorem mmaBody_eq {s : State} {v t : Wave} {g : GenW} (hok : mmaOk g (putWave s v) v = some t) (hu : unitFree s (pairOf v.core) = true) :
    mmaBody g (putWave s v) v =
      if (trapBound s v (vNum g.dst) (fragRegs g.opx.toNat 2) || trapBound s t (vNum g.dst) (fragRegs g.opx.toNat 2))
        && !retires (mmaIssued s v t g) v.id then .stay (mmaIssued s v t g) (.mmaCheck s.nextId) else .done (mmaIssued s v t g) := by
  have hu' : unitFree (putWave s v) (pairOf v.core) = true := hu
  have hq : takeUnit { putWave s v with mmas := s.mmas ++ [mmaEntry s v t g], nextId := s.nextId + 1 } (pairOf v.core)
      = putWave (mmaQueued s v t g) v :=
    takeUnit_putWave { s with mmas := s.mmas ++ [mmaEntry s v t g], nextId := s.nextId + 1 } v _
  have hi : markDead (modWave (takeUnit { putWave s v with mmas := s.mmas ++ [mmaEntry s v t g], nextId := s.nextId + 1 } (pairOf v.core)) v.id
      (fun x => { x with hz := { x.hz with lazies := x.hz.lazies ++ mmaLazies s v g } })) v.id (mmaPoison s v g) = mmaIssued s v t g := by
    rw [hq, modWave_putWave (mmaQueued s v t g) v (fun x => { x with hz := { x.hz with lazies := x.hz.lazies ++ mmaLazies s v g } }) rfl]
    rfl
  simp only [mmaBody, hok, hu', Bool.not_true, Bool.false_eq_true, if_false]
  rw [← hi]
  rfl

/-- The slot and the target of the lazy read of an MMA that claims one (R130). -/
theorem mmaLazies_claimed {s : State} {v : Wave} {g : GenW} (h : g.hdr.dsc ≠ 0) :
    ∃ y, mmaLazies s v g = [y] ∧ y.slot = g.hdr.dsc.toNat ∧ y.target = .mma s.nextId :=
  ⟨_, if_neg h, rfl, rfl⟩

/-- No lane of an MMA that reads no poison dies. -/
theorem mmaIssued_clean {s : State} {v t : Wave} {g : GenW} (h : mmaPoison s v g = 0) :
    mmaIssued s v t g = putWave (mmaQueued s v t g) (mmaLeading s v g) := by
  rw [mmaIssued, h, markDead_zero]

section
variable {s : State} {w v t : Wave} {g : GenW} (h : Issues s w v (.mma g)) (hok : mmaOk g (putWave s v) v = some t)
  (hu : unitFree s (pairOf v.core) = true)
include h

/-- The leader of an MMA just issued is found in the state in which it waits or goes on. -/
theorem mmaLeading_found : findWave (putWave (mmaQueued s v t g) (mmaLeading s v g)) w.id = some (mmaLeading s v g) := by
  refine findWave_putWave ?_ h.v_id
  simp only [findWave, mmaQueued, (takeUnit_keeps _ _).1]
  exact h.found

/-- A leader no lane of which dies at the issue of its MMA does not retire there. -/
theorem mma_notRetires (hp : mmaPoison s v g = 0) : retires (mmaIssued s v t g) v.id = false := by
  rw [mmaIssued_clean hp, h.v_id]
  simp only [retires, mmaLeading_found h]
  simpa [mmaLeading] using h.v_live.1

/-- The scope of the leader is not cancelled once its MMA is issued. -/
theorem mmaLeading_alive : scopeCancelled (getCtx (putWave (mmaQueued s v t g) (mmaLeading s v g)) (mmaLeading s v g).ctx) (mmaLeading s v g).scope
    = false := by
  have hc : getCtx (mmaQueued s v t g) v.ctx = getCtx s v.ctx := by simp only [getCtx, mmaQueued, (takeUnit_keeps _ _).2]
  change scopeCancelled (getCtx (mmaQueued s v t g) v.ctx) v.scope = false
  rw [hc]
  exact h.v_alive

include hok hu

omit h in
/-- An MMA with no trap binding to check is done. -/
theorem mma_done (hb : ¬ (trapBound s v (vNum g.dst) (fragRegs g.opx.toNat 2) = true ∨ trapBound s t (vNum g.dst) (fragRegs g.opx.toNat 2) = true)) :
    mmaBody g (putWave s v) v = .done (mmaIssued s v t g) := by
  obtain ⟨h1, h2⟩ := not_or.mp hb
  simp [mmaBody_eq hok hu, h1, h2]

/-- It goes on, where no lane of it dies. -/
theorem mma_makes (hb : ¬ (trapBound s v (vNum g.dst) (fragRegs g.opx.toNat 2) = true ∨ trapBound s t (vNum g.dst) (fragRegs g.opx.toNat 2) = true))
    (hp : mmaPoison s v g = 0) : Makes s (.mma g) (mmaQueued s v t g) (mmaLeading s v g) := by
  have hd := mma_done hok hu hb
  rw [mmaIssued_clean hp] at hd
  obtain ⟨x, l, hx, hl, he⟩ := h.ends none rfl (congrArg (·, none) hd) (mmaLeading_found h) h.v_live (.inr (mmaLeading_alive h))
  rw [mmaLeading_found h] at hx
  cases hx
  exact ⟨l, hl, by rw [he, putWave_putWave _ _ _ (stepPast_id _ _ _).symm]⟩

/-- It waits at its instruction, where a trap binding is to be checked and no lane of it dies. -/
theorem mma_waits (hb : trapBound s v (vNum g.dst) (fragRegs g.opx.toNat 2) = true ∨ trapBound s t (vNum g.dst) (fragRegs g.opx.toNat 2) = true)
    (hp : mmaPoison s v g = 0) :
    Waits s (.mma g) (putWave (mmaQueued s v t g) (mmaLeading s v g)) v.id (.mmaCheck s.nextId) := by
  have hb' : (trapBound s v (vNum g.dst) (fragRegs g.opx.toNat 2) || trapBound s t (vNum g.dst) (fragRegs g.opx.toNat 2)) = true := by
    simpa using hb
  have hs : mmaBody g (putWave s v) v = .stay (mmaIssued s v t g) (.mmaCheck s.nextId) := by
    simp only [mmaBody_eq hok hu, hb', mma_notRetires h hp, Bool.not_false, Bool.and_self, if_true]
  rw [mmaIssued_clean hp] at hs
  rw [h.v_id]
  exact h.waits none rfl (congrArg (·, none) hs) (mmaLeading_found h) rfl

end

/-- Settles O26: the operation that is queued, and the three ways in which its leader goes on. -/
theorem mmaCompletes : Obligations.MmaCompletes := by
  unfold Obligations.MmaCompletes
  intro s w v t g h hok hu n ch pm op u traps
  refine ⟨mmaLazies s v g, fun hd => if_pos hd, mmaLazies_claimed, fun hb hp => ?_, fun hb => ?_, fun hb hp => ?_⟩
  · exact mma_makes h hok hu hb hp
  · exact h.finishes none rfl (congrArg (·, none) (mma_done hok hu hb))
  · exact mma_waits h hok hu hb hp

end Sys2Proof.Machine
end

section
/-! PROOFS. MMAs that leave the array and retire (R40, R208 to R210, R215, R216). -/

namespace Sys2Proof.Machine

/-- The wave of a write under a snapshot is the wave it was (R208 to R210). -/
theorem wroteSnap_keeps (t : Team) (v : Wave) (k : Snap) (ws : List (Nat × List (Nat × W32))) :
    (wroteSnap t v k ws).id = v.id ∧ (wroteSnap t v k ws).ctl = v.ctl := by
  simp only [wroteSnap, wroteV, noteFlags, Bool.false_eq_true, if_false]
  split <;> exact ⟨rfl, rfl⟩

/-- A write under a snapshot that no trap binding stops. -/
theorem snapWrite_ok {t : Team} {v : Wave} {k : Snap} {ws : List (Nat × List (Nat × W32))}
    (h : trapLanes { t with bounds := k.2 } { v with regs := { v.regs with bmap := k.1 } } ws = 0) :
    snapWrite t v (some k) ws = .ok (wroteSnap t v k ws) := by
  simp only [snapWrite, checkedWrite_ok h]
  rfl

/-- A write that leaves no lane out is the write. -/
theorem filter_noLane (ws : List (Nat × List (Nat × W32))) :
    ws.map (fun p => (p.1, p.2.filter (fun q => !(0 : Mask).getLsbD q.1))) = ws := by
  simp

/-- One half of a result that no lane is out of bounds in is written whole. -/
theorem mmaPut_ok {s : State} {n d : Nat} {k : Snap} {v : Wave} {rows : List (List W32)} (hv : findWave s n = some v)
    (hb : mmaBad s n k d rows = 0) :
    mmaPut s n k (mmaWrites v d rows) 0 = putWave s (wroteSnap (getTeam s v.team) v k (mmaWrites v d rows)) := by
  simp only [mmaBad, hv] at hb
  simp only [mmaPut, hv, filter_noLane, snapWrite_ok hb]

/-- Another wave put back is nothing to the check of a half. -/
theorem mmaBad_putWave_other {s : State} {x : Wave} {n d : Nat} {k : Snap} {rows : List (List W32)} (h : n ≠ x.id) :
    mmaBad (putWave s x) n k d rows = mmaBad s n k d rows := by
  simp only [mmaBad, findWave_putWave_other h, putWave_getTeam]

/-- A leader that does not wait at its MMA is not checked. -/
theorem mmaChecked_idle {s : State} {m : MmaOp} {v : Wave} {bad : Mask} (hv : findWave s m.leader = some v) (h : v.ctl.wait ≠ .mmaCheck m.id) :
    mmaChecked s m bad = s := by
  simp only [mmaChecked, hv]
  exact if_pos h

/-- A leader that waits at its MMA, and is in no handler, takes 0x07 there (R210, R216). -/
theorem mmaChecked_traps {s : State} {m : MmaOp} {v : Wave} {bad : Mask} {i : Instr} (hv : findWave s m.leader = some v)
    (hw : v.ctl.wait = .mmaCheck m.id) (hh : v.hz.handler = false) (hi : insAt s v v.ctl.pc = some i) (hb : bad ≠ 0) :
    mmaChecked s m bad = precisely s v i { precise 0x07 with lanes := bad } := by
  have hne : ¬ (bad = 0 ∨ v.hz.handler = true) := by
    rw [hh]
    exact fun h => h.elim hb (by decide)
  simp only [mmaChecked, hv, hi, Option.getD_some]
  rw [if_neg (not_not_intro hw), if_neg hne]

/-- A state after the results of an MMA have been written in its leader and its twin. -/
def halvesPut (s : State) (m : MmaOp) (vL vT : Wave) (rL rT : List (List W32)) : State :=
  putWave (putWave s (wroteSnap (getTeam s vL.team) vL (m.bindsL, m.bounds) (mmaWrites vL m.d rL)))
    (wroteSnap (getTeam s vT.team) vT (m.bindsT, m.bounds) (mmaWrites vT m.d rT))

section
variable {s : State} {m : MmaOp} {rL rT : List (List W32)} {vL vT : Wave} (hL : findWave s m.leader = some vL) (hT : findWave s m.twin = some vT)
  (hne : vL.id ≠ vT.id)
include hL hT hne

/-- Both halves of a result that no lane is out of bounds in are written whole, the leader's first. -/
theorem halvesPut_eq (hbL : mmaBad s m.leader (m.bindsL, m.bounds) m.d rL = 0) (hbT : mmaBad s m.twin (m.bindsT, m.bounds) m.d rT = 0) :
    mmaPut (mmaPut s m.leader (m.bindsL, m.bounds) (mmaWrites vL m.d rL) 0) m.twin (m.bindsT, m.bounds) (mmaWrites vT m.d rT) 0
      = halvesPut s m vL vT rL rT := by
  have hTL : m.twin ≠ (wroteSnap (getTeam s vL.team) vL (m.bindsL, m.bounds) (mmaWrites vL m.d rL)).id := by
    rw [(wroteSnap_keeps _ _ _ _).1, ← findWave_id hT]
    exact hne.symm
  rw [mmaPut_ok hL hbL, mmaPut_ok ((findWave_putWave_other hTL).trans hT) ((mmaBad_putWave_other hTL).trans hbT)]
  rfl

omit hT in
/-- The leader whose half has been written is at the place, and in the wait, in which it was. -/
theorem halvesPut_leader : ∃ x, findWave (halvesPut s m vL vT rL rT) m.leader = some x ∧ x.ctl = vL.ctl := by
  have hLT : m.leader ≠ (wroteSnap (getTeam s vT.team) vT (m.bindsT, m.bounds) (mmaWrites vT m.d rT)).id := by
    rw [(wroteSnap_keeps _ _ _ _).1, ← findWave_id hL]
    exact hne
  have hx := wroteSnap_keeps (getTeam s vL.team) vL (m.bindsL, m.bounds) (mmaWrites vL m.d rL)
  refine ⟨_, (findWave_putWave_other hLT).trans ?_, hx.2⟩
  have hid : vL.id = m.leader := findWave_id hL
  have hf : findWave s vL.id = some vL := by rw [hid, hL]
  rw [← hid, findWave_putWave hf hx.1]

end

/-- The state of the device without an MMA that retires. -/
def mmaGone (s : State) (m : MmaOp) : State := { s with mmas := s.mmas.filter (fun x => x.id != m.id) }

/-- The lanes of both halves that a retirement finds out of bounds. -/
def mmaBads (s : State) (m : MmaOp) (rL rT : List (List W32)) : Mask :=
  mmaBad s m.leader (m.bindsL, m.bounds) m.d rL ||| (mmaBad s m.twin (m.bindsT, m.bounds) m.d rT <<< 128)

section
variable {s : State} {m : MmaOp} {rL rT : List (List W32)} {vL vT : Wave}

/-- MMA_LEAVES_ARRAY of the first MMA of its pair whose sources have been read. -/
theorem mmaLeaves_eq (hm : s.mmas.find? (fun x => x.id == m.id) = some m) (hl : m.left = false) (hz : m.lazyLeft = false)
    (hb : ∀ x ∈ mmasBefore s m, x.left = true) :
    execMmaLeavesArray m.id s = .next
      { markDead s m.twin (twinPoison s m) with
        mmas := (markDead s m.twin (twinPoison s m)).mmas.map (fun x =>
          if x.id = m.id then { x with left := true, inner := some (mmaResult (markDead s m.twin (twinPoison s m)) m) }
          else if x.chained = some m.id then { x with inner := some (mmaResult (markDead s m.twin (twinPoison s m)) m) } else x) } := by
  have hall : (mmasBefore s m).all (·.left) = true := List.all_eq_true.mpr hb
  simp only [execMmaLeavesArray, hm, hl, hz, hall, Bool.or_self, Bool.not_true, Bool.false_eq_true, if_false]

variable (hm : s.mmas.find? (fun x => x.id == m.id) = some m) (hr : m.inner = some (rL, rT)) (hl : m.left = true) (hb : mmasBefore s m = [])
  (hL : findWave s m.leader = some vL)
include hm hr hl hb hL

/-- MMA_RETIRE that finds no lane out of bounds: both halves are written, and the leader is checked. -/
theorem mmaRetire_writes (hT : findWave s m.twin = some vT) (h0 : mmaBads (mmaGone s m) m rL rT = 0) :
    execMmaRetire m.id s = .next (releaseTwin (mmaChecked
      (mmaPut (mmaPut (mmaGone s m) m.leader (m.bindsL, m.bounds) (mmaWrites vL m.d rL) 0) m.twin (m.bindsT, m.bounds) (mmaWrites vT m.d rT) 0)
      m 0) m.twin) := by
  have hL' : findWave { s with mmas := s.mmas.filter (fun x => x.id != m.id) } m.leader = some vL := hL
  have hT' : findWave { s with mmas := s.mmas.filter (fun x => x.id != m.id) } m.twin = some vT := hT
  simp only [mmaBads, mmaGone] at h0
  simp only [execMmaRetire, hm, hr, hl, hb, hL', hT', h0, Bool.not_true, List.isEmpty_nil, Bool.or_self, Bool.false_eq_true, if_false, if_true]
  rfl

/-- MMA_RETIRE that finds a lane out of bounds: neither half is written, and the leader is checked. -/
theorem mmaRetire_stops (hh : vL.hz.handler = false) (h0 : mmaBads (mmaGone s m) m rL rT ≠ 0) :
    execMmaRetire m.id s = .next (releaseTwin (mmaChecked (mmaGone s m) m (mmaBads (mmaGone s m) m rL rT)) m.twin) := by
  have hL' : findWave { s with mmas := s.mmas.filter (fun x => x.id != m.id) } m.leader = some vL := hL
  simp only [mmaBads, mmaGone] at h0
  simp only [execMmaRetire, hm, hr, hl, hb, hL', hh, h0, Bool.not_true, List.isEmpty_nil, Bool.or_self, Bool.false_eq_true, if_false]
  rfl

/-- An MMA of which no lane is out of bounds retires with both its halves written, where its leader does not wait at it (R215). -/
theorem mmaRetires_written (hT : findWave s m.twin = some vT) (hne : vL.id ≠ vT.id) (hw : ∀ op, vL.ctl.wait ≠ .mmaCheck op)
    (hbL : mmaBad s m.leader (m.bindsL, m.bounds) m.d rL = 0) (hbT : mmaBad s m.twin (m.bindsT, m.bounds) m.d rT = 0) :
    execMmaRetire m.id s = .next (releaseTwin (halvesPut (mmaGone s m) m vL vT rL rT) m.twin) := by
  have hgL : findWave (mmaGone s m) m.leader = some vL := hL
  have hgT : findWave (mmaGone s m) m.twin = some vT := hT
  have hgbL : mmaBad (mmaGone s m) m.leader (m.bindsL, m.bounds) m.d rL = 0 := hbL
  have hgbT : mmaBad (mmaGone s m) m.twin (m.bindsT, m.bounds) m.d rT = 0 := hbT
  have h0 : mmaBads (mmaGone s m) m rL rT = 0 := by
    rw [mmaBads, hgbL, hgbT, show (0 : Mask) <<< 128 = 0 from BitVec.zero_shiftLeft _]
    exact BitVec.or_self
  obtain ⟨x, hx, hc⟩ := halvesPut_leader hgL hne (rL := rL) (rT := rT)
  rw [mmaRetire_writes hm hr hl hb hL hT h0, halvesPut_eq hgL hgT hne hgbL hgbT, mmaChecked_idle hx (by rw [hc]; exact hw m.id)]

end

/-- Settles O27: the result of an MMA that leaves the array, and the two ways in which it retires. -/
theorem mmaEventsComplete : Obligations.MmaEventsComplete := by
  unfold Obligations.MmaEventsComplete
  refine ⟨fun s m hm hl hz hb => mmaLeaves_eq hm hl hz hb, fun s m rL rT vL vT hm hr hl hb hL hT hne hw hbL hbT => ?_,
    fun s m rL rT vL i hm hr hl hb hL hw hh hi h0 => ?_⟩
  · exact mmaRetires_written hm hr hl hb hL hT hne hw hbL hbT
  · have hL' : findWave (mmaGone s m) m.leader = some vL := hL
    exact (mmaRetire_stops hm hr hl hb hL hh h0).trans (congrArg (fun x => Host.Outcome.next (releaseTwin x m.twin)) (mmaChecked_traps hL' hw hh hi h0))

end Sys2Proof.Machine
end

section
/-! PROOFS. MSCA and MTRN (R40, R217, R218). -/

namespace Sys2Proof.Machine

/-- The writes of a block of registers, without the elements of the lanes of a mask. -/
theorem blockWrites_filter (d n : Nat) (m : Mask) (ls : List Nat) (f : Nat → Nat → W32) :
    ((List.range n).map (fun j => (d + j, ls.map (fun l => (l, f j l))))).map (fun p => (p.1, p.2.filter (fun q => !m.getLsbD q.1)))
      = (List.range n).map (fun j => (d + j, (ls.filter (fun l => !m.getLsbD l)).map (fun l => (l, f j l)))) := by
  rw [List.map_map]
  refine List.map_congr_left fun j _ => ?_
  simp only [Function.comp_apply, List.filter_map]
  rfl

/-- An instruction that writes a block of registers and flags, and of which lanes may consume poison. -/
theorem Issues.blockFlags {s : State} {w v : Wave} {i : Instr} {f : Body} {d n : Nat} {ls : List Nat} {elem : Nat → Nat → W32} {c : W32}
    {dies : Mask} (h : Issues s w v i) (he : Sys2Proof.Machine.exec i s = issueR i s f)
    (hf : f (putWave s v) v = writeOut (putWave s v) v
      { v := (List.range n).map (fun j => (d + j, ls.map (fun l => (l, elem j l)))), cc := some c, dies := dies } (isNwb i)) :
    let ws := (List.range n).map (fun j => (d + j, (ls.filter (fun l => !dies.getLsbD l)).map (fun l => (l, elem j l))))
    boundsOk (isNwb i) (getTeam s v.team) v ws →
    let x := wroteV (isNwb i) (getTeam s v.team) v ws
    DoesDying s i (withCC x (mergeCC x.regs.cc c)) dies := by
  have hdy := h.dyingFlags he hf
  rw [blockWrites_filter] at hdy
  exact hdy

/-- An element of MSCA's result is that of the state that its wave was put back in. -/
@[simp] theorem putWave_mscaElem (g : GenW) (s : State) (v w : Wave) (nc n j l : Nat) :
    mscaElem g (putWave s v) w nc n j l = mscaElem g s w nc n j l := by
  simp only [mscaElem, putWave_laneWord]

/-- Ranges of one length that start at one register, or that lie apart. -/
theorem sameOrApart_of {a b n : Nat} (h : a = b ∨ a + n ≤ b ∨ b + n ≤ a) : sameOrApart (a, n) (b, n) = true := by
  rcases h with rfl | h | h
  · simp [sameOrApart]
  · simp [sameOrApart, rangesMeet, h]
  · simp [sameOrApart, rangesMeet, h]

/-- Settles O28: both write a block of registers, where their ranges allow it. -/
theorem matrixShapingCompletes : Obligations.MatrixShapingCompletes := by
  unfold Obligations.MatrixShapingCompletes
  refine ⟨?_, ?_⟩
  · intro s w v g h nc n ls dies ws hok hb
    refine h.blockFlags rfl ?_ hb
    simp only [nc] at hok
    simp only [hok, Bool.not_true, Bool.false_eq_true, if_false, putWave_mscaElem]
    rfl
  · intro s w v g h ls a dies ws hr hb
    refine h.blockFlags rfl ?_ hb
    have hok : sameOrApart (vNum g.dst, 32) (vNum g.a, 32) = true := sameOrApart_of hr
    simp only [hok, Bool.not_true, Bool.false_eq_true, if_false]
    rfl

end Sys2Proof.Machine
end

section
/-! PROOFS. MLDF and MSTF (R40, R219, R220). -/

namespace Sys2Proof.Machine

/-! ### The issue of an access -/

/-- An access of no element changes nothing. -/
theorem issueAccess_none {p : State} {v : Wave} (rcd : OpRec) {a : Access} (via : Via) (md : StoreMode) (h : a.elems = []) :
    issueAccess p v rcd a via md = .done p := by
  simp only [issueAccess, h, List.isEmpty_nil, if_true]

/-- An access that is local, and neither held nor lazy, is performed with its results written. -/
theorem issueAccess_local {p t : State} {v : Wave} (rcd : OpRec) {a : Access} {via : Via} (h : LocalTo p v a via t) :
    issueAccess p v rcd a via {} = .done t := by
  obtain ⟨hl, hgo, hp, hw⟩ := h
  rw [issueAccess_ok hl.1 hgo.1 hgo.2.1 hl.ok, hl.notRemote]
  exact commit_local hl.notRemote hgo nofun rfl hp hw

/-- A local store that claims a slot leaves its data to be read. -/
theorem issueAccess_lazy {p : State} {v : Wave} (rcd : OpRec) {a : Access} {via : Via} (z : LazyRead) (hl : allLocal p v a via)
    (hgo : freeToGo p v (placed p v a via)) :
    issueAccess p v rcd a via { slot := some z } = .done (addLazy p v.id (some z) (.store (placed p v a via))) := by
  rw [issueAccess_ok hl.1 hgo.1 hgo.2.1 hl.ok, hl.notRemote]
  exact commit_lazy hl.notRemote hgo nofun rfl

/-- A wave put back with its handle brought up to date is put back as one that has but that register changed. -/
theorem keptHandle_putWave (s : State) (v : Wave) (upd : Option (Nat × Handle)) : ∃ x, keptHandle (putWave s v) v.id upd = putWave s x
    ∧ x.id = v.id ∧ x.ctl = v.ctl ∧ x.ctx = v.ctx ∧ x.scope = v.scope := by
  cases upd with
  | none => exact ⟨v, rfl, rfl, rfl, rfl, rfl⟩
  | some p => exact ⟨setH v p.1 (some p.2), modWave_putWave s v (fun x => setH x p.1 (some p.2)) rfl, rfl, rfl, rfl, rfl⟩

/-- An effect that does no more than bring a handle up to date. -/
theorem Issues.endsKept {s : State} {w v : Wave} {i : Instr} {f : Body} {upd : Option (Nat × Handle)} (h : Issues s w v i) (l : Option Latch)
    (he : Sys2Proof.Machine.exec i s = issueR i s f) (hf : f (putWave s v) v = (.done (keptHandle (putWave s v) v.id upd), l)) :
    Ends s i v.id (keptHandle (putWave s v) v.id upd) := by
  obtain ⟨x, hx, hid, hctl, hctx, hsc⟩ := keptHandle_putWave s v upd
  rw [hx] at hf ⊢
  rw [h.v_id]
  refine h.ends l he hf (findWave_putWave h.found (hid.trans h.v_id)) (by rw [hctl]; exact h.v_live) (.inr ?_)
  rw [hctx, hsc]
  exact h.v_alive

/-! ### Fragments -/

/-- The base of a fragment in memory: the displacement counts elements (R221). -/
def fragBase (m : MemW) (b : W64) : W64 := b + BitVec.ofInt 64 (m.disp.toInt * tySize m.hdr.typ)

/-- The registers of a fragment that a descriptor names (R219). -/
def fragLen (desc : W64) : Nat := fragRegs (descShape desc).1 (descShape desc).2

/-- The access of MLDF or MSTF, from its base. -/
def fragAccess (p : State) (x : Wave) (i : Instr) (m : MemW) (kind : AccKind) (wb : WriteBack) (desc b : W64) (via : Via) : Access :=
  { kind := kind, ty := m.hdr.typ, order := m.order, scope := m.scope, wb := wb, vector := true,
    viaHandle := (match via with | .raw => false | _ => true), elems := fragElems p x i m.hdr.typ desc (fragBase m b) }

/-- A load of a fragment reads no register, so that no lane dies of it. -/
theorem fragDies_load (s : State) (v : Wave) (p : Nat × Nat) : fragDies s v .load p = (s, v) := by simp [fragDies]

/-- MLDF of a legal descriptor on aligned elements is its access. -/
theorem mldf_access {m : MemW} {s t : State} {v : Wave} {b : W64} {via : Via} {upd : Option (Nat × Handle)} {desc : W64}
    (hd : scalarOp s v m.hdr.lit m.b = desc) (hb : baseOf s v m.hdr m.a false = some (b, via, upd))
    (hf : fragOk v m.hdr.typ (vNum m.dst) desc = true) (h1 : (fragBase m b).toNat % tySize m.hdr.typ = 0)
    (h2 : bits desc.toNat 0 32 % tySize m.hdr.typ = 0)
    (hk : issueAccess s v (opRecOf s v (.mldf m)) (fragAccess s v (.mldf m) m .load
      (.frag (vNum m.dst) (descShape desc).1 (descShape desc).2) desc b via) via {} = .done t) :
    fragBody (.mldf m) m (vNum m.dst) .load s v = .done (keptHandle t v.id upd) := by
  have hal : ¬ (((fragBase m b).toNat % tySize m.hdr.typ ≠ 0 ∨ bits desc.toNat 0 32 % tySize m.hdr.typ ≠ 0)
      ∧ (fragElems s v (.mldf m) m.hdr.typ desc (fragBase m b)).all (fun e => e.addr.toNat % tySize m.hdr.typ == 0) = true) := by simp [h1, h2]
  subst hd
  simp only [fragBody, hf, fragDies_load, Bool.not_true, Bool.false_eq_true, if_false, reduceCtorEq, if_true]
  exact baseOf_eq hb _ ((if_neg hal).trans hk)

/-- MSTF of a legal descriptor on aligned elements is its access, once the lanes that consume poison have died (R40). -/
theorem mstf_access {m : MemW} {s t : State} {v : Wave} {b : W64} {via : Via} {upd : Option (Nat × Handle)} {desc : W64}
    (hd : scalarOp s v m.hdr.lit m.b = desc) (hb : baseOf s v m.hdr m.a true = some (b, via, upd))
    (hf : fragOk v m.hdr.typ (vNum m.c) desc = true) (h1 : (fragBase m b).toNat % tySize m.hdr.typ = 0)
    (h2 : bits desc.toNat 0 32 % tySize m.hdr.typ = 0)
    (hk : let d := fragDies s v .store (vNum m.c, fragLen desc)
      issueAccess d.1 d.2 (opRecOf s v (.mstf m)) (fragAccess d.1 d.2 (.mstf m) m .store .none desc b via) via
        { slot := lazyOf v (.mstf m) (fragLen desc) m.c } = .done t) :
    fragBody (.mstf m) m (vNum m.c) .store s v = .done (keptHandle t v.id upd) := by
  have hal (l : List Elem) : ¬ (((fragBase m b).toNat % tySize m.hdr.typ ≠ 0 ∨ bits desc.toNat 0 32 % tySize m.hdr.typ ≠ 0)
      ∧ l.all (fun e => e.addr.toNat % tySize m.hdr.typ == 0) = true) := by simp [h1, h2]
  subst hd
  simp only [fragBody, hf, Bool.not_true, Bool.false_eq_true, if_false]
  exact baseOf_eq hb _ ((if_neg (hal _)).trans hk)

/-- A wave without poison loses no lane to a store of a fragment. -/
theorem fragDies_clean {s : State} {v : Wave} (kind : AccKind) (p : Nat × Nat) (h : v.regs.poison = []) : fragDies s v kind p = (s, v) := by
  simp [fragDies, fragPoison, h]

/-- The wave that stores a fragment is the same one after lanes of it have died. -/
theorem fragDies_id {s : State} {v : Wave} (kind : AccKind) (p : Nat × Nat) : (fragDies s v kind p).2.id = v.id := by
  unfold fragDies
  generalize (if kind = .store then fragPoison v [p] else 0) = m
  by_cases hm : (m == 0) = true
  · simp only [hm, if_true]
  · simp only [if_neg hm]
    cases hf : findWave (markDead s v.id m) v.id with
    | none => rfl
    | some x => exact findWave_id hf

/-- Settles O32: each clause is one outcome of the issue of the fragment's access. -/
theorem fragmentAccessCompletes : Obligations.FragmentAccessCompletes := by
  unfold Obligations.FragmentAccessCompletes
  refine ⟨?_, ?_⟩
  · intro m s w v b via upd h p desc base a hb hf h1 h2
    refine ⟨fun he => ?_, fun t ht => ?_⟩
    · exact h.endsKept none rfl (congrArg (·, none) (mldf_access rfl hb hf h1 h2 (issueAccess_none _ _ _ he)))
    · exact h.finishes none rfl (congrArg (·, none) (mldf_access rfl hb hf h1 h2 (issueAccess_local _ ht)))
  · intro m s w v b via upd h desc f p x base a hb hf h1 h2
    refine ⟨fun hp => ?_, fun he => ?_, fun t hz ht => ?_, fun z hz hl hgo => ?_⟩
    · exact Prod.mk.inj (fragDies_clean _ _ hp)
    · exact h.finishes none rfl (congrArg (·, none) (mstf_access rfl hb hf h1 h2 (issueAccess_none _ _ _ he)))
    · refine h.finishes none rfl (congrArg (·, none) (mstf_access rfl hb hf h1 h2 ?_))
      rw [show lazyOf v (.mstf m) (fragLen desc) m.c = none from if_pos hz]
      exact issueAccess_local _ ht
    · refine h.finishes none rfl (congrArg (·, none) (mstf_access rfl hb hf h1 h2 ?_))
      rw [show lazyOf v (.mstf m) (fragLen desc) m.c = some z from hz]
      refine (issueAccess_lazy _ z hl hgo).trans ?_
      rw [show x.id = v.id from fragDies_id _ _]
      rfl

end Sys2Proof.Machine
end

section
/-! PROOFS. Vector writes and their bounds (R20, R175, R210). -/

namespace Sys2Proof.Machine

/-! ### What a vector register holds after a write -/

/-- An element replaced is the library's. -/
theorem setAt_eq_set {α : Type} (l : List α) (n : Nat) (x : α) : setAt l n x = l.set n x := by
  induction l generalizing n with
  | nil => rfl
  | cons y r ih =>
    cases n with
    | zero => rfl
    | succ n => exact congrArg _ (ih n)

/-- A row keeps its length. -/
@[simp] theorem putElems_length (row : List W32) (ws : List (Nat × W32)) : (putElems row ws).length = row.length := by
  induction ws generalizing row with
  | nil => rfl
  | cons p r ih => exact (ih (setAt row p.1 p.2)).trans (by rw [setAt_eq_set, List.length_set])

/-- Elements written leave every lane that they do not name. -/
theorem putElems_other {row : List W32} {ws : List (Nat × W32)} {l : Nat} (h : ∀ y, (l, y) ∉ ws) : (putElems row ws)[l]? = row[l]? := by
  induction ws generalizing row with
  | nil => rfl
  | cons p r ih =>
    have hne : p.1 ≠ l := fun he => h p.2 (by simp [← he])
    refine (ih (row := setAt row p.1 p.2) (fun y hy => h y (List.mem_cons_of_mem _ hy))).trans ?_
    rw [setAt_eq_set, List.getElem?_set_ne hne]

/-- Elements written to lanes that are all different are there. -/
theorem putElems_at {row : List W32} {ws : List (Nat × W32)} {l : Nat} {y : W32} (hn : (ws.map (·.1)).Nodup) (hm : (l, y) ∈ ws)
    (hl : l < row.length) : (putElems row ws)[l]? = some y := by
  induction ws generalizing row with
  | nil => cases hm
  | cons p r ih =>
    obtain ⟨hp, hr⟩ := List.nodup_cons.mp hn
    rcases List.mem_cons.mp hm with rfl | hm
    · refine (putElems_other (row := setAt row l y) (ws := r) (fun z hz => hp (List.mem_map.mpr ⟨_, hz, rfl⟩))).trans ?_
      rw [setAt_eq_set, List.getElem?_set_self hl]
    · exact ih (row := setAt row p.1 p.2) hr hm (by rw [setAt_eq_set, List.length_set]; exact hl)

/-- A register that a write does not name is as before. -/
theorem vreg_putVRegs_other {v : Wave} {d r : Nat} {row : List (Nat × W32)} (h : r ≠ d) (l : Nat) :
    vreg (putVRegs v [(d, row)]) r l = vreg v r l := by
  simp only [vreg, putVRegs, List.foldl_cons, List.foldl_nil, setAt_eq_set, List.getElem?_set_ne h.symm]

/-- The named register holds its row after the write. -/
theorem vreg_putVRegs_same {v : Wave} {d : Nat} {row : List (Nat × W32)} (h : d < v.regs.v.length) (l : Nat) :
    vreg (putVRegs v [(d, row)]) d l = ((putElems ((v.regs.v[d]?).getD []) row)[l]?).getD 0 := by
  simp only [vreg, putVRegs, List.foldl_cons, List.foldl_nil, setAt_eq_set, List.getElem?_set_self h, Option.getD_some]

/-- A lane that a write does not name is as before. -/
theorem vreg_putVRegs_lane {v : Wave} {d l : Nat} {row : List (Nat × W32)} (h : ∀ y, (l, y) ∉ row) (r : Nat) :
    vreg (putVRegs v [(d, row)]) r l = vreg v r l := by
  by_cases hr : r = d
  · subst hr
    by_cases hd : r < v.regs.v.length
    · rw [vreg_putVRegs_same hd, putElems_other h]
      rfl
    · simp only [vreg, putVRegs, List.foldl_cons, List.foldl_nil, setAt_eq_set, List.set_eq_of_length_le (Nat.le_of_not_lt hd)]
  · exact vreg_putVRegs_other hr l

/-! ### Under bindings -/

/-- The flags of a bound check change no vector register. -/
@[simp] theorem noteFlags_vreg (w : Wave) (ns : List Nat) (r l : Nat) : vreg (noteFlags w ns) r l = vreg w r l := by
  unfold noteFlags
  split <;> rfl

/-- A write of a wave without bindings is the write alone. -/
theorem wroteV_unbound {t : Team} {v : Wave} (h : v.regs.bmap = []) (ws : List (Nat × List (Nat × W32))) : wroteV false t v ws = putVRegs v ws := by
  simp only [wroteV, clampWrites_unbound h, flagSet_unbound h, Bool.false_eq_true, if_false]
  rfl

/-- A clamp binding brings the elements of a lane inside its bounds (R210). -/
theorem clampWrites_one {t : Team} {v : Wave} {d l n : Nat} {y : W32} {b : Bound} (hb : boundOf t v d = some (n, b)) (ha : b.act = 2) :
    clampWrites t v [(d, [(l, y)])] = [(d, [(l, w32 (packElems (tyWidth b.fmt) ((boundElems b y).map (clampElem b))))])] := by
  simp only [clampWrites, List.map_cons, List.map_nil, hb, ha, if_true]

/-- Settles O36: the frame of a write without bindings, the clamp, and the bound trap of the instructions of lane words. -/
theorem vectorWriteFrame : Obligations.VectorWriteFrame := by
  unfold Obligations.VectorWriteFrame
  refine ⟨?_, ?_, ?_, ?_, ?_, ?_, ?_⟩
  · intro t v d row h
    rw [wroteV_unbound h]
    refine ⟨?_, ?_, rfl⟩
    · rintro r l (hr | hl)
      · exact vreg_putVRegs_other hr l
      · exact vreg_putVRegs_lane hl r
    · intro l y hn hm hd hl
      rw [vreg_putVRegs_same hd, putElems_at hn hm hl]
      rfl
  · intro t v d l n y b hb ha hd hl
    simp only [wroteV, Bool.false_eq_true, if_false, noteFlags_vreg, clampWrites_one hb ha]
    rw [vreg_putVRegs_same hd, putElems_at (by simp) (List.mem_singleton.mpr rfl) hl]
    rfl
  all_goals exact boundTrapRule_of (fun _ _ => rfl) (fun _ _ _ _ => putWave_elemLane ..) (fun _ => rfl)

end Sys2Proof.Machine
end

section
/-! PROOFS. SPAWN, CSCOPE, CANCEL and the acceptance of a task (R31 to R35, R252 to R254). -/

namespace Sys2Proof.Machine

/-! ### SPAWN -/

/-- SPAWN of a good descriptor that writes a status other than 0 (R31). -/
theorem spawnBody_refuses {g : GenW} {s : State} {v : Wave} {l : List Byte} {d : TaskDesc} {scope : W64}
    (hv : findWave s v.id = some v) (hr : recAt s v (scalarOp s v g.hdr.lit g.a) 64 24 = .ok l) (hd : taskDesc l = some d)
    (hs : (if d.scope = 0 then v.scope else d.scope) = scope) (hst : spawnStatus s v d scope ≠ 0) :
    spawnBody g s v = writeOut s v { s := [(sNum g.dst, w64 (spawnStatus s v d scope))] } g.hdr.nwb := by
  simp only [spawnBody, hr, hd, hs, if_pos hst, hv]

/-- SPAWN of a good descriptor that takes status 0: the task is handed over and its slip opened (R31, R46). -/
theorem spawnBody_spawns {g : GenW} {s : State} {v y : Wave} {l : List Byte} {d : TaskDesc} {scope : W64}
    (hr : recAt s v (scalarOp s v g.hdr.lit g.a) 64 24 = .ok l) (hd : taskDesc l = some d)
    (hs : (if d.scope = 0 then v.scope else d.scope) = scope) (hst : spawnStatus s v d scope = 0) (hroom : v.hz.slips.length < 128)
    (hy : findWave (spawnTask s v (.spawn g) d scope) v.id = some y) :
    spawnBody g s v = writeOut (spawnTask s v (.spawn g) d scope) y { s := [(sNum g.dst, 0)] } g.hdr.nwb := by
  have hslip : slipRoom v = true := decide_eq_true hroom
  simp only [spawnBody, hr, hd, hs, hst, hslip, hy, ne_eq, not_true_eq_false, if_false, Bool.not_true, Bool.false_eq_true]
  rfl

/-- The wave of a SPAWN after its task is handed over: under the next tag. -/
theorem findWave_spawnTask {s : State} {v : Wave} (i : Instr) (d : TaskDesc) (scope : W64) (hv : findWave s v.id = some v) :
    ∃ y, findWave (spawnTask s v i d scope) v.id = some y ∧ y.hz.tag = v.hz.tag + 1 := by
  have h : findWave (spawnTask s v i d scope) v.id = (findWave s v.id).map _ := findWave_modWave _ _ _ _ (fun _ => rfl)
  rw [hv] at h
  exact ⟨_, h, by simp⟩

/-! ### CSCOPE -/

/-- The depth of a scope under a parent (R33). -/
def depthUnder (parent : Option ScopeRec) : Nat :=
  match parent with
  | some r => r.depth + 1
  | none => 1

/-- The scope under which CSCOPE opens one: none in the fault-service wave (R305). -/
def parentOf (s : State) (v : Wave) : Option ScopeRec := if v.fsw then none else findScope (getCtx s v.ctx) v.scope

/-- What CSCOPE writes: an identifier, with flags zn (R253). -/
def scopeEff (g : GenW) (v : Wave) (id : W64) : Eff := { s := [(sNum g.dst, id)], cc := some (ccZN v.regs.cc 64 id.toNat false) }

/-- CSCOPE whose counter is aligned. -/
theorem cscopeBody_eq {g : GenW} {s : State} {v : Wave} (h : (scalarOp s v g.hdr.lit g.a).toNat % 8 = 0) :
    cscopeBody g s v =
      if 16 < depthUnder (parentOf s v) then writeOut s v (scopeEff g v 0x8000000000000001) g.hdr.nwb
      else (freeScope (getCtx s v.ctx)).elim (writeOut s v (scopeEff g v 0x8000000000000002) g.hdr.nwb) (fun slot =>
        let o := openScope s v.ctx slot (depthUnder (parentOf s v)) ((parentOf s v).map (·.slot)) (scalarOp s v g.hdr.lit g.a) (some v.id) none
        writeOut o.1 v (scopeEff g v o.2) g.hdr.nwb) := by
  simp only [cscopeBody, h, ne_eq, not_true_eq_false, if_false]
  cases freeScope (getCtx s v.ctx) <;> rfl

/-! ### CANCEL -/

/-- The marking of CANCEL keeps every wave. -/
theorem findWave_cancelMark {s : State} {ctx slot n : Nat} (h : ∃ y, findWave s n = some y) : ∃ y, findWave (cancelMark s ctx slot) n = some y := by
  have key : ∀ (l : List Task) (a : State), (∃ y, findWave a n = some y) →
      ∃ y, findWave (l.foldl (fun a t => if t.accepted then a else modWave a t.wave (fun w => dropSlip w t.tag)) a) n = some y := by
    intro l
    induction l with
    | nil => exact fun a ha => ha
    | cons t r ih =>
      intro a ha
      refine ih _ ?_
      dsimp only
      by_cases hacc : t.accepted = true
      · rw [if_pos hacc]; exact ha
      · rw [if_neg hacc]; exact findWave_modWave_some (fun _ => rfl) ha
  exact key _ _ h

/-- CANCEL of an identifier that names no live scope. -/
theorem cancelBody_none {g : GenW} {s : State} {v : Wave} (hv : findWave s v.id = some v)
    (hf : findScope (getCtx s v.ctx) (scalarOp s v g.hdr.lit g.a) = none) :
    cancelBody g s v = writeOut s v { s := [(sNum g.dst, 2)] } g.hdr.nwb := by
  simp only [cancelBody, hf, hv]
  rfl

/-- CANCEL of a scope that is cancelled already. -/
theorem cancelBody_again {g : GenW} {s : State} {v : Wave} {r : ScopeRec} (hv : findWave s v.id = some v)
    (hf : findScope (getCtx s v.ctx) (scalarOp s v g.hdr.lit g.a) = some r) (hc : r.cancelled = true) :
    cancelBody g s v = writeOut s v { s := [(sNum g.dst, 1)] } g.hdr.nwb := by
  simp only [cancelBody, hf, hv, hc, if_true]
  rfl

/-- CANCEL of a live scope marks its subtree (R35). -/
theorem cancelBody_marks {g : GenW} {s : State} {v y : Wave} {r : ScopeRec}
    (hf : findScope (getCtx s v.ctx) (scalarOp s v g.hdr.lit g.a) = some r) (hc : r.cancelled = false)
    (hy : findWave (cancelMark s v.ctx r.slot) v.id = some y) :
    cancelBody g s v = writeOut (cancelMark s v.ctx r.slot) y { s := [(sNum g.dst, 0)] } g.hdr.nwb := by
  simp only [cancelBody, hf, hc, hy, Bool.false_eq_true, if_false]
  rfl

/-! ### The acceptance of a task -/

/-- A task whose entry is executable is accepted, and its SPAWN's slip resolves (R31). -/
theorem execTaskAccept_ok {s : State} {t : Task} (ht : s.tasks.find? (fun x => x.id == t.id) = some t) (ha : t.accepted = false)
    (he : entryCause s (getCtx s t.ctx) t.kernel.exec = none) :
    execTaskAccept t.id s
      = .next (slipOk { s with tasks := s.tasks.map (fun x => if x.id = t.id then { x with accepted := true } else x) } t.wave t.tag) := by
  simp only [execTaskAccept, ht, ha, he, Bool.false_eq_true, if_false]

/-- A task whose entry is not executable fails its SPAWN (R31). -/
theorem execTaskAccept_fails {s : State} {t : Task} {c : Nat} (ht : s.tasks.find? (fun x => x.id == t.id) = some t) (ha : t.accepted = false)
    (he : entryCause s (getCtx s t.ctx) t.kernel.exec = some c) :
    execTaskAccept t.id s
      = .next (freeAll (slipFail { s with tasks := s.tasks.filter (fun x => x.id != t.id) } t.wave t.tag c t.kernel.exec 0) t.ctx) := by
  simp only [execTaskAccept, ht, ha, he, Bool.false_eq_true, if_false]

/-- Settles O40: each clause is one branch of its instruction's effect, or of TASK_ACCEPT. -/
theorem tasksAndScopesComplete : Obligations.TasksAndScopesComplete := by
  unfold Obligations.TasksAndScopesComplete
  refine ⟨?_, ?_, ?_, fun s t ht ha => ⟨fun he => execTaskAccept_ok ht ha he, fun c he => execTaskAccept_fails ht ha he⟩⟩
  · intro s w v g l d h p scope st hr hd
    refine ⟨fun hst => h.scalarOnly rfl (spawnBody_refuses h.v_here hr hd rfl hst), fun hst hroom => ?_⟩
    obtain ⟨y, hy, htag⟩ := findWave_spawnTask (.spawn g) d scope h.v_here
    exact ⟨y, hy, htag, h.finishes _ rfl ((spawnBody_spawns hr hd rfl hst hroom hy).trans (writeOut_scalar _ y _ _ _))⟩
  · intro s w v g h c ctr parent depth gave hctr
    have hb := cscopeBody_eq (g := g) (s := putWave s v) (v := v) (by rw [putWave_scalarOp]; exact hctr)
    refine ⟨fun hdeep => ?_, fun hdepth hfree => ?_, fun slot hdepth hfree => ?_⟩
    · exact h.scalarFlags rfl (hb.trans (if_pos hdeep))
    · refine h.scalarFlags rfl (hb.trans ((if_neg (Nat.not_lt.mpr hdepth)).trans ?_))
      rw [show freeScope (getCtx (putWave s v) v.ctx) = none from hfree]
      rfl
    · obtain ⟨k, hk⟩ := writeOut_scalarFlags (openScope (putWave s v) v.ctx slot depth (parent.map (·.slot)) ctr (some v.id) none).1 v (sNum g.dst)
        (openScope (putWave s v) v.ctx slot depth (parent.map (·.slot)) ctr (some v.id) none).2 _ _ _ _ g.hdr.nwb
      refine h.finishes k rfl (hb.trans ((if_neg (Nat.not_lt.mpr hdepth)).trans ?_))
      rw [show freeScope (getCtx (putWave s v) v.ctx) = some slot from hfree, putWave_scalarOp]
      exact hk
  · intro s w v g h f
    have hs : findScope (getCtx (putWave s v) v.ctx) (scalarOp (putWave s v) v g.hdr.lit g.a) = f := by rw [putWave_scalarOp]; rfl
    refine ⟨fun hn => ?_, fun r hr hc => ?_, fun r hr hc => ?_⟩
    · exact h.scalarOnly rfl (cancelBody_none h.v_here (hs.trans hn))
    · exact h.scalarOnly rfl (cancelBody_again h.v_here (hs.trans hr) hc)
    · obtain ⟨y, hy⟩ := findWave_cancelMark (ctx := v.ctx) (slot := r.slot) ⟨v, h.v_here⟩
      exact ⟨y, hy, h.finishes _ rfl ((cancelBody_marks (hs.trans hr) hc hy).trans (writeOut_scalar _ y _ _ _))⟩

end Sys2Proof.Machine
end

section
/-! PROOFS. GIVE and CLAIM (R26 to R28, R258). -/

namespace Sys2Proof.Machine

/-- GIVE of no register. -/
theorem giveBody_zero {g : GenW} {s : State} {v : Wave} (h : (scalarOp s v g.hdr.lit g.a).toNat = 0) : giveBody g s v = .done s := by
  simp only [giveBody, h, if_true]

/-- GIVE of a count that it may not release. -/
theorem giveBody_illegal {g : GenW} {s : State} {v : Wave} {n : Nat} (hn : (scalarOp s v g.hdr.lit g.a).toNat = n) (h0 : n ≠ 0)
    (h : n % 8 ≠ 0 ∨ v.regs.cnt < n + 8) : giveBody g s v = .trap s (precise 0x01) := by
  simp only [giveBody, hn, if_neg h0, if_pos h]

/-- GIVE while something issued uses the registers (R27). -/
theorem giveBody_busy {g : GenW} {s : State} {v : Wave} {n : Nat} (hn : (scalarOp s v g.hdr.lit g.a).toNat = n) (h0 : n ≠ 0)
    (h8 : n % 8 = 0) (hc : n + 8 ≤ v.regs.cnt) (hb : rangeBusy s v (v.regs.cnt - n) n = true) : giveBody g s v = .stay s (.give n) := by
  have h : ¬ (n % 8 ≠ 0 ∨ v.regs.cnt < n + 8) := by omega
  simp only [giveBody, hn, if_neg h0, if_neg h, hb, if_true]

/-- GIVE that releases its registers (R27). -/
theorem giveBody_releases {g : GenW} {s : State} {v : Wave} {n : Nat} (hn : (scalarOp s v g.hdr.lit g.a).toNat = n) (h0 : n ≠ 0)
    (h8 : n % 8 = 0) (hc : n + 8 ≤ v.regs.cnt) (hb : rangeBusy s v (v.regs.cnt - n) n = false) :
    giveBody g s v = .done (serveClaims 16 (modPool (modWave s v.id (fun x => setCount x (x.regs.cnt - n))) v (fun k => k + n)) v) := by
  have h : ¬ (n % 8 ≠ 0 ∨ v.regs.cnt < n + 8) := by omega
  simp only [giveBody, hn, if_neg h0, if_neg h, hb, Bool.false_eq_true, if_false]

/-- CLAIM of no register. -/
theorem claimBody_zero {g : GenW} {s : State} {v : Wave} (h : (scalarOp s v g.hdr.lit g.a).toNat = 0) : claimBody g s v = .done s := by
  simp only [claimBody, h, if_true]

/-- CLAIM of a count that it may not take. -/
theorem claimBody_illegal {g : GenW} {s : State} {v : Wave} {n : Nat} (hn : (scalarOp s v g.hdr.lit g.a).toNat = n) (h0 : n ≠ 0)
    (h : n % 8 ≠ 0 ∨ 256 < v.regs.cnt + n) : claimBody g s v = .trap s (precise 0x01) := by
  simp only [claimBody, hn, if_neg h0, if_pos h]

/-- CLAIM that is first in its half and finds the registers (R28). -/
theorem claimBody_takes {g : GenW} {s : State} {v : Wave} {n : Nat} (hn : (scalarOp s v g.hdr.lit g.a).toNat = n) (h0 : n ≠ 0)
    (h8 : n % 8 = 0) (hc : v.regs.cnt + n ≤ 256) (hq : claimQueue s v = [] ∨ (claimQueue s v).head? = some v.id) (hp : poolHas s v n = true) :
    claimBody g s v = .done (takeRegs s v n) := by
  have h : ¬ (n % 8 ≠ 0 ∨ 256 < v.regs.cnt + n) := by omega
  have hf : ((claimQueue s v).isEmpty || (claimQueue s v).head? == some v.id) = true := by
    rcases hq with hq | hq <;> simp [hq]
  simp only [claimBody, hn, if_neg h0, if_neg h, hf, hp, Bool.and_self, if_true]

/-- CLAIM that joins the queue of its half (R28). -/
theorem claimBody_joins {g : GenW} {s : State} {v : Wave} {n : Nat} (hn : (scalarOp s v g.hdr.lit g.a).toNat = n) (h0 : n ≠ 0)
    (h8 : n % 8 = 0) (hc : v.regs.cnt + n ≤ 256) (hm : v.id ∉ claimQueue s v)
    (hq : ¬ (claimQueue s v = [] ∨ (claimQueue s v).head? = some v.id) ∨ poolHas s v n = false) :
    claimBody g s v = .stay (modTeam s v.team (fun t =>
      { t with claims := setAt t.claims (halfOf t v.idx) (((t.claims[halfOf t v.idx]?).getD []) ++ [v.id]) })) (.claim n) := by
  have h : ¬ (n % 8 ≠ 0 ∨ 256 < v.regs.cnt + n) := by omega
  have hf : (((claimQueue s v).isEmpty || (claimQueue s v).head? == some v.id) && poolHas s v n) = false := by
    rcases hq with hq | hq
    · obtain ⟨h1, h2⟩ := not_or.mp hq
      simp [h1, h2]
    · simp [hq]
  have hm' : (claimQueue s v).contains v.id = false := by simpa using hm
  simp only [claimBody, hn, if_neg h0, if_neg h, hf, hm', Bool.false_eq_true, if_false]

/-- Settles O42: each clause is one branch of the effect of GIVE or CLAIM, in the state that the effect starts from. -/
theorem registerPoolCompletes : Obligations.RegisterPoolCompletes := by
  unfold Obligations.RegisterPoolCompletes
  refine ⟨fun s w v g h => ?_, fun s w v g h => ?_, fun s v g k n hf hw hi hn h0 h8 hc hb => ?_⟩
  · have hn : (scalarOp (putWave s v) v g.hdr.lit g.a).toNat = (scalarOp s v g.hdr.lit g.a).toNat := by rw [putWave_scalarOp]
    refine ⟨fun h0 => ?_, fun h0 h8 hc hb => ?_, fun h0 h8 hc hb => ?_, fun h0 hbad => ?_⟩
    · exact h.doesNothing none rfl (congrArg (·, none) (giveBody_zero (hn.trans h0)))
    · exact h.finishes none rfl (congrArg (·, none) (giveBody_releases hn h0 h8 hc hb))
    · exact h.waitsHere none rfl (congrArg (·, none) (giveBody_busy hn h0 h8 hc hb)) h.v_here
    · exact h.traps none rfl (congrArg (·, none) (giveBody_illegal hn h0 hbad))
  · have hn : (scalarOp (putWave s v) v g.hdr.lit g.a).toNat = (scalarOp s v g.hdr.lit g.a).toNat := by rw [putWave_scalarOp]
    refine ⟨fun h0 => ?_, fun h0 h8 hc hq hp => ?_, fun h0 h8 hc hm hq => ?_, fun h0 hbad => ?_⟩
    · exact h.doesNothing none rfl (congrArg (·, none) (claimBody_zero (hn.trans h0)))
    · exact h.finishes none rfl (congrArg (·, none) (claimBody_takes hn h0 h8 hc hq hp))
    · exact h.waitsHere none rfl (congrArg (·, none) (claimBody_joins hn h0 h8 hc hm hq)) h.v_here
    · exact h.traps none rfl (congrArg (·, none) (claimBody_illegal hn h0 hbad))
  · simp only [exec, execGiveRelease, hf, hw, hi, giveBody_releases hn.symm h0 h8 hc hb]
    rfl

end Sys2Proof.Machine
end

section
/-! PROOFS. The checks of an instruction's issue (R135): what `issueWave` does where a check fails, a slot is held, a guard is false or a kill
point is reached. -/

namespace Sys2Proof.Machine

/-- An instruction of a wave whose turn it is, is issued. -/
theorem issueR_wave {s : State} {w : Wave} {i : Instr} (f : Body) (hc : s.cur = .wave w.id) (hf : findWave s w.id = some w) :
    issueR i s f = .next (issueWave s w i f) := by
  simp only [issueR, hc, hf]

/-- A failed check of issue is a precise trap with the check's cause, whatever the guard (R135). -/
theorem issueWave_fault {s : State} {w : Wave} {i : Instr} {c : Nat} (f : Body) (h : issueFault s w i = some c) :
    issueWave s w i f = precisely s w i (precise c) := by
  simp only [issueWave, h]

/-- A failed check of issue, at the instruction's meaning. -/
theorem issueR_fault {s : State} {w : Wave} {i : Instr} {c : Nat} (f : Body) (hc : s.cur = .wave w.id) (hf : findWave s w.id = some w)
    (h : issueFault s w i = some c) : issueR i s f = .next (precisely s w i (precise c)) := by
  rw [issueR_wave f hc hf, issueWave_fault f h]

/-- An opcode that is not permitted fails the checks of issue with 0x01 (R137). -/
theorem issueFault_forbidden {s : State} {w : Wave} {i : Instr} (h : permitted s w i = false) : issueFault s w i = some 0x01 := by
  simp only [issueFault, h, Bool.not_false, if_true]

/-- An instruction of an access slice has no effect of its own in a wave's code, where its opcode is not permitted (R137). -/
theorem sliceOp_wave {s : State} {w : Wave} {i : Instr} (f : State → Wave → State) (hc : s.cur = .wave w.id) (hf : findWave s w.id = some w)
    (hp : permitted s w i = false) : sliceOp i s f = .next (precisely s w i (precise 0x01)) := by
  simp only [sliceOp, hc, issue]
  exact issueR_fault _ hc hf (issueFault_forbidden hp)

/-- An instruction that waits for a dependence slot is not issued (R130). -/
theorem issueWave_slots {s : State} {w : Wave} {i : Instr} (f : Body) (h : issueFault s w i = none) (hs : slotsFree w i = false) :
    issueWave s w i f = stayAt s w.id .stall := by
  simp only [issueWave, h, hs, Bool.not_false, if_true]

/-- An instruction whose guard is false goes on, once its queue entries are discarded (R135). -/
theorem issueWave_off {s : State} {w x : Wave} {i : Instr} (f : Body) (h : issueFault s w i = none) (hs : slotsFree w i = true)
    (hg : guardHolds (insHdr i).grd w.regs.cc = false) (ho : offWaits (putWave s (freezeLatches w)) (freezeLatches w) i = false)
    (hd : discardPops (freezeLatches w) (qRegs i) = some x) :
    issueWave s w i f = complete (putWave (putWave s (freezeLatches w)) x) w.id i (some (if isNwb i then zeroLatch x i else offLatch x i)) := by
  simp only [issueWave, h, hs, hg, ho, hd, Bool.not_true, Bool.not_false, Bool.false_eq_true, if_false, if_true]

/-- An instruction whose guard is false waits while an MMA owes what its latch is to hold (R127, R129). -/
theorem issueWave_offWaits {s : State} {w : Wave} {i : Instr} (f : Body) (h : issueFault s w i = none) (hs : slotsFree w i = true)
    (hg : guardHolds (insHdr i).grd w.regs.cc = false) (ho : offWaits (putWave s (freezeLatches w)) (freezeLatches w) i = true) :
    issueWave s w i f = stayAt (putWave s (freezeLatches w)) w.id .stall := by
  simp only [issueWave, h, hs, hg, ho, Bool.not_true, Bool.not_false, Bool.false_eq_true, if_false, if_true]

/-- A wave of a cancelled scope is killed at a kill point that its instruction reaches (R35). -/
theorem issueWave_kill {s : State} {w : Wave} {i : Instr} (f : Body) (h : issueFault s w i = none) (hs : slotsFree w i = true)
    (hg : guardHolds (insHdr i).grd w.regs.cc = true) (hk : killDue s (freezeLatches w) = true)
    (hp : killPoint (putWave s (freezeLatches w)) (freezeLatches w) i = true) :
    issueWave s w i f = killWave (putWave s (freezeLatches w)) w.id := by
  have hk' : killDue (putWave s (freezeLatches w)) (freezeLatches w) = true := hk
  simp only [issueWave, h, hs, hg, hp, hk', Bool.not_true, Bool.false_eq_true, if_false, Bool.and_self, if_true]

/-- Outside handler mode, in an unprivileged wave that is not the fault-service wave, the opcodes of context control are not permitted (R137). -/
theorem contextControl_forbidden {s : State} {w : Wave} (g : GenW) (hh : w.hz.handler = false) (hf : w.fsw = false)
    (hp : (getCtx s w.ctx).priv = false) :
    permitted s w (.haltctx g) = false ∧ permitted s w (.drain g) = false ∧ permitted s w (.replay g) = false
      ∧ permitted s w (.tlbinv g) = false := by
  simp [permitted, hh, hf, hp]

/-- Settles O45: each clause is one branch of `issueWave`, and the opcodes of the access slice are those that no wave is permitted. -/
theorem issueChecks : Obligations.IssueChecks := by
  unfold Obligations.IssueChecks
  refine ⟨?_, ?_, ?_, ?_, ?_, ?_⟩
  · intro s w g m c hc hf
    exact ⟨issueR_fault _ hc hf, issueR_fault _ hc hf, issueR_fault _ hc hf, issueR_fault _ hc hf, issueR_fault _ hc hf,
      issueR_fault _ hc hf, issueR_fault _ hc hf⟩
  · intro s w g hc hf
    simp only [exec, execAloop, execAend, execAld, execApf, execAadv, execAhalt]
    exact ⟨sliceOp_wave _ hc hf rfl, sliceOp_wave _ hc hf rfl, sliceOp_wave _ hc hf rfl, sliceOp_wave _ hc hf rfl, sliceOp_wave _ hc hf rfl,
      sliceOp_wave _ hc hf rfl⟩
  · intro s w g hh hf hp
    obtain ⟨h1, h2, h3, h4⟩ := contextControl_forbidden g hh hf hp
    exact ⟨issueFault_forbidden h1, issueFault_forbidden h2, issueFault_forbidden h3, issueFault_forbidden h4⟩
  · intro s w x i f h hs hg
    exact ⟨fun ho hd => ⟨_, issueWave_off f h hs hg ho hd⟩, issueWave_offWaits f h hs hg⟩
  · exact fun s w i f h hs => issueWave_slots f h hs
  · exact fun s w i f h hs hg hk hp => issueWave_kill f h hs hg hk hp

end Sys2Proof.Machine
end

section
/-! PROOFS. The events of waves, teams and scopes (R33 to R41, R65, R331), and of deliveries (R43, R46, R53, R305). -/

namespace Sys2Proof.Machine

/-- A wave of a cancelled scope is killed where it waits at a kill point, is parked or is saved (R35). -/
theorem execWaveKill_eq {s : State} {w : Wave} (hf : findWave s w.id = some w) (hk : killDue s w = true)
    (hst : w.ctl.st = .parked ∨ w.ctl.st = .preempted ∨ ((w.ctl.st = .waiting ∨ w.ctl.st = .suspended) ∧ killableWait w = true)) :
    execWaveKill w.id s = .next (killWave s w.id) := by
  rcases hst with h | h | ⟨h | h, hw⟩ <;> simp [execWaveKill, *]

/-- The waits at a kill point that an instruction has reached (R29, R35). -/
theorem killableWait_of {w : Wave} (h : (∃ t, w.ctl.wait = .hwait t) ∨ (∃ n, w.ctl.wait = .waitb n) ∨ w.ctl.wait = .waitt
    ∨ (∃ n, w.ctl.wait = .claim n) ∨ (∃ n p, w.ctl.wait = .bars n p) ∨ (∃ n p, w.ctl.wait = .barw n p) ∨ (∃ t d l, w.ctl.wait = .tryw t d l)) :
    killableWait w = true := by
  rcases h with ⟨_, h⟩ | ⟨_, h⟩ | h | ⟨_, h⟩ | ⟨_, _, h⟩ | ⟨_, _, h⟩ | ⟨_, _, _, h⟩ <;> simp [killableWait, h]

/-- A machine check of a wave that is still there makes 0x30 pending and leaves an uncorrected record (R40, R331). -/
theorem execWaveStateMachineCheck_eq {s : State} {w : Wave} (hf : findWave s w.id = some w) (hk : w.ctl.st ≠ .killed)
    (hr : w.ctl.st ≠ .retired) (hp : w.ctl.st ≠ .preempted) :
    execWaveStateMachineCheck w.id s = .next (modWave (rowRecord s (some (.row w.core)) (clusterOf w.core) 3 5 none none (miscOf w.core w.slot))
      w.id (fun x => { x with hz := { x.hz with machineCheck := true } })) := by
  cases hst : w.ctl.st <;> simp_all [execWaveStateMachineCheck]

/-- A cancelled scope that has quiesced is acknowledged and freed; a grid whose root it is ends with it (R39, R278). -/
theorem execScopeQuiesceAck_eq {s : State} {ctx slot : Nat} {r : ScopeRec}
    (hr : (getCtx s ctx).scopes.find? (fun x => x.slot == slot) = some r) (hc : r.cancelled = true)
    (hi : scopeIdle s (getCtx s ctx) slot = true) (hst : (getCtx s ctx).status < 2) :
    execScopeQuiesceAck ctx slot s = .next (freeAll
      (let s2 := dropScope (if r.counter = 0 then s else bumpFor s (getCtx s ctx) r.opener r.counter) ctx slot
       r.grid.elim s2 (fun g => { s2 with grids := s2.grids.map (fun x => if x.id = g then { x with ended := true } else x) })) ctx) := by
  cases hg : r.grid <;> simp [execScopeQuiesceAck, hr, hc, hi, hst, hg]

/-- Settles O47: each event's meaning at the state that its clause supposes. -/
theorem waveEventsComplete : Obligations.WaveEventsComplete := by
  unfold Obligations.WaveEventsComplete
  refine ⟨?_, ?_, ?_, ?_, ?_, ?_⟩
  · intro s w hf hk _ hst
    exact execWaveKill_eq hf hk (hst.imp_right (Or.imp_right (And.imp_right killableWait_of)))
  · intro s w hf hr
    simp only [exec, execWaveRetire, hf, hr, if_true]
  · exact fun s w hf hk hr hp => execWaveStateMachineCheck_eq hf hk hr hp
  · intro s w t hf hn ht
    have ht' : t + nopreLimit ≤ s.ns := ht
    simp only [exec, execNopreOverrun, hf, hn, ht', if_true]
  · intro s ctx slot r hr hc hi hst hg
    have h := execScopeQuiesceAck_eq hr hc hi hst
    rw [hg] at h
    exact h
  · intro s ctx slot g r hr hc hi hst hg
    have h := execScopeQuiesceAck_eq hr hc hi hst
    rw [hg] at h
    exact h

/-- The end of the part of an access over a link (R43, R46). -/
theorem execSlipResolve_mem {s : State} {w : Wave} {x : Slip} {a : Access} {got : List Got} (r : Reply) (hf : findWave s w.id = some w)
    (hx : findSlip s w.id x.tag = some x) (he : x.ended = false) (hh : x.held = false) (ho : x.op = .mem a got true)
    (hl : lazyLeft w x.tag = false) (hw : linkWaits s w x.tag a got = false) :
    execSlipResolve w.id x.tag r s = .next (linkEnds s w x a got r) := by
  simp [execSlipResolve, hf, hx, he, hh, ho, hl, hw]

/-- The data of an NPUT leaves, or the link that it lies over refuses it (R309). -/
theorem execSlipResolve_put {s : State} {w : Wave} {x : Slip} {m : NetMsg} (r : Reply) (hf : findWave s w.id = some w)
    (hx : findSlip s w.id x.tag = some x) (he : x.ended = false) (hh : x.held = false) (ho : x.op = .net m.id)
    (hm : s.net.msgs.find? (fun y => y.id == m.id) = some m) (hn : m.failure = none) (hp : m.op = .put)
    (hs : m.parts.any (fun p => !p.sent) = true) :
    execSlipResolve w.id x.tag r s
      = .next (if replyFails r && overLinks s (getCtx s m.ctx) m.laddr m.len then msgFail s m 0x10 else putLeaves s m) := by
  have hall : m.parts.all (·.sent) = false := by
    rw [List.all_eq_not_any_not, hs]; rfl
  simp [execSlipResolve, hf, hx, he, hh, ho, hm, hn, hp, hall]

/-- Settles O48: each event's meaning at the state that its clause supposes. -/
theorem deliveryEventsComplete : Obligations.DeliveryEventsComplete := by
  unfold Obligations.DeliveryEventsComplete
  refine ⟨?_, ?_, ?_⟩
  · intro s w x a got r hf hx he hh
    exact ⟨fun ho hl hw => execSlipResolve_mem r hf hx he hh ho hl hw, fun m ho hm hn hp hs => execSlipResolve_put r hf hx he hh ho hm hn hp hs⟩
  · intro s w t hf
    refine ⟨fun hk hb ht => ?_, fun hw hk => ?_⟩
    · have hnk : (killableWait w && killDue s w) = false := by
        cases hw : killableWait w
        · rfl
        · simp [hk hw]
      simp only [exec, execTrapDelivery, hf, hnk, hb, ht, Bool.false_eq_true, if_false, if_true]
    · simp only [exec, execTrapDelivery, hf, hw, hk, Bool.and_self, if_true]
  · intro s w p base prod cons n k l hf hp hq hw hr hn c ha1 ha2 ha3 hk hl hlt
    simp only [c] at ha1 ha2 ha3 hk hl
    have hgo : ¬ (p.written = true ∨ (getCtx s w.ctx).records.head? ≠ some w.id ∨ n = 0) := by simp [hw, hr, hn]
    simp only [exec, execFaultRecordWrite, hf, hp, hq, if_neg hgo, c, ha1, ha2, ha3, hk, hl, if_pos hlt, List.append_nil, List.isEmpty_nil,
      Bool.not_true, Bool.false_eq_true, if_false]

end Sys2Proof.Machine
end

section
/-! PROOFS. The events of engine operations (R87, R242, R243): what each does to an operation that is there. -/

namespace Sys2Proof.Machine

/-- How many operations of its kind a unit works on at once: 8 on a chain unit, 16 on an engine (R292, R296). -/
def unitLimit (o : EngOp) : Nat :=
  match o.kind with
  | .chain _ => 8
  | _ => 16

/-- Whether an operation goes to a chain unit. -/
def onChain (o : EngOp) : Bool :=
  match o.kind with
  | .chain _ => true
  | _ => false

/-- An operation starts when no live lock conflicts with it and its engine has room (R87). -/
theorem execEngineOpStart_eq {s : State} {o : EngOp} (ho : s.ops.find? (fun x => x.id == o.id) = some o) (hr : o.running = false)
    (ha : o.abort = none) (hl : lockConflict s o = false)
    (hb : ((unitOps s (onChain o) o.core).filter (fun x => x.running && x.engine == o.engine)).length < unitLimit o) :
    execEngineOpStart o.id s = .next (modOp s o.id (fun x => { x with running := true })) := by
  simp only [execEngineOpStart, ho]
  refine if_neg ?_
  rintro (h | h | h | h)
  · simp [hr] at h
  · simp [ha] at h
  · revert h hb
    unfold onChain unitLimit
    cases o.kind <;> simp only [Bool.false_eq_true, if_false, if_true] <;> omega
  · simp [hl] at h

/-- Nothing holds back the next chunk of a running operation that no fault, abort or unanswered read of a peer stops (R242). -/
theorem chunk_notHeld {s : State} {o : EngOp} (hr : o.running = true) (ha : o.abort = none) (hf : o.fault = none) (hc : o.chunk < engChunks o)
    (hp : ∀ p ∈ opPackets s o.id, p.kind ≠ 1) :
    ¬ ((!o.running) = true ∨ o.abort.isSome = true ∨ o.fault.isSome = true ∨ engChunks o ≤ o.chunk
      ∨ (opPackets s o.id).any (fun p => p.kind == 1) = true) := by
  have hk : (opPackets s o.id).any (fun p => p.kind == 1) = false := by
    rw [List.any_eq_false]
    intro p hm
    simpa using hp p hm
  simp [hr, ha, hf, hk, hc]

/-- An operation that has read no poison leaves no record of it (R297). -/
theorem poisonRecord_clean {s : State} {o : EngOp} (h : o.poison = none) : poisonRecord s o = s := by simp [poisonRecord, h]

/-- A whole operation without poison ends with code 0 (R243). -/
theorem execEngineOpComplete_ok {s : State} {o : EngOp} (ho : s.ops.find? (fun x => x.id == o.id) = some o) (hr : o.running = true)
    (ha : o.abort = none) (hf : o.fault = none) (hp : o.poison = none) (hs : o.stage = 0) (hc : engChunks o ≤ o.chunk)
    (hk : opPackets s o.id = []) (hfar : o.far = []) : execEngineOpComplete o.id s = .next (finishOp s o 0 0 .ok 0) := by
  have hgo : ¬ ((!o.running) = true ∨ (o.abort.isSome = true ∧ o.stage = 0 ∧ (!pastAbort o) = true) ∨ 10 ≤ o.stage
      ∨ (!(opPackets s o.id).isEmpty) = true ∨ (!o.far.isEmpty) = true ∨ (o.fault.isNone = true ∧ o.chunk < engChunks o)) := by
    simp [hr, ha, hs, hk, hfar, hc]
  simp only [execEngineOpComplete, ho]
  rw [if_neg hgo, hf, hp, poisonRecord_clean hp]

/-- An operation without a completion block is gone as it ends (R243). -/
theorem finishOp_noBlock {s : State} {o : EngOp} (offset code : Nat) (e : OpEnd) (base : Nat) (h : o.comp = 0) :
    finishOp s o offset code e base = endOp (dropLocks s o.id) o code e := by
  simp [finishOp, blockWrite, h]

/-- An operation to be aborted for a cancelled scope ends with code 3, the rest of its destination lost (R35). -/
theorem execEngineOpAbort_cancel {s : State} {o : EngOp} (ho : s.ops.find? (fun x => x.id == o.id) = some o) (ha : o.abort = some .cancel)
    (hs : o.stage = 0) (hk : opPackets s o.id = []) (hfar : o.far = []) (hp : pastAbort o = false) :
    execEngineOpAbort o.id s = .next (finishOp (poisonRecord (if o.running then loseRest s o else s) o) o 0 3 .aborted 10) := by
  have hgo : ¬ (pastAbort o = true ∨ (!(opPackets s o.id).isEmpty) = true ∨ (!o.far.isEmpty) = true ∨ (1 ≤ o.stage ∧ o.stage < 10)) := by
    simp [hp, hk, hfar, hs]
  simp only [execEngineOpAbort, ho, ha]
  rw [if_neg hgo]
  simp only [hs, and_true]

/-- Settles O51: each event's meaning at an operation that is there and in the state that its clause supposes. -/
theorem engineEventsComplete : Obligations.EngineEventsComplete := by
  unfold Obligations.EngineEventsComplete
  refine ⟨?_, ?_, ?_, ?_⟩
  · intro s o ho hr ha hl hb
    refine execEngineOpStart_eq ho hr ha hl ?_
    revert hb
    unfold onChain unitLimit
    cases o.kind <;> exact id
  · intro s o ho hr ha hf hc hfar hp
    have hgo := chunk_notHeld hr ha hf hc hp
    refine ⟨fun r hn => ?_, fun r els hne hn => ?_⟩
    · simp only [exec, execEngineChunk, ho, hfar, List.isEmpty_nil, Bool.not_true, Bool.false_eq_true, if_false, if_neg hgo, hn]
    · cases els
      · exact absurd rfl hne
      · simp only [exec, execEngineChunk, ho, hfar, List.isEmpty_nil, Bool.not_true, Bool.false_eq_true, if_false, if_neg hgo, hn]
  · exact fun s o ho hr ha hf hp hs hc hk hfar => ⟨execEngineOpComplete_ok ho hr ha hf hp hs hc hk hfar, finishOp_noBlock 0 0 .ok 0⟩
  · exact fun s o ho ha hs hk hfar hp => execEngineOpAbort_cancel ho ha hs hk hfar hp

end Sys2Proof.Machine
end

section
/-! PROOFS. TRAP, RFT and MARK (R55, R59, R153, R154, R163). -/

namespace Sys2Proof.Machine

/-! ### Branch targets of a state that a wave has been put back in -/

/-- A walk reads local HBM alone (R298). -/
@[simp] theorem putWave_walkFrom (s : State) (x : Wave) (asid va n table : Nat) :
    walkFrom (putWave s x) asid va n table = walkFrom s asid va n table := by
  induction n generalizing table with
  | zero => rfl
  | succ n ih => simp only [walkFrom, ih]; rfl

@[simp] theorem putWave_translate (s : State) (x : Wave) (asid : Nat) (root : W64) (va : Nat) (wr : Bool) :
    translate (putWave s x) asid root va wr = translate s asid root va wr := by
  simp only [translate, putWave_walkFrom]
  rfl

@[simp] theorem putWave_fetchXlate (s : State) (x : Wave) (c : Ctx) (pc : W64) : fetchXlate (putWave s x) c pc = fetchXlate s c pc := by
  simp only [fetchXlate, putWave_translate]

@[simp] theorem putWave_lineAt (s : State) (x w : Wave) (pc : W64) : lineAt (putWave s x) w pc = lineAt s w pc := by
  simp only [lineAt, peekLine, putWave_fetchXlate, putWave_getCtx]
  rfl

@[simp] theorem putWave_targetOk (s : State) (x w : Wave) (pc : W64) (b : Bool) : targetOk (putWave s x) w pc b = targetOk s w pc b := by
  simp only [targetOk, putWave_lineAt]

/-! ### RFT -/

@[simp] theorem returnFromTrap_id (v : Wave) : (returnFromTrap v).id = v.id := by simp only [returnFromTrap]
@[simp] theorem returnFromTrap_stopping (v : Wave) : (returnFromTrap v).ctl.stopping = v.ctl.stopping := by simp only [returnFromTrap]

/-- RFT at a target that it may reach, in handler mode and under no halt, returns its wave (R55). -/
theorem rftBody_returns {s : State} {v : Wave} (hh : v.hz.handler = true) (ht : targetOk s v (frameReturn v).1 false = true)
    (hs : v.ctl.stopping = false) :
    rftBody (putWave s v) v = .over (settleAll (putWave s { returnFromTrap v with issued := v.issued + 1 }) v.id) := by
  simp only [rftBody, hh, putWave_targetOk, ht, returnFromTrap_stopping, hs, Bool.not_true, Bool.false_eq_true, if_false]
  rw [putWave_putWave]
  exact (returnFromTrap_id v).symm

/-- RFT outside handler mode is illegal. -/
theorem rftBody_outside {s : State} {v : Wave} (hh : v.hz.handler = false) : rftBody s v = .trap s (precise 0x01) := by
  simp only [rftBody, hh, Bool.not_false, if_true]

/-- The lanes for which an instruction executes again after a return to it (log 104). -/
theorem filter_rest {r : Option (W64 × Mask)} {pc : W64} (h : ∀ p, r = some p → p.1 ≠ pc) : r.filter (fun p => p.1 == pc) = none := by
  cases r with
  | none => rfl
  | some p => simp [Option.filter, h p rfl]

/-- Settles O23: TRAP raises its cause after any loop end, and RFT is its branch by handler mode, the return by the lanes left unfinished. -/
theorem trapAndReturnComplete : Obligations.TrapAndReturnComplete := by
  unfold Obligations.TrapAndReturnComplete
  refine ⟨?_, ?_⟩
  · intro s w v g h e
    refine h.traps none rfl (congrArg (·, none) ?_)
    rw [← putWave_putWave s v e.1 (loopEnds_id _ _ _).symm]
  · intro s w v g h pc back slips
    refine ⟨fun hh ht hs => ?_, fun hh => ?_⟩
    · have hret := h.over (f := fun s v => (rftBody s v, none)) none rfl (congrArg (·, none) (rftBody_returns hh ht hs))
      refine ⟨fun hr => ?_, fun m hm => ?_⟩
      · rw [hret]
        have ho : v.ctl.rest.filter (fun p => p.1 == (frameReturn v).1) = none := filter_rest hr
        simp only [returnFromTrap, ho]
        rfl
      · rw [hret]
        have ho : v.ctl.rest.filter (fun p => p.1 == (frameReturn v).1) = some (pc, m) := by
          rw [hm]
          exact Option.filter_some_pos (beq_self_eq_true _)
        simp only [returnFromTrap, ho]
        rfl
    · exact h.traps none rfl (congrArg (·, none) (rftBody_outside hh))

/-! ### MARK -/

section
variable {g : GenW} {s : State} {v : Wave} {id : Nat}

/-- MARK of an id that the table does not have (R163). -/
theorem markBody_beyond (hid : markId g = some id) (h : (getTeam s v.team).kernel.flash = 0 ∨ (getTeam s v.team).kernel.flashN ≤ id) :
    markBody g s v = .trap s (precise 0x01) := by
  simp only [markBody, hid, if_pos h]

/-- MARK of an entry that is not well formed, or that the table does not have (log 103). -/
theorem markBody_illFormed {l : List Byte} (hid : markId g = some id)
    (hl : recAt s v ((getTeam s v.team).kernel.flash + w64 (64 * id)) 1 8 = .ok l) (hf : flashOk v.regs.cnt l = false) :
    markBody g s v = .trap s (precise 0x01) := by
  simp only [markBody, hid, hl, hf, Bool.not_false, if_true, ite_self]

/-- MARK of a well-formed entry of the table records the flashback point (R59). -/
theorem markBody_records {l : List Byte} (hid : markId g = some id)
    (h : ¬ ((getTeam s v.team).kernel.flash = 0 ∨ (getTeam s v.team).kernel.flashN ≤ id))
    (hl : recAt s v ((getTeam s v.team).kernel.flash + w64 (64 * id)) 1 8 = .ok l) (hf : flashOk v.regs.cnt l = true) :
    markBody g s v = .done (putWave s { v with ctl := { v.ctl with
      flash := some (flashOf v id (.mark g)), idem := enterIdem s v (flashOf v id (.mark g)) } }) := by
  simp only [markBody, hid, if_neg h, hl, hf, Bool.not_true, Bool.false_eq_true, if_false]

end

/-- Settles O25: each clause is one branch of MARK's effect. -/
theorem markCompletes : Obligations.MarkCompletes := by
  unfold Obligations.MarkCompletes
  refine ⟨?_, ?_, ?_⟩
  · intro s w v g id l h hid k hk hn hl hf e f
    have hin : ¬ (k.flash = 0 ∨ k.flashN ≤ id) := not_or.mpr ⟨hk, Nat.not_le.mpr hn⟩
    refine h.does none rfl (congrArg (·, none) ?_) h.v_id rfl rfl rfl
    exact (markBody_records (s := putWave s v) hid hin hl hf).trans (congrArg Out.done (putWave_putWave s v _ rfl))
  · exact fun s w v g id h hid hout => h.traps none rfl (congrArg (·, none) (markBody_beyond hid hout))
  · exact fun s w v g id l h hid hl hf => h.traps none rfl (congrArg (·, none) (markBody_illFormed hid hl hf))

end Sys2Proof.Machine
end

section
/-! PROOFS. Held stores, lazy stores and failable accesses (R43, R46, R49, R130, R221 to R231). -/

namespace Sys2Proof.Machine

/-- A memory instruction from a base that stands is its access. -/
theorem memBody_done {s t : State} {v : Wave} {i : Instr} {m : MemOp} {b : W64} {via : Via} {upd : Option (Nat × Handle)}
    (hb : baseOf s v m.hdr m.a (kWrites m.kind) = some (b, via, upd))
    (hk : issueAccess s v (opRecOf s v i) (accOf s v i m b via) via m.mode = .done t) :
    memBody i m s v = .done (keptHandle t v.id upd) := baseOf_eq hb _ hk

/-- An effect in its wave alone, with a handle brought up to date. -/
theorem Issues.endsWith {s : State} {w v x : Wave} {i : Instr} {f : Body} {upd : Option (Nat × Handle)} (h : Issues s w v i) (l : Option Latch)
    (he : Sys2Proof.Machine.exec i s = issueR i s f) (hx : x.id = v.id ∧ x.ctl = v.ctl ∧ x.ctx = v.ctx ∧ x.scope = v.scope)
    (hf : f (putWave s v) v = (.done (keptHandle (putWave s x) v.id upd), l)) : Ends s i v.id (keptHandle (putWave s x) v.id upd) := by
  obtain ⟨hid, hctl, hctx, hsc⟩ := hx
  rw [← hid] at hf ⊢
  obtain ⟨y, hy, yid, yctl, yctx, ysc⟩ := keptHandle_putWave s x upd
  rw [hy] at hf ⊢
  have yw : y.id = w.id := yid.trans (hid.trans h.v_id)
  rw [hid, h.v_id]
  refine h.ends l he hf (findWave_putWave h.found yw) (by rw [yctl, hctl]; exact h.v_live) (.inr ?_)
  rw [yctx, ysc, hctx, hsc]
  exact h.v_alive

/-- A wave with one more held store, and the lazy read of its data where it claims a slot. -/
def withHeld (v : Wave) (k : Held) (z : Option LazyRead) : Wave :=
  { v with hz := { v.hz with held := v.hz.held ++ [k], lazies := v.hz.lazies ++ (z.map (fun z => { z with target := .held k.key })).toList } }

/-- A held store joins its wave, and the lazy read of its data with it. -/
theorem addLazy_keepHeld (s : State) (v : Wave) (k : Held) (z : Option LazyRead) :
    addLazy (keepHeld (putWave s v) v.id k) v.id z (.held k.key) = putWave s (withHeld v k z) := by
  rw [keepHeld, modWave_putWave _ _ _ rfl]
  cases z with
  | none => simp [addLazy, withHeld]
  | some z => exact modWave_putWave s { v with hz := { v.hz with held := v.hz.held ++ [k] } } _ rfl

/-- The lazy read of a store joins its wave. -/
theorem addLazy_putWave (s : State) (v : Wave) (z : LazyRead) (t : LazyTarget) :
    addLazy (putWave s v) v.id (some z) t = putWave s { v with hz := { v.hz with lazies := v.hz.lazies ++ [{ z with target := t }] } } :=
  modWave_putWave s v _ rfl

section
variable {i : Instr} {m : Wave → MemOp}

/-- The rule of local stores that are held or whose data is read lazily, for an instruction that is a store. -/
theorem heldRule (he : ∀ s, Sys2Proof.Machine.exec i s = issueR i s (fun s v => (memBody i (m v) s v, none)))
    (hw : ∀ v, kWrites (m v).kind = true) : HeldRule i m := by
  intro s w v b via upd h p a held hb hl hgo
  have hacc := issueAccess_ok (rcd := opRecOf p v i) (md := (m v).mode) hl.1 hgo.1 hgo.2.1 hl.ok
  rw [hl.notRemote] at hacc
  rw [← hw v] at hb
  have hends {x : Wave} (hx : x.id = v.id ∧ x.ctl = v.ctl ∧ x.ctx = v.ctx ∧ x.scope = v.scope)
      (hk : commitAccess p v (opRecOf p v i) a (m v).mode false false = .done (putWave s x)) :
      Ends s i v.id (keptHandle (putWave s x) v.id upd) :=
    h.endsWith none (he s) hx (congrArg (·, none) (memBody_done hb (hacc.trans hk)))
  refine ⟨fun hr hp hn => ?_, fun z hp hz => ?_⟩
  · have hk := (commit_held (rcd := opRecOf p v i) hl.notRemote hgo hr hp hn).trans
      (congrArg Out.done (addLazy_keepHeld s v held (m v).mode.slot))
    have hd := hends (x := withHeld v held (m v).mode.slot) ⟨rfl, rfl, rfl, rfl⟩ hk
    exact ⟨fun hz => by simpa [hz, withHeld] using hd, fun z hz => by simpa [hz, withHeld] using hd⟩
  · rw [atIssue_now (heldNow_false hgo.2.1 hp)] at hgo
    refine hends ⟨rfl, rfl, rfl, rfl⟩ ((commit_lazy hl.notRemote hgo hp hz).trans (congrArg Out.done ?_))
    rw [hz]
    exact addLazy_putWave s v z (.store a)

/-- The rule of accesses beyond the device. -/
theorem farRule (he : ∀ s, Sys2Proof.Machine.exec i s = issueR i s (fun s v => (memBody i (m v) s v, none))) : FarRule i m := by
  intro s w v b via upd h p a hb hok hr hgo
  have hne : (accOf p v i (m v) b via).elems ≠ [] := by
    intro h0
    simp [a, placed, h0] at hr
  refine h.finishes none (he s) (congrArg (·, none) (memBody_done hb ?_))
  rw [issueAccess_ok hne hgo.1.1 hgo.1.2.1 hok]
  exact (congrArg (commitAccess p v _ a _ · false) hr).trans (sentFrom_eq hgo)

end

/-- Settles O30: each memory instruction is its access, by the two rules. -/
theorem failableAccessCompletes : Obligations.FailableAccessCompletes := by
  unfold Obligations.FailableAccessCompletes
  exact ⟨fun _ => heldRule (fun _ => rfl) (fun _ => rfl), fun _ => heldRule (fun _ => rfl) (fun _ => rfl),
    fun _ => heldRule (fun _ => rfl) (fun _ => rfl), fun _ => farRule (fun _ => rfl), fun _ => farRule (fun _ => rfl),
    fun _ => farRule (fun _ => rfl), fun _ => farRule (fun _ => rfl), fun _ => farRule (fun _ => rfl), fun _ => farRule (fun _ => rfl),
    fun _ => farRule (fun _ => rfl), fun _ => farRule (fun _ => rfl), fun _ => farRule (fun _ => rfl)⟩

end Sys2Proof.Machine
end

section
/-! PROOFS. HWAIT, WAITT and the end of a YIELD (R48, R130, R155, R259, R260). -/

namespace Sys2Proof.Machine

/-- HWAIT of a tag: the wave goes on once its horizon has passed it, and else waits (R259). -/
theorem Issues.hwait {s : State} {w v : Wave} {g : GenW} {t : W32} (h : Issues s w v (.hwait g))
    (hb : hwaitBody g (putWave s v) v = if passed v t then .done (putWave s v) else .stay (putWave s v) (.hwait t)) :
    (passed v t = true → Does s (.hwait g) v) ∧ (passed v t = false → Waits s (.hwait g) (putWave s v) v.id (.hwait t)) := by
  refine ⟨fun hp => h.doesNothing none rfl (congrArg (·, none) (hb.trans (if_pos hp))), fun hp => ?_⟩
  exact h.waitsHere none rfl (congrArg (·, none) (hb.trans (if_neg (by simp [hp])))) h.v_here

/-- HWAIT at its issue takes the tag of its operand (R48). -/
theorem hwaitBody_issue {s : State} {v : Wave} (g : GenW) (h : ∀ x, v.ctl.wait ≠ .hwait x) :
    hwaitBody g s v = if passed v (waitTag v (w32 (scalarOp s v g.hdr.lit g.a).toNat)) then .done s
      else .stay s (.hwait (waitTag v (w32 (scalarOp s v g.hdr.lit g.a).toNat))) := by
  unfold hwaitBody
  split
  · exact absurd ‹_› (h _)
  · rfl

/-- HWAIT that has waited keeps the tag that it took. -/
theorem hwaitBody_again {s : State} {v : Wave} (g : GenW) {t : W32} (h : v.ctl.wait = .hwait t) :
    hwaitBody g s v = if passed v t then .done s else .stay s (.hwait t) := by
  simp only [hwaitBody, h]

/-- A slot of 1 to 7 that WAITT names is held (R260). -/
def namedSlotHeld (v : Wave) (m : Nat) : Bool := (List.range 7).any (fun j => bitAt m (j + 1) && slotHeld v (j + 1))

theorem namedSlotHeld_iff {v : Wave} {m : Nat} :
    namedSlotHeld v m = true ↔ ∃ j, 1 ≤ j ∧ j ≤ 7 ∧ bitAt m j = true ∧ slotHeld v j = true := by
  simp only [namedSlotHeld, List.any_eq_true, List.mem_range, Bool.and_eq_true]
  constructor
  · rintro ⟨j, hj, hb, hs⟩
    exact ⟨j + 1, by omega, by omega, hb, hs⟩
  · rintro ⟨j, h1, h7, hb, hs⟩
    obtain ⟨k, rfl⟩ : ∃ k, j = k + 1 := ⟨j - 1, by omega⟩
    exact ⟨k, by omega, hb, hs⟩

theorem waittBody_eq (g : GenW) (s : State) (v : Wave) :
    waittBody g s v = if bitAt (scalarOp s v g.hdr.lit g.a).toNat 0 then .trap s (precise 0x01)
      else if namedSlotHeld v (scalarOp s v g.hdr.lit g.a).toNat then .stay s .waitt else .done s := rfl

/-- A wave whose YIELD is over (R155). -/
def yieldOver (s : State) (w : Wave) : Wave :=
  match w.ctl.wait with
  | .yielded others lim => if (yieldLeft s others).isEmpty || decide (lim ≤ s.clk) then setSt w w.ctl.st .idle else w
  | _ => w

theorem execYieldExpiry_eq (id : Nat) (s : State) : execYieldExpiry id s = .next (modWave s id (yieldOver s)) := rfl

@[simp] theorem yieldOver_id (s : State) (w : Wave) : (yieldOver s w).id = w.id := by
  unfold yieldOver
  split
  · split <;> rfl
  · rfl

/-- A YIELD is over once the others have issued, or its time is over. -/
theorem yieldOver_ends {s : State} {v : Wave} {others : List (Nat × Nat)} {lim : Nat} (hw : v.ctl.wait = .yielded others lim)
    (h : yieldLeft s others = [] ∨ lim ≤ s.clk) : yieldOver s v = setSt v v.ctl.st .idle := by
  simp only [yieldOver, hw]
  rcases h with h | h <;> simp [h]

/-- Settles O43: HWAIT and WAITT by the branches of their effects, and what the end of a YIELD does to its wave and to the others. -/
theorem waitsComplete : Obligations.WaitsComplete := by
  unfold Obligations.WaitsComplete
  refine ⟨?_, ?_, ?_, ?_⟩
  · intro s w v g h hw t
    refine h.hwait ?_
    rw [hwaitBody_issue g hw, putWave_scalarOp]
  · exact fun s w v g t h hw => h.hwait (hwaitBody_again g hw)
  · intro s w v g h m
    have hb := waittBody_eq g (putWave s v) v
    rw [putWave_scalarOp] at hb
    refine ⟨fun h0 => ?_, fun h0 hf => ?_, fun h0 hx => ?_⟩
    · exact h.traps none rfl (congrArg (·, none) (hb.trans (if_pos h0)))
    · have hn : ¬ namedSlotHeld v m = true := by
        rw [namedSlotHeld_iff]
        rintro ⟨j, h1, h7, hj, hs⟩
        simp [hf j h1 h7 hj] at hs
      exact h.doesNothing none rfl (congrArg (·, none) (hb.trans ((if_neg (by simp [m, h0])).trans (if_neg hn))))
    · exact h.waitsHere none rfl
        (congrArg (·, none) (hb.trans ((if_neg (by simp [m, h0])).trans (if_pos (namedSlotHeld_iff.mpr hx))))) h.v_here
  · intro s v others lim hf hw hover
    refine ⟨_, execYieldExpiry_eq v.id s, ?_, fun n hn => ?_⟩
    · rw [findWave_modWave _ _ _ _ (yieldOver_id s), hf, ← yieldOver_ends hw hover]
      simp
    · rw [findWave_modWave _ _ _ _ (yieldOver_id s)]
      cases hx : findWave s n with
      | none => rfl
      | some x => simp [findWave_id hx, hn]

end Sys2Proof.Machine
end

section
/-! PROOFS. Taking a trap (R49, R53 to R57). -/

namespace Sys2Proof.Machine

/-! ### What a delivery makes of its wave -/

/-- The wave after a trap has discarded the held stores younger than its tag, and their count: only a trap of the horizon class does (R49). -/
def discardFor (w : Wave) (t : TrapInfo) : Wave × Nat :=
  match t.cls, t.tag with
  | .horizon, some g => discardHeld w g
  | _, _ => (w, 0)

/-- The wave that a trap is delivered to, with the trap no longer pending. -/
def tookTrap (w : Wave) (t : TrapInfo) : Wave := takePending (discardFor w t).1 t

/-- The frame of a trap (R57). -/
def trapFrame (w : Wave) (t : TrapInfo) : List Byte := frameBytes w t (discardFor w t).2 (morePending (tookTrap w t))

/-- The state in which a trap is delivered: its wave has left the CLAIM queue of its half (R28). -/
def trapState (s : State) (w : Wave) (t : TrapInfo) : State := claimLeave (putWave s (tookTrap w t)) (tookTrap w t)

/-- The state with the trap in the fault log, and the slip that it reports dropped (R54, R270). -/
def trapLogged (s : State) (w : Wave) (t : TrapInfo) : State :=
  flogWrite (putWave (trapState s w t) (match t.tag with | some g => dropSlip (tookTrap w t) g | none => tookTrap w t)) w.ctx (trapFrame w t)

/-- The handler of a trap entered, its frame in the stack aperture. -/
def trapHandled (w : Wave) (t : TrapInfo) (pc : W64) : Wave :=
  enterHandler { tookTrap w t with
    stack := memPuts w.stack frameOff (trapFrame w t), stackTop := max (tookTrap w t).stackTop (frameOff + 256) } pc (t.cls != .precise)

/-- A discard changes the horizon state of its wave alone, and in it not handler mode. -/
theorem discardFor_eq (w : Wave) (t : TrapInfo) : ∃ z, (discardFor w t).1 = { w with hz := z } ∧ z.handler = w.hz.handler := by
  unfold discardFor
  split
  · exact ⟨_, rfl, rfl⟩
  · exact ⟨w.hz, rfl, rfl⟩

/-- A delivery changes the horizon state of its wave alone, and in it neither handler mode nor the held stores. -/
theorem takePending_eq (w : Wave) (t : TrapInfo) : ∃ z, takePending w t = { w with hz := z } ∧ z.handler = w.hz.handler ∧ z.held = w.hz.held := by
  unfold takePending
  split
  · exact ⟨_, rfl, rfl, rfl⟩
  · split <;> exact ⟨_, rfl, rfl, rfl⟩
  · exact ⟨_, rfl, rfl, rfl⟩
  · exact ⟨w.hz, rfl, rfl, rfl⟩

/-- A trap changes the horizon state of the wave that it is delivered to, and in it not handler mode. -/
theorem tookTrap_eq (w : Wave) (t : TrapInfo) : ∃ z, tookTrap w t = { w with hz := z } ∧ z.handler = w.hz.handler
    ∧ z.held = (discardFor w t).1.hz.held := by
  obtain ⟨y, hy, hyh⟩ := discardFor_eq w t
  obtain ⟨z, hz, hzh, hzd⟩ := takePending_eq (discardFor w t).1 t
  refine ⟨z, ?_, ?_, hzd⟩
  · rw [tookTrap, hz, hy]
  · rw [hzh, hy]
    exact hyh

section
variable (w : Wave) (t : TrapInfo)

@[simp] theorem tookTrap_id : (tookTrap w t).id = w.id := by obtain ⟨z, hz, -⟩ := tookTrap_eq w t; rw [hz]
@[simp] theorem tookTrap_ctx : (tookTrap w t).ctx = w.ctx := by obtain ⟨z, hz, -⟩ := tookTrap_eq w t; rw [hz]
@[simp] theorem tookTrap_team : (tookTrap w t).team = w.team := by obtain ⟨z, hz, -⟩ := tookTrap_eq w t; rw [hz]
@[simp] theorem tookTrap_scope : (tookTrap w t).scope = w.scope := by obtain ⟨z, hz, -⟩ := tookTrap_eq w t; rw [hz]
@[simp] theorem tookTrap_fsw : (tookTrap w t).fsw = w.fsw := by obtain ⟨z, hz, -⟩ := tookTrap_eq w t; rw [hz]
@[simp] theorem tookTrap_ctl : (tookTrap w t).ctl = w.ctl := by obtain ⟨z, hz, -⟩ := tookTrap_eq w t; rw [hz]
@[simp] theorem tookTrap_regs : (tookTrap w t).regs = w.regs := by obtain ⟨z, hz, -⟩ := tookTrap_eq w t; rw [hz]
@[simp] theorem tookTrap_stack : (tookTrap w t).stack = w.stack := by obtain ⟨z, hz, -⟩ := tookTrap_eq w t; rw [hz]
@[simp] theorem tookTrap_handler : (tookTrap w t).hz.handler = w.hz.handler := by obtain ⟨z, hz, hh, -⟩ := tookTrap_eq w t; rw [hz]; exact hh
@[simp] theorem tookTrap_killsOnTrap : killsOnTrap (tookTrap w t) t = killsOnTrap w t := by rw [killsOnTrap, tookTrap_fsw]; rfl
theorem tookTrap_held : (tookTrap w t).hz.held = (discardFor w t).1.hz.held := by obtain ⟨z, hz, -, hd⟩ := tookTrap_eq w t; rw [hz]; exact hd

end

/-- The traps that kill their wave: a machine check, and any of the fault-service wave (R54, R305). -/
theorem killsOnTrap_iff {w : Wave} {t : TrapInfo} : killsOnTrap w t = true ↔ ¬ (t.cls ≠ .machine ∧ w.fsw = false) := by
  simp [killsOnTrap, Decidable.or_iff_not_imp_left]

/-- What a trap does by its class, by handler mode, and by the policy of its kernel (R54, R55). -/
theorem takeTrap_eq {s : State} {w : Wave} {k : Kernel} (t : TrapInfo) (hf : findWave s w.id = some w) (hk : (getTeam s w.team).kernel = k) :
    takeTrap s w.id t =
      if killsOnTrap w t then killWave (trapLogged s w t) w.id
      else if w.hz.handler then haltCheck (haltCtx (trapLogged s w t) w.ctx none) w.ctx
      else if k.policy = 1 ∧ k.trapPc ≠ 0 ∧ !k.fromFsw then
        putWave (writeRange (trapState s w t) (.stack w.id) frameOff (trapFrame w t)) (trapHandled w t k.trapPc)
      else if k.policy = 2 ∧ !k.fromFsw then haltCheck (haltCtx (trapLogged s w t) w.ctx none) w.ctx
      else match findScope (getCtx s w.ctx) w.scope with
        | some r => if r.cancelled then killWave (trapLogged s w t) w.id else cancelMark (killWave (trapLogged s w t) w.id) w.ctx r.slot
        | none => killWave (trapLogged s w t) w.id := by
  subst hk
  simp only [trapLogged, trapHandled]
  rw [← tookTrap_killsOnTrap, ← tookTrap_ctx w t, ← tookTrap_team w t, ← tookTrap_scope w t, ← tookTrap_stack w t, ← tookTrap_handler w t]
  simp only [takeTrap, hf]
  rfl

/-- A trap that enters a handler leaves its wave there: its registers but %fault, its held stores and its stack, frame included (R49, R54 to R57). -/
theorem trapHandled_spec {w : Wave} (t : TrapInfo) (pc : W64) (hs : w.ctl.stopping = false) :
    let y := trapHandled w t pc
    y.id = w.id ∧ y.hz.handler = true ∧ y.ctl.pc = pc ∧ y.ctl.st = .ready ∧ y.ctl.wait = .idle ∧ y.ctl.latches = []
      ∧ y.ctl.park = none ∧ y.ctl.only = none ∧ y.popped = [] ∧ y.hz.held = (discardFor w t).1.hz.held
      ∧ y.regs = { w.regs with fault := 0 } ∧ y.stack = memPuts w.stack frameOff (trapFrame w t) := by
  intro y
  refine ⟨tookTrap_id w t, rfl, rfl, ?_, ?_, rfl, rfl, rfl, rfl, tookTrap_held w t, ?_, ?_⟩ <;> simp [y, trapHandled, enterHandler, hs]

/-- A wave alone under its identifier, changed in place. -/
theorem modWave_only {s : State} {w : Wave} (f : Wave → Wave) (h : ∀ x ∈ s.waves, x.id = w.id → x = w) (hf : (f w).id = w.id) :
    modWave s w.id f = putWave s (f w) := by
  simp only [modWave, putWave, hf]
  congr 1
  refine List.map_congr_left (fun x hx => ?_)
  split
  · rw [h x hx ‹_›]
  · rfl

@[simp] theorem noteFault_id (w : Wave) (c : Nat) (a : W64) : (noteFault w c a).id = w.id := by
  unfold noteFault
  split <;> rfl

/-- A wave `x` with the queues and the dead lanes of `w`, and nothing popped (R127, R263). -/
def asIssued (w x : Wave) : Wave :=
  { x with queues := w.queues, pops := w.pops, popped := [], regs := { x.regs with dead := w.regs.dead } }

theorem asIssued_self {w : Wave} (h : w.popped = []) : asIssued w w = w := by rw [asIssued, ← h]

/-- A secondary cause in handler mode is noted in %fault, and the wave goes on (R55). -/
theorem precisely_secondary {s : State} {w : Wave} (i : Instr) {t : PTrap} (hh : w.hz.handler = true) (h5 : 5 ≤ t.cause) (hb : t.cause ≤ 0x0B)
    (hp : w.popped = []) (hu : ∀ x ∈ s.waves, x.id = w.id → x = w) :
    precisely s w i t = complete (putWave s (noteFault w t.cause t.faddr)) w.id i none := by
  have hr : modWave s w.id (asIssued w) = putWave s w := (modWave_only _ hu rfl).trans (congrArg (putWave s) (asIssued_self hp))
  simp only [precisely, hh, h5, hb, decide_true, Bool.and_self, if_true]
  exact congrArg (complete · w.id i none) ((congrArg (modWave · w.id _) hr).trans (modWave_putWave s w _ (noteFault_id _ _ _)))

/-- Settles O46: the branches of a trap taken, what it leaves of a wave that enters its handler, and the branch of a secondary cause. -/
theorem trapEntry : Obligations.TrapEntry := by
  unfold Obligations.TrapEntry
  refine ⟨?_, ?_⟩
  · intro s w t hf k d x frame s1 logged own
    have ht := takeTrap_eq t hf (k := k) rfl
    have hgoes : own → ¬ killsOnTrap w t = true := fun ho hk => killsOnTrap_iff.mp hk ho
    refine ⟨fun ho hh hs hp hpc hk => ?_, fun ho => ?_, fun ho hh _ => ?_, fun ho hh hp hk => ?_, fun ho hh hk => ?_⟩
    · refine ⟨trapHandled w t k.trapPc, ?_, trapHandled_spec t k.trapPc hs⟩
      rw [ht, if_neg (hgoes ho), if_neg (by simp [hh]), if_pos ⟨hp, hpc, by simp [hk]⟩]
      rfl
    · rw [ht, if_pos (killsOnTrap_iff.mpr ho)]
      rfl
    · rw [ht, if_neg (hgoes ho), if_pos hh]
      rfl
    · rw [ht, if_neg (hgoes ho), if_neg (by simp [hh]), if_neg (by simp [hp]), if_pos ⟨hp, by simp [hk]⟩]
      rfl
    · have h1 : ¬ (k.policy = 1 ∧ k.trapPc ≠ 0 ∧ (!k.fromFsw) = true) := by
        rcases hk with hk | ⟨-, hk | hk⟩ <;> simp [hk]
      have h2 : ¬ (k.policy = 2 ∧ (!k.fromFsw) = true) := by
        rcases hk with hk | ⟨hk, -⟩ <;> simp [hk]
      rw [ht, if_neg (hgoes ho), if_neg (by simp [hh]), if_neg h1, if_neg h2]
      refine ⟨fun hr => ?_, fun r hr hc => ?_⟩
      · cases hfs : findScope (getCtx s w.ctx) w.scope with
        | none => rfl
        | some r => exact if_pos (hr r hfs)
      · rw [hr]
        exact if_neg (by simp [hc])
  · exact fun s w i t _ hh h5 hb hp hu => precisely_secondary i hh h5 hb hp hu

end Sys2Proof.Machine
end

section
/-! PROOFS. PREEMPTION and TEAM_RESTORE (R60, R62, R68, R283, R284). -/

namespace Sys2Proof.Machine

/-- PREEMPTION of a context whose save has begun saves it on (R60). -/
theorem execPreemption_saving {s : State} {ctx : Nat} (hh : (getCtx s ctx).halted = false) (hs : saving s ctx = true) :
    execPreemption ctx s = .next (saveTeams s ctx false) := by
  simp only [execPreemption, hh, hs, Bool.false_eq_true, if_false, if_true]

/-- PREEMPTION of a context whose slice has ended while another waits saves it (R60, R283). -/
theorem execPreemption_sliceOver {s : State} {ctx t p : Nat} (hh : (getCtx s ctx).halted = false) (ht : (getCtx s ctx).since = some t)
    (hp : topPrio s ctx = some p) (hgo : (getCtx s ctx).slice ≠ 0 ∧ t + (getCtx s ctx).slice * 1000 ≤ s.ns ∧ areaFits s (getCtx s ctx) = true
      ∧ otherWaits s ctx p = true) : execPreemption ctx s = .next (saveTeams s ctx false) := by
  simp only [execPreemption, hh, ht, hp, if_pos hgo, Bool.false_eq_true, if_false, ite_self]

/-- TEAM_RESTORE of the saved team that comes first among the entries with a core, on a core that it may take (R62, R68). -/
theorem execTeamRestore_first {s : State} {e : Pend} {t : Team} {core : Nat} (he : (pendings s).find? (fun x => (pendCore s x).isSome) = some e)
    (hr : e.ref = .saved t) (hm : mayTake s (getCtx s t.ctx) (savedShape s t) (savedSlot t) (mayReturn s t) core = true) :
    execTeamRestore t.id core s = .next (bringBack s t core) := by
  simp only [execTeamRestore, he, hr, hm, and_self, if_true]

/-- Settles O49: PREEMPTION where a save begins and where one goes on, and TEAM_RESTORE of the entry that comes first. -/
theorem preemptionEventsComplete : Obligations.PreemptionEventsComplete := by
  unfold Obligations.PreemptionEventsComplete
  refine ⟨?_, ?_, ?_⟩
  · exact fun s ctx t p ht hp hs hns hh ha ho => execPreemption_sliceOver hh ht hp ⟨hs, hns, ha, ho⟩
  · exact fun s ctx hh hs => execPreemption_saving hh hs
  · exact fun s e t core he hr hm => execTeamRestore_first he hr hm

end Sys2Proof.Machine
end

section
/-! PROOFS. Requests of peers as they arrive (R82 to R84, R316, R319, R320, R322): what the checks that all kinds share lead to, and what each
kind serves. -/

namespace Sys2Proof.Machine

/-! ### The checks that all kinds share -/

/-- A request served: its number accepted, unless its tag failed, and its reply queued (R319). -/
def servedWith (sp : SeqSpace) (seq : W32) (a : Served) : State :=
  sendReply (if a.2.2 then putSpaceIn a.1 (acceptIn (spaceIn a.1 sp) seq a.2.1) else a.1) a.2.1

/-- Below its highest value the count of dropped packets goes up by one (R322). -/
theorem countStale_below {s : State} (h : s.fab.stale ≠ BitVec.allOnes 32) :
    countStale s = { s with fab := { s.fab with stale := s.fab.stale + 1 } } := by
  simp only [countStale, if_neg h]

/-- What becomes of a request in sequence: refused in a stream in which a packet has been refused (R84), else what its kind serves. -/
def inSequence (s : State) (q : Req) (act : State → OutReply → Option Served) : Option Served :=
  let x := spaceIn s (reqSpace q)
  if x.refused then some (s, nakOf (replyTo q x.space q.seq 0) (if q.tagOk then 1 else 3), q.tagOk) else act s (replyTo q x.space q.seq 0)

section
variable {s : State} {q : Req} {act : State → OutReply → Option Served}
  (hh : q.headerOk = true) (hj : s.fab.joined = true) (hd : q.dst = s.fab.id)
include hh hj hd

/-- A good request for this device is not dropped unseen. -/
theorem request_heard : ¬ ((!q.headerOk) = true ∨ (!s.fab.joined) = true ∨ q.dst ≠ s.fab.id) := by simp [hh, hj, hd]

/-- A stale request is dropped and counted (R322). -/
theorem serve_stale (hs : staleIn s q.src.toNat q.dinc q.sinc = true) : serve s q act = countStale s := by
  rw [serve, if_neg (request_heard hh hj hd), if_pos hs]

variable (hs : staleIn s q.src.toNat q.dinc q.sinc = false)
include hs

/-- A duplicate is answered again, with the reply that has been kept (R319). -/
theorem serve_again {r : OutReply} (hc : seqCheck (spaceIn s (reqSpace q)) q = .again (some r)) : serve s q act = sendReply s r := by
  simp only [serve, if_neg (request_heard hh hj hd), hs, hc, Bool.false_eq_true, if_false]

variable (hc : seqCheck (spaceIn s (reqSpace q)) q = .fresh)
include hc

/-- A request in sequence is served and answered, or waits and changes nothing. -/
theorem serve_fresh : serve s q act = (inSequence s q act).elim s (servedWith (spaceIn s (reqSpace q)).space q.seq) := by
  simp only [serve, if_neg (request_heard hh hj hd), hs, hc, inSequence, Bool.false_eq_true, if_false]
  cases (spaceIn s (reqSpace q)).refused with
  | true => rfl
  | false =>
    simp only [Bool.false_eq_true, if_false]
    cases act s (replyTo q (spaceIn s (reqSpace q)).space q.seq 0) <;> rfl

/-- In a stream in which a packet has been refused a later one is refused too (R84). -/
theorem serve_refused (hr : (spaceIn s (reqSpace q)).refused = true) (ht : q.tagOk = true) :
    serve s q act = servedWith (spaceIn s (reqSpace q)).space q.seq
      (s, nakOf (replyTo q (spaceIn s (reqSpace q)).space q.seq 0) 1, true) := by
  simp only [serve_fresh hh hj hd hs hc, inSequence, hr, ht, if_true, Option.elim_some]

variable (hr : (spaceIn s (reqSpace q)).refused = false)
include hr

/-- A request in sequence that is served is answered. -/
theorem serve_answers {a : Served} (ha : act s (replyTo q (spaceIn s (reqSpace q)).space q.seq 0) = some a) :
    serve s q act = servedWith (spaceIn s (reqSpace q)).space q.seq a := by
  simp only [serve_fresh hh hj hd hs hc, inSequence, hr, ha, Bool.false_eq_true, if_false, Option.elim_some]

/-- A request in sequence that has to wait changes nothing (R83). -/
theorem serve_waits (ha : act s (replyTo q (spaceIn s (reqSpace q)).space q.seq 0) = none) : serve s q act = s := by
  simp only [serve_fresh hh hj hd hs hc, inSequence, hr, ha, Bool.false_eq_true, if_false, Option.elim_none]

end

/-- A request packet of its own kind is served. -/
theorem servePacketOf_kind {kind : Nat} {pkt : Packet} (s : State) (act : Req → State → OutReply → Option Served) (h : (reqOf pkt).kind = kind) :
    servePacketOf kind pkt s act = serve s (reqOf pkt) (act (reqOf pkt)) := if_pos h

section
variable {s : State} {pkt : Packet} {t : State}

theorem execFabricWritePacket_serves (hk : (reqOf pkt).kind = 0) (h : serve s (reqOf pkt) (serveWrite (reqOf pkt)) = t) :
    execFabricWritePacket pkt s = .next (retryDues t) := by
  rw [execFabricWritePacket, servePacketOf_kind s _ hk, h]

theorem execFabricReadPacket_serves (hk : (reqOf pkt).kind = 1) (h : serve s (reqOf pkt) (serveRead (reqOf pkt)) = t) :
    execFabricReadPacket pkt s = .next t := by
  rw [execFabricReadPacket, servePacketOf_kind s _ hk, h]

theorem execFabricAtomicPacket_serves (hk : (reqOf pkt).kind = 2) (h : serve s (reqOf pkt) (serveAtomic (reqOf pkt)) = t) :
    execFabricAtomicPacket pkt s = .next t := by
  rw [execFabricAtomicPacket, servePacketOf_kind s _ hk, h]

end

/-! ### What each kind serves -/

/-- A write never waits: it is servedWith whatever becomes of it. -/
theorem serveWrite_some (q : Req) (s : State) (r : OutReply) : ∃ a, serveWrite q s r = some a := by
  unfold serveWrite
  split
  · exact ⟨_, rfl⟩
  · dsimp only
    split <;> exact ⟨_, rfl⟩

section
variable {q : Req} {s : State} {c : Ctx} {ps : List (Space × Nat)} (r : OutReply)

/-- A read that has its places gives the values there; that of an acquire load only where no line of them is pending (R83). -/
theorem serveRead_gives (ht : q.tagOk = true) (hp : servePlaces s q .load (q.recs.map (·.addr)) = some (c, ps))
    (h : q.acquire = true → ∀ p ∈ ps, placePending s p = false) :
    serveRead q s r = some (s,
      { r with kind := 3, results := ps.map (fun p => w64 (readNat s p.1 p.2 (tySize q.etype))), poison := recPoison s ps }, true) := by
  have hgo : (q.acquire && ps.any (placePending s)) = false := by
    cases ha : q.acquire with
    | false => rfl
    | true => simpa using h ha
  simp only [serveRead, ht, hp, hgo, Bool.not_true, Bool.false_eq_true, if_false]

/-- The read of an acquire load waits while one of its lines is pending (R83). -/
theorem serveRead_waits {p : Space × Nat} (ht : q.tagOk = true) (hp : servePlaces s q .load (q.recs.map (·.addr)) = some (c, ps))
    (ha : q.acquire = true) (hm : p ∈ ps) (h : placePending s p = true) : serveRead q s r = none := by
  have hany : ps.any (placePending s) = true := List.any_eq_true.mpr ⟨p, hm, h⟩
  simp only [serveRead, ht, hp, ha, hany, Bool.not_true, Bool.false_eq_true, if_false, Bool.and_self, if_true]

/-- An atomic waits while one of its lines is pending (R83). -/
theorem serveAtomic_waits {p : Space × Nat} (ht : q.tagOk = true) (hp : servePlaces s q (.atom q.aop) (q.recs.map (·.addr)) = some (c, ps))
    (hm : p ∈ ps) (h : placePending s p = true) : serveAtomic q s r = none := by
  have hany : ps.any (placePending s) = true := List.any_eq_true.mpr ⟨p, hm, h⟩
  simp only [serveAtomic, ht, hp, hany, Bool.not_true, Bool.false_eq_true, if_false, if_true]

end

/-- Settles O54: the branches of the shared checks, and what each kind serves where its number is fresh. -/
theorem fabricRequestsComplete : Obligations.FabricRequestsComplete := by
  unfold Obligations.FabricRequestsComplete
  intro s pkt q x r0 answer hh hj hd
  refine ⟨fun hs hc => ⟨fun hk hr => ?_, fun hk hr ht => ?_, fun a hk hr ha => ?_, fun a hk hr ha => ?_, fun c ps hk hr ht hp => ⟨fun h => ?_, ?_⟩,
      fun c ps hk hr ht hp p hm h => ?_⟩,
    fun r hs hc => ⟨fun hk => ?_, fun hk => ?_, fun hk => ?_⟩, fun hs hn => ?_⟩
  · obtain ⟨a, ha⟩ := serveWrite_some q s r0
    exact ⟨a, ha, execFabricWritePacket_serves hk (serve_answers hh hj hd hs hc hr ha)⟩
  · exact execFabricWritePacket_serves hk (serve_refused hh hj hd hs hc hr ht)
  · exact execFabricReadPacket_serves hk (serve_answers hh hj hd hs hc hr ha)
  · exact execFabricAtomicPacket_serves hk (serve_answers hh hj hd hs hc hr ha)
  · exact execFabricReadPacket_serves hk (serve_answers hh hj hd hs hc hr (serveRead_gives r0 ht hp h))
  · exact fun p hm ha h => execFabricReadPacket_serves hk (serve_waits hh hj hd hs hc hr (serveRead_waits r0 ht hp ha hm h))
  · exact execFabricAtomicPacket_serves hk (serve_waits hh hj hd hs hc hr (serveAtomic_waits r0 ht hp hm h))
  · exact execFabricWritePacket_serves hk (serve_again hh hj hd hs hc)
  · exact execFabricReadPacket_serves hk (serve_again hh hj hd hs hc)
  · exact execFabricAtomicPacket_serves hk (serve_again hh hj hd hs hc)
  · have hst := fun act => (serve_stale (act := act) hh hj hd hs).trans (countStale_below hn)
    exact ⟨fun hk => execFabricWritePacket_serves hk (hst _), fun hk => execFabricReadPacket_serves hk (hst _),
      fun hk => execFabricAtomicPacket_serves hk (hst _)⟩

end Sys2Proof.Machine
end

section
/-! PROOFS. Answers to this device's packets, the expiry of their timers, and the resynchronisation of a stream (R84, R314, R318 to R322). -/

namespace Sys2Proof.Machine

/-! ### An answer heard -/

section
variable {s : State} {ans : Answer} {kinds : List Nat} {f : Ans → State} (hh : (ansOf ans).headerOk = true) (hj : s.fab.joined = true)
  (hd : (ansOf ans).dst = s.fab.id) (hk : (ansOf ans).kind ∈ kinds)
include hh hj hd hk

/-- A good answer of its kind for this device is not dropped unseen. -/
theorem answer_heard : ¬ ((!(ansOf ans).headerOk) = true ∨ (!s.fab.joined) = true ∨ (ansOf ans).dst ≠ s.fab.id
    ∨ (!kinds.contains (ansOf ans).kind) = true) := by simp [hh, hj, hd, hk]

/-- A stale answer is dropped and counted, whatever its tag (R322). -/
theorem hears_stale (hs : staleIn s (ansOf ans).space.peer (ansOf ans).dinc (ansOf ans).sinc = true) : hears s ans kinds f = countStale s := by
  simp only [hears, if_neg (answer_heard hh hj hd hk), hs, if_true]

/-- An answer whose tag verifies has its effect, and what it frees is tried again. -/
theorem hears_good (hs : staleIn s (ansOf ans).space.peer (ansOf ans).dinc (ansOf ans).sinc = false) (ht : (ansOf ans).tagOk = true) :
    hears s ans kinds f = retryDues (f (ansOf ans)) := by
  simp only [hears, if_neg (answer_heard hh hj hd hk), hs, ht, Bool.false_eq_true, if_false, if_true]

end

/-! ### What an answer does to the packets it names -/

section
variable {s : State} {a : Ans}

/-- An acknowledgement of a stream answers every packet sent up to its number (log 61). -/
theorem acked_streamed (h : a.space.streamed = true) :
    acked s a = (outIn s a.space).filter (fun p => p.first.isSome && (p.seq == a.seq || tagBefore p.seq a.seq)) := by
  rw [acked, if_pos h]

/-- Outside a stream it answers its own packet. -/
theorem acked_own {p : OutPkt} (h : a.space.streamed = false) (hp : sentPkt s a.space a.seq = some p) : acked s a = [p] := by
  simp only [acked, h, hp, Bool.false_eq_true, if_false, Option.toList_some]

/-- A nak of status 1 fails its packet with 0x10 (R319). -/
theorem naked_fails {p : OutPkt} (hst : a.status = 1) (hp : sentPkt s a.space a.seq = some p) : naked s a = failFrom s 0x10 p := by
  simp only [naked, hst, hp, if_true]

/-- Another nak of a stream has the whole stream sent again (R320). -/
theorem naked_streamed (hst : a.status ≠ 1) (h : a.space.streamed = true) : naked s a = requeue s ((outIn s a.space).map (·.id)) := by
  simp only [naked, if_neg hst, h, if_true]

/-- Another nak outside a stream has its packet sent again (R320). -/
theorem naked_own {p : OutPkt} (hst : a.status ≠ 1) (h : a.space.streamed = false) (hp : sentPkt s a.space a.seq = some p) :
    naked s a = retransmit s p := by
  simp only [naked, if_neg hst, h, hp, Bool.false_eq_true, if_false]

/-- The effect of a response: the results of its packet, or the packet's refusal. -/
def responded (s : State) (a : Ans) : State :=
  match sentPkt s a.space a.seq with
  | some p => if p.kind = 0 then s else if a.status = 0 then packetDone s p a.results a.poison else naked s a
  | none => s

theorem execFabricResponse_eq (ans : Answer) (s : State) : execFabricResponse ans s = .next (hears s ans [3, 4] (responded s)) := rfl

theorem responded_results {p : OutPkt} (hp : sentPkt s a.space a.seq = some p) (hk : p.kind ≠ 0) (hst : a.status = 0) :
    responded s a = packetDone s p a.results a.poison := by
  simp only [responded, hp, if_neg hk, hst, if_true]

theorem responded_refused {p : OutPkt} (hp : sentPkt s a.space a.seq = some p) (hk : p.kind ≠ 0) (hst : a.status = 1) :
    responded s a = failFrom s 0x10 p := by
  simp only [responded, hp, if_neg hk, if_neg (show a.status ≠ 0 by omega), naked_fails hst hp]

end

/-- The effect of an acknowledgement on the packets that it answers: the writes among them are done. -/
def acknowledge (s : State) (l : List OutPkt) : State := l.foldl (fun x p => if p.kind = 0 then packetDone x p [] [] else x) s

theorem execFabricAck_eq (ans : Answer) (s : State) : execFabricAck ans s = .next (hears s ans [5] (fun a => acknowledge s (acked s a))) := rfl

theorem acknowledge_one (s : State) {p : OutPkt} (h : p.kind = 0) : acknowledge s [p] = packetDone s p [] [] := if_pos h

/-! ### Timers and resynchronisation -/

section
variable {s : State} {p : OutPkt} {t : Nat} (hf : s.fab.out.find? (fun x => x.id == p.id) = some p) (hp : p.first = some t)
include hf hp

/-- A packet that has not been answered within RTO of its last transmission is sent again (R320). -/
theorem execFabricRtoExpiry_due (hq : p.queued = false) (h : p.last + 1000 * orOne s.fab.rto ≤ s.ns) :
    execFabricRtoExpiry p.id s = .next (retransmit s p) := by
  simp only [execFabricRtoExpiry, hf, hp, hq, h, Option.isSome_some, Bool.not_false, Bool.and_self, decide_true, if_true]

/-- A packet that has not been answered within TMO of its first transmission fails with 0x11 (R321). -/
theorem execFabricTmoExpiry_due (h : t + 10000 * orOne s.fab.tmo ≤ s.ns) :
    execFabricTmoExpiry p.id s = .next (retryDues (failFrom s 0x11 p)) := by
  simp only [execFabricTmoExpiry, hf, hp, h, if_true]

end

/-- A source whose failures are all resolved takes packets again (R84). -/
theorem execPstsResync_source {s : State} {sp : SeqSpace} (hr : (spaceOut s sp).resync = true) (ho : outIn s sp = []) :
    execPstsResync ⟨sp, none⟩ s = .next (putSpaceOut s { spaceOut s sp with resync := false }) := by
  simp only [execPstsResync, hr, ho, List.isEmpty_nil, and_self, if_true]

/-- A destination learns the number that a stream goes on with (R84, log 45). -/
theorem execPstsResync_destination {s : State} {sp : SeqSpace} (n : W32) (h : sp.streamed = true) :
    execPstsResync ⟨sp, some n⟩ s = .next (putSpaceIn s { spaceIn s sp with refused := false, expected := n, accepted := [], responses := [] }) := by
  simp only [execPstsResync, h, if_true]

/-- Settles O55: an answer is heard or counted as stale, and each kind of it has its effect on the packets that it names; then the timers and the
two ends of a resynchronisation. -/
theorem fabricAnswersComplete : Obligations.FabricAnswersComplete := by
  unfold Obligations.FabricAnswersComplete
  refine ⟨?_, fun s p t hf hp => ⟨execFabricRtoExpiry_due hf hp, execFabricTmoExpiry_due hf hp⟩,
    fun s sp => execPstsResync_source, fun s sp n => execPstsResync_destination n⟩
  intro s ans a hh hj hd
  have good {kinds f} (hs : staleIn s a.space.peer a.dinc a.sinc = false) (ht : a.tagOk = true) (hk : a.kind ∈ kinds) :
      hears s ans kinds f = retryDues (f a) := hears_good hh hj hd hk hs ht
  have h5 (h : a.kind = 5) : a.kind ∈ [5] := by simp [h]
  have h6 (h : a.kind = 6) : a.kind ∈ [6] := by simp [h]
  have h34 (h : a.kind = 3 ∨ a.kind = 4) : a.kind ∈ [3, 4] := by simpa using h
  refine ⟨fun hk hstr ht hs => ?_, fun p ht hs hp => ⟨fun hk hstr hp0 => ?_, fun hk hst => ?_, fun hk hst hstr => ?_,
      fun hk hst hstr => ?_, fun hk hp0 hst => ?_, fun hk hp0 hst => ?_⟩, fun hs hn => ?_⟩
  · refine (execFabricAck_eq ans s).trans ?_
    rw [good hs ht (h5 hk), acked_streamed hstr]
    rfl
  · refine (execFabricAck_eq ans s).trans ?_
    rw [good hs ht (h5 hk), acked_own hstr hp, acknowledge_one s hp0]
  · exact congrArg _ ((good hs ht (h6 hk)).trans (congrArg _ (naked_fails hst hp)))
  · exact congrArg _ ((good hs ht (h6 hk)).trans (congrArg _ (naked_own hst hstr hp)))
  · exact congrArg _ ((good hs ht (h6 hk)).trans (congrArg _ (naked_streamed hst hstr)))
  · refine (execFabricResponse_eq ans s).trans ?_
    rw [good hs ht (h34 hk), responded_results hp hp0 hst]
  · refine (execFabricResponse_eq ans s).trans ?_
    rw [good hs ht (h34 hk), responded_refused hp hp0 hst]
  · have stale {kinds f} (hk : a.kind ∈ kinds) : hears s ans kinds f = _ := (hears_stale hh hj hd hk hs).trans (countStale_below hn)
    exact ⟨fun hk => congrArg _ (stale (h5 hk)), fun hk => congrArg _ (stale (h6 hk)), fun hk => congrArg _ (stale (h34 hk))⟩

end Sys2Proof.Machine
end

section
/-! PROOFS. FENCE and PRF (R79, R80, R228, R229). -/

namespace Sys2Proof.Machine

/-- The scopes at which a FENCE waits for failable stores and atomics too, and clears the accumulator (R79, R80). -/
def fenceWide (sc : Scp) : Bool := sc == .f || sc == .s

theorem fenceWide_iff {sc : Scp} : fenceWide sc = true ↔ sc = .f ∨ sc = .s := by simp [fenceWide]

/-- The lazy reads that a FENCE waits for: of a store's data and, at its wide scopes, of a packet's (R79, R130). -/
def fenceWaitsRead (wide : Bool) : LazyTarget → Bool
  | .store _ | .held _ => true
  | .packets _ => wide
  | .mma _ => false

theorem fenceDone_eq (v : Wave) (sc : Scp) : fenceDone v sc = (v.hz.held.isEmpty
    && !(v.hz.lazies.any (fun z => fenceWaitsRead (fenceWide sc) z.target))
    && !(v.hz.slips.any (fun x => (x.hr || (fenceWide sc && x.fenced)) && !x.ended))) := rfl

/-- A FENCE may end when no held store is left, no lazy read that it waits for, no .hr store that has not been performed and, at its wide scopes,
no failable store or atomic (R79). -/
theorem fenceDone_iff {v : Wave} {sc : Scp} : fenceDone v sc = true ↔ v.hz.held = []
    ∧ (∀ z ∈ v.hz.lazies, fenceWaitsRead (fenceWide sc) z.target = false)
    ∧ (∀ x ∈ v.hz.slips, x.hr = true → x.ended = true) ∧ (fenceWide sc = true → ∀ x ∈ v.hz.slips, x.fenced = true → x.ended = true) := by
  have hslip : (!(v.hz.slips.any (fun x => (x.hr || (fenceWide sc && x.fenced)) && !x.ended))) = true ↔
      (∀ x ∈ v.hz.slips, x.hr = true → x.ended = true) ∧ (fenceWide sc = true → ∀ x ∈ v.hz.slips, x.fenced = true → x.ended = true) := by
    simp only [Bool.not_eq_true', List.any_eq_false, Bool.and_eq_true, Bool.or_eq_true, Bool.not_eq_true', not_and, Bool.not_eq_false]
    exact ⟨fun h => ⟨fun x hx hr => h x hx (.inl hr), fun hw x hx hf => h x hx (.inr ⟨hw, hf⟩)⟩,
      fun h x hx hc => hc.elim (h.1 x hx) (fun hc => h.2 hc.1 x hx hc.2)⟩
  rw [fenceDone_eq, Bool.and_eq_true, Bool.and_eq_true, hslip, and_assoc]
  simp

section
variable {v : Wave} {m : MemW}

/-- A FENCE that may end writes the accumulator, and clears it at its wide scopes (R80). -/
theorem fenceBody_ends (s : State) (h : fenceDone v m.scope = true) :
    fenceBody m s v = .done (putWave s (fenced { setS v (sNum m.dst) (v.hz.facc.setWidth 64) with
      hz := { v.hz with facc := if fenceWide m.scope then 0 else v.hz.facc } })) := if_pos h

/-- A FENCE that may not end waits. -/
theorem fenceBody_waits (s : State) (h : ¬ fenceDone v m.scope = true) : fenceBody m s v = .stay s .fence := if_neg h

end

/-- A FENCE that may end changes its own wave alone. -/
theorem Issues.fence {s : State} {w v : Wave} {m : MemW} (h : Issues s w v (.fence m)) (hd : fenceDone v m.scope = true) :
    Does s (.fence m) (fenced { setS v (sNum m.dst) (v.hz.facc.setWidth 64) with
      hz := { v.hz with facc := if fenceWide m.scope then 0 else v.hz.facc } }) :=
  h.does none rfl (congrArg (·, none) ((fenceBody_ends _ hd).trans (congrArg _ (putWave_putWave _ _ _ rfl)))) h.v_id rfl rfl rfl

/-- Settles O34: FENCE by whether it may end, and PRF, which has no effect. -/
theorem fenceAndPrefetchComplete : Obligations.FenceAndPrefetchComplete := by
  unfold Obligations.FenceAndPrefetchComplete
  refine ⟨?_, fun s w v m h => h.doesNothing none rfl rfl⟩
  intro s w v m h wide done
  have hdone : done ↔ fenceDone v m.scope = true := by
    rw [fenceDone_iff, fenceWide_iff]
    refine and_congr_right' (and_congr_left' (forall₂_congr fun z _ => ?_))
    cases z.target <;> simp [fenceWaitsRead, wide, ← fenceWide_iff]
  refine ⟨fun hd => ?_, fun hd => ?_⟩
  · have hf := h.fence (hdone.mp hd)
    refine ⟨fun hw => ?_, fun hw => ?_⟩
    · rwa [if_pos (fenceWide_iff.mpr hw)] at hf
    · rwa [if_neg (mt fenceWide_iff.mp hw)] at hf
  · exact h.waitsHere none rfl (congrArg (·, none) (fenceBody_waits _ (mt hdone.mpr hd))) h.v_here

end Sys2Proof.Machine
end

section
/-! PROOFS. The binderies (R94, R95): a doorbell, and a batch that is started, drained and carried out. -/

namespace Sys2Proof.Machine

section
variable {s : State} {die : Nat}

/-- The batch that a doorbell names: an address in units of 64 bytes (R94). -/
def doorbellBatch (x : W64) : W64 := w64 (x.toNat / 64 * 64)

section
variable {x : W64} (hd : die < 4) (hx : x.getLsbD 1 = false) (ha : doorbellBatch x ≠ 0)
include hd hx ha

/-- A doorbell that does not clear FULL, by the room in its queue of 16. -/
theorem execBdyDoorbell_names : execBdyDoorbell die x s =
    if 16 ≤ (getBindery s die).queue.length then .next (modBindery s die (fun b => { b with full := true }))
    else .next (modBindery s die (fun b => { b with queue := b.queue ++ [doorbellBatch x] })) := by
  have hd4 : ¬ 4 ≤ die := by omega
  have ha0 : ¬ w64 (x.toNat / 64 * 64) = 0 := ha
  simp only [execBdyDoorbell, if_neg hd4, hx, Bool.false_eq_true, if_false, if_neg ha0, doorbellBatch]

end

section
variable {a : W64} {c : Ctx}

/-- A batch with a good header marks its entries and advances the colour (R94 steps 1 and 2). -/
theorem execBinderyBatchStart_good {q : List W64} {d : HeapDesc} (hb : (getBindery s die).batch = none) (hq : (getBindery s die).queue = a :: q)
    (hc : ctxOfAsid s (Config.batchAsid a) = some c) (hh : headOk s c a (batchHead s c a) = true)
    (hd : heapDesc s c (batchHead s c a).heap = some d) :
    let r := (List.range (batchHead s c a).count).foldl (markEnt c d a) (modBindery s die nextBatch, [], [])
    execBinderyBatchStart die s = .next (modBindery (advanceColour r.1 c (batchHead s c a).heap d) die
      (fun x => { x with batch := some a, step := 2, moving := r.2.1 })) := by
  simp only [execBinderyBatchStart, hb, hq, hc, hh, hd]

/-- The drain ends when no cache holds the old colour and no access admitted before is left (R94 step 2). -/
theorem execBinderyDrainDone_drained (hb : (getBindery s die).batch = some a) (hc : ctxOfAsid s (Config.batchAsid a) = some c)
    (hst : (getBindery s die).step = 2) (hcol : ∀ x ∈ s.colours, ¬ (x.2.1 = c.id ∧ x.2.2.1 = (batchHead s c a).heap))
    (hp : pendingMove s c a (getBindery s die).moving = false) :
    execBinderyDrainDone die s = .next (modBindery s die (fun x => { x with step := 3 })) := by
  have hany : s.colours.any (fun x => x.2.1 == c.id && x.2.2.1 == (batchHead s c a).heap) = false := by
    simpa using hcol
  simp only [execBinderyDrainDone, hb, hc, hst, hany, hp, ne_eq, not_true_eq_false, Bool.false_eq_true, or_self, if_false]

/-- A drained batch has its objects copied, and STATUS and its counter written (R94 steps 3 and 4). -/
theorem execBinderyBatchDone_moves {d : HeapDesc} (hb : (getBindery s die).batch = some a) (hc : ctxOfAsid s (Config.batchAsid a) = some c)
    (hst : (getBindery s die).step = 3) (hd : heapDesc s c (batchHead s c a).heap = some d) :
    let s2 := ((getBindery s die).moving.map (fun p => (p.2, batchEnt s c a p.1))).foldl (moveEnt c a d.colour.toNat) s
    execBinderyBatchDone die s = .next (modBindery (bindBump (ctxPut s2 c (a + 4) (natToBytes 4 0)) c (batchHead s c a).cntr) die
      (fun x => { x with batch := none, step := 0, moving := [] })) := by
  simp only [execBinderyBatchDone, hb, hc, hst, hd, ne_eq, not_true_eq_false, if_false]

/-- An object that can be copied has its entry MOVED, with RESULT 0 (R94). -/
theorem moveEnt_copied {t : State} {col : Nat} {p : W64} {e : BatchEnt} (h : moveObject s c e = some t) :
    moveEnt c a col s (p, e)
      = putResult (putCat t c { addr := p, old := e.old, new := e.new, size := e.size, pins := 0, st := 3, mcol := col }) c a e.idx 0 := by
  simp only [moveEnt, h]

/-- One that cannot be copied has its entry freed, with RESULT 2 (log 118). -/
theorem moveEnt_stays {col : Nat} {p : W64} {e : BatchEnt} (h : moveObject s c e = none) :
    moveEnt c a col s (p, e)
      = putResult (putCat s c { addr := p, old := 0, new := 0, size := 0, pins := 0, st := 0, mcol := 0 }) c a e.idx 2 := by
  simp only [moveEnt, h]

end

end

/-- Settles O50: the doorbell by the room in its queue, and each step of a batch under what it waits for. -/
theorem binderyEventsComplete : Obligations.BinderyEventsComplete := by
  unfold Obligations.BinderyEventsComplete
  refine ⟨fun s die x hd hx ha => ⟨fun h => ?_, fun h => ?_⟩, ?_, ?_, ?_, ?_⟩
  · exact (execBdyDoorbell_names hd hx ha).trans (if_neg (by omega))
  · exact (execBdyDoorbell_names hd hx ha).trans (if_pos h)
  · exact fun s die a q c d hb hq hc hh hd => execBinderyBatchStart_good hb hq hc hh hd
  · exact fun s die a c hb hc hst hcol hp => execBinderyDrainDone_drained hb hc hst hcol hp
  · exact fun s die a c d hb hc hst hd => execBinderyBatchDone_moves hb hc hst hd
  · exact fun s c a col p e => ⟨fun t h => moveEnt_copied h, moveEnt_stays⟩

end Sys2Proof.Machine
end

section
/-! PROOFS. What the device itself reads and writes under a context's tables (R269, R350): never the memory of a team, a wave or a context, so that
a wave put back changes no such read, and such a write changes no wave and no context. -/

namespace Sys2Proof.Machine

/-! ### Spaces that a page leads to -/

/-- The spaces that a leaf leads to: local HBM, the CXL tier and the host (R300). -/
def pageSpace : Space → Bool
  | .hbm | .cxl | .host => true
  | _ => false

theorem leafPlace_pageSpace {s : State} {c : Ctx} {a : W64} {wr : Bool} {p : Space × Nat × TlbEntry} (h : leafPlace s c a wr = some p) :
    pageSpace p.1 = true := by
  simp only [leafPlace, Option.ite_none_right_eq_some] at h
  obtain ⟨-, h⟩ := h
  split at h
  · obtain ⟨-, h⟩ := Option.ite_none_right_eq_some.mp h
    split at h
    · cases h; rfl
    · obtain ⟨-, h⟩ := Option.ite_none_right_eq_some.mp h
      cases h; rfl
    · obtain ⟨o, -, rfl⟩ := Option.map_eq_some_iff.mp h
      rfl
    · cases h
  · cases h

theorem ctxPlace_pageSpace {s : State} {c : Ctx} {a : W64} {wr : Bool} {p : Space × Nat × TlbEntry} (h : ctxPlace s c a wr = some p) :
    pageSpace p.1 = true := leafPlace_pageSpace (Option.filter_eq_some_iff.mp h).1

/-! ### Reads of a state that a wave has been put back in -/

section
variable (s : State) (v : Wave)

theorem putWave_readByte {sp : Space} (h : pageSpace sp = true) (o : Nat) : readByte (putWave s v) sp o = readByte s sp o :=
  match sp, h with
  | .hbm, _ | .cxl, _ | .host, _ => rfl

theorem putWave_readNat {sp : Space} (h : pageSpace sp = true) (o n : Nat) : readNat (putWave s v) sp o n = readNat s sp o n :=
  match sp, h with
  | .hbm, _ | .cxl, _ | .host, _ => rfl

@[simp] theorem putWave_leafPlace (c : Ctx) (a : W64) (wr : Bool) : leafPlace (putWave s v) c a wr = leafPlace s c a wr := by
  simp only [leafPlace, putWave_translate]
  rfl

@[simp] theorem putWave_ctxPlace (c : Ctx) (a : W64) (wr : Bool) : ctxPlace (putWave s v) c a wr = ctxPlace s c a wr := by
  simp only [ctxPlace, putWave_leafPlace]
  rfl

@[simp] theorem putWave_ctxBytes (c : Ctx) (a : W64) (n : Nat) : ctxBytes (putWave s v) c a n = ctxBytes s c a n := by
  induction n with
  | zero => rfl
  | succ n ih =>
    simp only [ctxBytes, ih, putWave_ctxPlace]
    cases hp : ctxPlace s c (a + w64 n) false with
    | none => rfl
    | some p =>
      cases ctxBytes s c a n with
      | none => rfl
      | some l => exact congrArg (fun b => some (l ++ [b])) (putWave_readByte s v (ctxPlace_pageSpace hp) p.2.1)

@[simp] theorem putWave_ctxNat (c : Ctx) (a : W64) (n : Nat) : ctxNat (putWave s v) c a n = ctxNat s c a n := by
  simp only [ctxNat, putWave_ctxPlace]
  exact Option.map_congr fun p hp => putWave_readNat s v (ctxPlace_pageSpace hp) p.2.1 n

@[simp] theorem putWave_heapDesc (c : Ctx) (n : Nat) : heapDesc (putWave s v) c n = heapDesc s c n := by
  simp only [heapDesc, putWave_ctxBytes]

@[simp] theorem putWave_catEntry (c : Ctx) (d : HeapDesc) (i : Nat) : catEntry (putWave s v) c d i = catEntry s c d i := by
  simp only [catEntry, putWave_ctxBytes]

@[simp] theorem putWave_catLookup (c : Ctx) (d : HeapDesc) (b : W64) : catLookup (putWave s v) c d b = catLookup s c d b := by
  simp only [catLookup, catProbe, putWave_catEntry]

@[simp] theorem putWave_colourAt (core ctx heap : Nat) (d : HeapDesc) : colourAt (putWave s v) core ctx heap d = colourAt s core ctx heap d := rfl

@[simp] theorem putWave_useHandle (w : Wave) (h : Option Handle) (store : Bool) : useHandle (putWave s v) w h store = useHandle s w h store := by
  simp only [useHandle, putWave_getCtx, putWave_heapDesc, putWave_catLookup, putWave_colourAt]

@[simp] theorem putWave_resolveRef (w : Wave) (word : W64) : resolveRef (putWave s v) w word = resolveRef s w word := by
  simp only [resolveRef, putWave_getCtx, putWave_heapDesc, putWave_catLookup, putWave_colourAt]

@[simp] theorem putWave_pageFull (c : Ctx) (d : HeapDesc) (ps : List Nat) : pageFull (putWave s v) c d ps = pageFull s c d ps := by
  simp only [pageFull, putWave_ctxNat]

@[simp] theorem putWave_pageEmpty (c : Ctx) (d : HeapDesc) (ps : List Nat) : pageEmpty (putWave s v) c d ps = pageEmpty s c d ps := by
  simp only [pageEmpty, putWave_ctxNat]

end

/-! ### Writes leave waves and contexts -/

/-- The waves and the contexts of a state are those of another. -/
def SameWork (s t : State) : Prop := t.waves = s.waves ∧ t.ctxs = s.ctxs

namespace SameWork

theorem refl (s : State) : SameWork s s := ⟨rfl, rfl⟩

theorem trans {s t u : State} (h : SameWork s t) (k : SameWork t u) : SameWork s u := ⟨k.1.trans h.1, k.2.trans h.2⟩

theorem findWave {s t : State} (h : SameWork s t) (n : Nat) : Machine.findWave t n = Machine.findWave s n := by
  simp only [Machine.findWave, h.1]

theorem getCtx {s t : State} (h : SameWork s t) (n : Nat) : Machine.getCtx t n = Machine.getCtx s n := by
  simp only [Machine.getCtx, h.2]

/-- A run of changes each of which keeps the waves and the contexts. -/
theorem foldl {α : Type} {f : State → α → State} (h : ∀ s x, SameWork s (f s x)) (l : List α) (s : State) : SameWork s (l.foldl f s) := by
  induction l generalizing s with
  | nil => exact refl s
  | cons x r ih => exact (h s x).trans (ih (f s x))

end SameWork

section
variable (s : State) (c : Ctx)

theorem clearPoison_sameWork (sp : Space) (l : List Nat) : SameWork s (clearPoison s sp l) := by
  unfold clearPoison
  split <;> exact ⟨rfl, rfl⟩

theorem writeRange_sameWork {sp : Space} (h : pageSpace sp = true) (a : Nat) (l : List Byte) : SameWork s (writeRange s sp a l) :=
  have hw : SameWork s (writeBytes s sp a l) := match sp, h with
    | .hbm, _ | .cxl, _ | .host, _ => ⟨rfl, rfl⟩
  hw.trans (clearPoison_sameWork _ _ _)

theorem cacheXlate_sameWork (e : TlbEntry) : SameWork s (cacheXlate s e) := by
  unfold cacheXlate
  split <;> exact ⟨rfl, rfl⟩

theorem setDirty_sameWork (e : TlbEntry) : SameWork s (setDirty s e) := by
  unfold setDirty
  split
  · exact SameWork.refl s
  · exact (writeRange_sameWork s rfl _ _).trans (cacheXlate_sameWork _ _)

theorem dirtyAt_sameWork (a : W64) : SameWork s (dirtyAt s c a) := by
  unfold dirtyAt
  split
  · split
    · exact setDirty_sameWork s _
    · exact SameWork.refl s
  · exact SameWork.refl s

theorem ctxPut_sameWork (a : W64) (l : List Byte) : SameWork s (ctxPut s c a l) := by
  unfold ctxPut ctxWrite
  cases hp : ctxPlace s c a true with
  | none => exact SameWork.refl s
  | some p => exact (writeRange_sameWork s (ctxPlace_pageSpace hp) _ _).trans (dirtyAt_sameWork _ _ _)

theorem putCat_sameWork (e : CatEntry) : SameWork s (putCat s c e) := ctxPut_sameWork s c _ _

theorem setPinned_sameWork (d : HeapDesc) (page : Nat) : SameWork s (setPinned s c d page) := by
  unfold setPinned
  split
  · have hleaf (k n m : Nat) : SameWork s (if n = m then s else writeRange s .hbm k (natToBytes 8 n)) := by
      split
      · exact SameWork.refl s
      · exact writeRange_sameWork s rfl k _
    exact (hleaf _ _ _).trans ⟨rfl, rfl⟩
  · exact SameWork.refl s

theorem countPages_sameWork (d : HeapDesc) (ps : List Nat) (up : Bool) : SameWork s (countPages s c d ps up) :=
  SameWork.foldl (fun s _ => (ctxPut_sameWork s c _ _).trans (setPinned_sameWork _ c d _)) ps s

end

end Sys2Proof.Machine
end


section
/-! PROOFS. HMOV, PIN and UNPIN (R93, R96, R232, R233). -/

namespace Sys2Proof.Machine

/-! ### HMOV -/

@[simp] theorem setH_id (w : Wave) (n : Nat) (x : Option Handle) : (setH w n x).id = w.id := rfl
@[simp] theorem setH_ctl (w : Wave) (n : Nat) (x : Option Handle) : (setH w n x).ctl = w.ctl := rfl
@[simp] theorem setH_ctx (w : Wave) (n : Nat) (x : Option Handle) : (setH w n x).ctx = w.ctx := rfl
@[simp] theorem setH_scope (w : Wave) (n : Nat) (x : Option Handle) : (setH w n x).scope = w.scope := rfl

/-- The completion of an instruction whose result is a handle alone. -/
theorem Issues.handleOnly {s : State} {w v : Wave} {i : Instr} {f : Body} {d : Nat} {x : Option Handle} (h : Issues s w v i)
    (he : Sys2Proof.Machine.exec i s = issueR i s f)
    (hf : f (putWave s v) v = writeOut (putWave s v) v { h := [(d, x)] } (isNwb i)) :
    Does s i (if isNwb i then v else setH v d x) := by
  have hb : boundsOk (isNwb i) (getTeam s v.team) v ([] : List (Nat × List (Nat × W32))) := .inr rfl
  refine h.effect he hf rfl ((writeEff_ok hb).trans ?_) ?_ ?_ ?_ ?_ <;> cases isNwb i <;> simp

/-- The effect of HMOV, by its form (R232). -/
def hmovBody (g : GenW) : Body := fun s v =>
  match g.opx.toNat with
  | 0 => writeOut s v { h := [(hNum g.dst, match g.a with | .h n => hreg v n.toNat | _ => none)] } g.hdr.nwb
  | 1 => writeOut s v { s := [(sNum g.dst, refWord (hreg v (hNum g.a)))] } g.hdr.nwb
  | _ => match resolveRef s v (scalarOp s v g.hdr.lit g.a) with
    | some q => writeOut s v { h := [(hNum g.dst, q.h)] } g.hdr.nwb
    | none => (.trap s (precise 0x0B), none)

theorem execHmov_eq (g : GenW) (s : State) : Sys2Proof.Machine.exec (.hmov g) s = issueR (.hmov g) s (hmovBody g) := rfl

section
variable {g : GenW} (s : State) (v : Wave)

theorem hmovBody_copy {n : BitVec 4} (h0 : g.opx = 0) (ha : g.a = .h n) :
    hmovBody g s v = writeOut s v { h := [(hNum g.dst, hreg v n.toNat)] } g.hdr.nwb := by
  simp only [hmovBody, h0, ha]
  rfl

theorem hmovBody_word (h1 : g.opx = 1) : hmovBody g s v = writeOut s v { s := [(sNum g.dst, refWord (hreg v (hNum g.a)))] } g.hdr.nwb := by
  simp only [hmovBody, h1]
  rfl

theorem hmovBody_resolve {q : Resolved} (h2 : 2 ≤ g.opx.toNat) (hq : resolveRef s v (scalarOp s v g.hdr.lit g.a) = some q) :
    hmovBody g s v = writeOut s v { h := [(hNum g.dst, q.h)] } g.hdr.nwb := by
  unfold hmovBody
  split
  · omega
  · omega
  · simp only [hq]

end

/-! ### PIN and UNPIN -/

section
variable {g : GenW} {s : State} {v : Wave} {h : Handle} {b lo hi : W64} {d : HeapDesc} {e : CatEntry}

/-- PIN of an object whose entry is held and not MOVING, with a handle that is up to date, by whether a count would overflow (R96). -/
theorem pinGo_held (hu : useHandle s v (some h) true = .base b lo hi none) (hd : heapDesc s (getCtx s v.ctx) h.heap.toNat = some d)
    (he : catLookup s (getCtx s v.ctx) d b = some e) (hst : e.st ≠ 2) :
    pinGo g s v h = if 65535 ≤ e.pins ∨ pageFull s (getCtx s v.ctx) d (objPages b e.size) then (.trap s (precise 0x0B), none)
      else
        let t := countPages (putCat s (getCtx s v.ctx) { e with pins := e.pins + 1 }) (getCtx s v.ctx) d (objPages b e.size) true
        (findWave t v.id).elim (.done t, none) (fun v1 => writeOut t v1 { s := [(sNum g.dst, b)] } g.hdr.nwb) := by
  simp only [pinGo, hu, hd, he, if_neg hst]
  split
  · rfl
  · cases findWave (countPages (putCat s (getCtx s v.ctx) { e with pins := e.pins + 1 }) (getCtx s v.ctx) d (objPages b e.size) true) v.id <;> rfl

/-- UNPIN of an object whose entry is held, by whether a count would fall below zero (R96, log 19). -/
theorem unpinGo_held {upd : Option Handle} (hu : useHandle s v (some h) false = .base b lo hi upd)
    (hd : heapDesc s (getCtx s v.ctx) h.heap.toNat = some d) (he : catLookup s (getCtx s v.ctx) d b = some e) :
    unpinGo s v h = if e.pins = 0 ∨ pageEmpty s (getCtx s v.ctx) d (objPages b e.size) then .trap s (precise 0x0B)
      else .done (countPages (putCat s (getCtx s v.ctx)
        { e with pins := e.pins - 1, st := if e.pins = 1 && e.st == 1 then 0 else e.st }) (getCtx s v.ctx) d (objPages b e.size) false) := by
  simp only [unpinGo, hu, hd, he]

/-- The counts of an object changed: its entry and the counts of its pages. -/
theorem countObject_sameWork (s : State) (c : Ctx) (d : HeapDesc) (e : CatEntry) (ps : List Nat) (up : Bool) :
    SameWork s (countPages (putCat s c e) c d ps up) := (putCat_sameWork s c e).trans (countPages_sameWork _ c d ps up)

end

/-- The completion of an instruction in a state whose contexts are as they were, its wave changed in neither its control state nor its scope. -/
theorem Issues.endsAt {s t : State} {w v x : Wave} {i : Instr} {f : Body} (h : Issues s w v i) (l : Option Latch)
    (he : Sys2Proof.Machine.exec i s = issueR i s f) (hf : f (putWave s v) v = (.done t, l)) (ht : findWave t v.id = some x)
    (hc : ∀ n, getCtx t n = getCtx s n) (h1 : x.ctl = v.ctl) (h2 : x.ctx = v.ctx) (h3 : x.scope = v.scope) : Ends s i v.id t := by
  rw [h.v_id] at ht ⊢
  refine h.ends l he hf ht (h1 ▸ h.v_live) (.inr ?_)
  rw [hc, h2, h3]
  exact h.v_alive

@[simp] theorem wroteS_id (n : Bool) (v : Wave) (d : Nat) (x : W64) : (wroteS n v d x).id = v.id := by cases n <;> rfl
@[simp] theorem wroteS_ctl (n : Bool) (v : Wave) (d : Nat) (x : W64) : (wroteS n v d x).ctl = v.ctl := by cases n <;> rfl
@[simp] theorem wroteS_ctx (n : Bool) (v : Wave) (d : Nat) (x : W64) : (wroteS n v d x).ctx = v.ctx := by cases n <;> rfl
@[simp] theorem wroteS_scope (n : Bool) (v : Wave) (d : Nat) (x : W64) : (wroteS n v d x).scope = v.scope := by cases n <;> rfl

/-- The effect of PIN (R233). -/
def pinBody (g : GenW) : Body := fun s v =>
  match hreg v (hNum g.a) with
  | none => (.trap s (precise 0x09), none)
  | some h => pinGo g s v h

theorem execPin_eq (g : GenW) (s : State) : Sys2Proof.Machine.exec (.pin g) s = issueR (.pin g) s (pinBody g) := rfl

theorem pinBody_some {g : GenW} {v : Wave} {h : Handle} (s : State) (hr : hreg v (hNum g.a) = some h) : pinBody g s v = pinGo g s v h := by
  simp only [pinBody, hr]

/-- The effect of UNPIN (R233). -/
def unpinBody (g : GenW) (s : State) (v : Wave) : Out :=
  match hreg v (hNum g.a) with
  | none => .trap s (precise 0x09)
  | some h => unpinGo s v h

theorem execUnpin_eq (g : GenW) (s : State) :
    Sys2Proof.Machine.exec (.unpin g) s = issueR (.unpin g) s (fun s v => (unpinBody g s v, none)) := rfl

theorem unpinBody_some {g : GenW} {v : Wave} {h : Handle} (s : State) (hr : hreg v (hNum g.a) = some h) : unpinBody g s v = unpinGo s v h := by
  simp only [unpinBody, hr]

section
variable {g : GenW} {s : State} {w v : Wave} {h : Handle} {b lo hi : W64} {d : HeapDesc} {e : CatEntry}
  (hd : heapDesc s (getCtx s v.ctx) h.heap.toNat = some d) (he : catLookup s (getCtx s v.ctx) d b = some e) (hr : hreg v (hNum g.a) = some h)
include hd he hr

section
variable (iss : Issues s w v (.pin g)) (hu : useHandle s v (some h) true = .base b lo hi none) (hst : e.st ≠ 2)
include iss hu hst

/-- PIN counts the pins of its object and of its pages, and writes its base (R96). -/
theorem pin_counts (hn : ¬ (65535 ≤ e.pins ∨ pageFull s (getCtx s v.ctx) d (objPages b e.size) = true)) :
    Ends s (.pin g) v.id (putWave (countPages (putCat (putWave s v) (getCtx s v.ctx) { e with pins := e.pins + 1 }) (getCtx s v.ctx) d
      (objPages b e.size) true) (wroteS g.hdr.nwb v (sNum g.dst) b)) := by
  have hk := countObject_sameWork (putWave s v) (getCtx s v.ctx) d { e with pins := e.pins + 1 } (objPages b e.size) true
  have hv := (hk.findWave v.id).trans iss.v_here
  have hgo := pinGo_held (g := g) (s := putWave s v) (v := v) (by simpa using hu) (by simpa using hd) (by simpa using he) hst
  simp only [putWave_getCtx, putWave_pageFull, if_neg hn, hv, Option.elim_some, writeOut_scalar] at hgo
  exact iss.endsAt _ (execPin_eq g s) ((pinBody_some _ hr).trans hgo) (findWave_putWave hv (wroteS_id ..)) (fun n => hk.getCtx n)
    (wroteS_ctl ..) (wroteS_ctx ..) (wroteS_scope ..)

/-- PIN raises 0x0B where a count would overflow (R96). -/
theorem pin_overflows (hn : 65535 ≤ e.pins ∨ pageFull s (getCtx s v.ctx) d (objPages b e.size) = true) :
    Traps s (.pin g) (putWave s v) (unpopped v w) (precise 0x0B) := by
  have hgo := pinGo_held (g := g) (s := putWave s v) (v := v) (by simpa using hu) (by simpa using hd) (by simpa using he) hst
  simp only [putWave_getCtx, putWave_pageFull, if_pos hn] at hgo
  exact iss.traps _ (execPin_eq g s) ((pinBody_some _ hr).trans hgo)

end

section
variable {upd : Option Handle} (iss : Issues s w v (.unpin g)) (hu : useHandle s v (some h) false = .base b lo hi upd)
include iss hu

/-- UNPIN takes a pin from its object and from its pages (R96, log 19). -/
theorem unpin_counts (hn : ¬ (e.pins = 0 ∨ pageEmpty s (getCtx s v.ctx) d (objPages b e.size) = true)) :
    Ends s (.unpin g) v.id (countPages (putCat (putWave s v) (getCtx s v.ctx)
      { e with pins := e.pins - 1, st := if e.pins = 1 && e.st == 1 then 0 else e.st }) (getCtx s v.ctx) d (objPages b e.size) false) := by
  have hgo := unpinGo_held (s := putWave s v) (v := v) (by simpa using hu) (by simpa using hd) (by simpa using he)
  simp only [putWave_getCtx, putWave_pageEmpty, if_neg hn] at hgo
  have hk := countObject_sameWork (putWave s v) (getCtx s v.ctx) d
    { e with pins := e.pins - 1, st := if e.pins = 1 && e.st == 1 then 0 else e.st } (objPages b e.size) false
  exact iss.endsAt none (execUnpin_eq g s) (congrArg (·, none) ((unpinBody_some _ hr).trans hgo)) ((hk.findWave v.id).trans iss.v_here)
    (fun n => hk.getCtx n) rfl rfl rfl

/-- UNPIN raises 0x0B where a count would fall below zero (R96). -/
theorem unpin_underflows (hn : e.pins = 0 ∨ pageEmpty s (getCtx s v.ctx) d (objPages b e.size) = true) :
    Traps s (.unpin g) (putWave s v) (unpopped v w) (precise 0x0B) := by
  have hgo := unpinGo_held (s := putWave s v) (v := v) (by simpa using hu) (by simpa using hd) (by simpa using he)
  simp only [putWave_getCtx, putWave_pageEmpty, if_pos hn] at hgo
  exact iss.traps none (execUnpin_eq g s) (congrArg (·, none) ((unpinBody_some _ hr).trans hgo))

end

end

/-- Settles O35: the forms of HMOV by their branches, and PIN and UNPIN by their counts, whose writes keep every wave. -/
theorem handleInstructionsComplete : Obligations.HandleInstructionsComplete := by
  unfold Obligations.HandleInstructionsComplete
  refine ⟨?_, ?_, ?_, ?_, ?_, ?_, ?_⟩
  · exact fun s w v g n h h0 ha => h.handleOnly (execHmov_eq g s) (hmovBody_copy _ v h0 ha)
  · exact fun s w v g h h1 => h.scalarOnly (execHmov_eq g s) (hmovBody_word _ v h1)
  · exact fun s w v g q h h2 hq => h.handleOnly (execHmov_eq g s) (hmovBody_resolve _ v h2 (by simpa using hq))
  · exact fun s w v g h b lo hi d e iss hr hu hd he hst hp hf => pin_counts hd he hr iss hu hst (by simp [hf, hp])
  · exact fun s w v g h b lo hi d e iss hr hu hd he hst hn => pin_overflows hd he hr iss hu hst hn
  · exact fun s w v g h b lo hi upd d e iss hr hu hd he hp hf => unpin_counts hd he hr iss hu (by simp [hf, hp])
  · exact fun s w v g h b lo hi upd d e iss hr hu hd he hn => unpin_underflows hd he hr iss hu hn

end Sys2Proof.Machine
end

section
/-! PROOFS. The memories of the spaces (R69, R350): what a write to one space leaves of it and of the others, without the canonical form, and what
changes no byte at all. -/

namespace Sys2Proof.Machine

/-! ### A memory outside what is written -/

/-- A byte written leaves every other, in any memory. -/
theorem memGet_memPut_other {a x : Nat} (h : x ≠ a) (m : Memory) (b : Byte) : memGet (memPut m a b) x = memGet m x := by
  induction m with
  | nil =>
    simp only [memPut]
    split <;> simp [memGet, h]
  | cons p r ih =>
    obtain ⟨y, c⟩ := p
    simp only [memPut]
    split
    · simp only [memGet, ih]
    · split
      · subst y
        split <;> simp [memGet, h]
      · split <;> simp [memGet, h]

/-- Bytes written leave every other, in any memory. -/
theorem memGet_memPuts_outside {x : Nat} (l : List Byte) (m : Memory) {a : Nat} (h : x < a ∨ a + l.length ≤ x) :
    memGet (memPuts m a l) x = memGet m x := by
  induction l generalizing m a with
  | nil => rfl
  | cons b r ih =>
    rw [List.length_cons] at h
    rw [memPuts, ih (memPut m a b) (by omega), memGet_memPut_other (by omega)]

@[simp] theorem natToBytes_length (n x : Nat) : (natToBytes n x).length = n := by
  induction n generalizing x with
  | zero => rfl
  | succ n ih => rw [natToBytes, List.length_cons, ih]

/-- The bytes of a number, lowest first (R3). -/
theorem natToBytes_getElem {n x j : Nat} (h : j < (natToBytes n x).length) : (natToBytes n x)[j] = BitVec.ofNat 8 (x / 2 ^ (8 * j)) := by
  induction n generalizing x j with
  | zero => simp at h
  | succ n ih =>
    cases j with
    | zero => simp [natToBytes]
    | succ j =>
      simp only [natToBytes, List.getElem_cons_succ, ih]
      rw [Nat.div_div_eq_div_mul, Nat.mul_add, Nat.pow_add, Nat.mul_comm]

/-! ### The spaces of a state -/

/-- The element of an identifier after the elements of one identifier are changed in place. -/
theorem find_modify {α : Type} (key : α → Nat) (l : List α) (n k : Nat) {f : α → α} (hf : ∀ x, key (f x) = key x) :
    (l.map (fun x => if key x = n then f x else x)).find? (fun x => key x == k)
      = (l.find? (fun x => key x == k)).map (fun x => if k = n then f x else x) := by
  rw [find_map_keep]
  · cases hk : l.find? (fun x => key x == k) with
    | none => rfl
    | some x =>
      have hx : key x = k := by simpa using List.find?_some hk
      simp only [Option.map_some, hx]
  · intro x
    split <;> simp only [hf]

section
variable (s : State) {n k : Nat}

/-- A team is as it was after another is changed in place. -/
theorem getTeam_modTeam_other {f : Team → Team} (hf : ∀ x, (f x).id = x.id) (h : k ≠ n) : getTeam (modTeam s n f) k = getTeam s k := by
  simp only [getTeam, modTeam, find_modify Team.id _ _ _ hf, if_neg h, Option.map_id']

/-- The team of an identifier after it is changed in place, if it is there. -/
theorem getTeam_modTeam_same {f : Team → Team} (hf : ∀ x, (f x).id = x.id) :
    getTeam (modTeam s n f) n = f (getTeam s n) ∨ getTeam (modTeam s n f) n = getTeam s n := by
  simp only [getTeam, modTeam, find_modify Team.id _ _ _ hf]
  cases s.teams.find? (fun x => x.id == n) with
  | none => exact .inr rfl
  | some t => exact .inl (by simp only [if_true, Option.map_some, Option.getD_some])

/-- A context is as it was after another is changed in place. -/
theorem getCtx_modCtx_other {f : Ctx → Ctx} (hf : ∀ x, (f x).id = x.id) (h : k ≠ n) : getCtx (modCtx s n f) k = getCtx s k := by
  simp only [getCtx, modCtx, find_modify Ctx.id _ _ _ hf, if_neg h, Option.map_id']

/-- The context of an identifier after it is changed in place, if it is there. -/
theorem getCtx_modCtx_same {f : Ctx → Ctx} (hf : ∀ x, (f x).id = x.id) :
    getCtx (modCtx s n f) n = f (getCtx s n) ∨ getCtx (modCtx s n f) n = getCtx s n := by
  simp only [getCtx, modCtx, find_modify Ctx.id _ _ _ hf]
  cases s.ctxs.find? (fun x => x.id == n) with
  | none => exact .inr rfl
  | some c => exact .inl (by simp only [if_true, Option.map_some, Option.getD_some])

/-- The stack of a wave is as it was after another wave is changed in place. -/
theorem getMem_modWave_other {f : Wave → Wave} (hf : ∀ x, (f x).id = x.id) (h : k ≠ n) :
    getMem (modWave s n f) (.stack k) = getMem s (.stack k) := by
  simp only [getMem, findWave_modWave s n k f hf]
  cases hw : findWave s k with
  | none => rfl
  | some w => simp only [Option.map_some, findWave_id hw, if_neg h]

/-- The stack of a wave after it is changed in place, if it is there. -/
theorem getMem_modWave_same {f : Wave → Wave} {m : Memory} (hf : ∀ x, (f x).id = x.id) (hm : ∀ w, findWave s n = some w → (f w).stack = m) :
    getMem (modWave s n f) (.stack n) = m ∨ getMem (modWave s n f) (.stack n) = getMem s (.stack n) := by
  simp only [getMem, findWave_modWave s n n f hf]
  cases hw : findWave s n with
  | none => exact .inr rfl
  | some w => exact .inl (by simp only [Option.map_some, findWave_id hw, if_true, hm w hw])

end

/-- The annex of a context with one of its memories replaced. -/
theorem annex_set_other {c : Ctx} {d e : Nat} (h : e ≠ d) (m : Memory) : ((setAt c.annex d m)[e]?).getD [] = (c.annex[e]?).getD [] := by
  rw [setAt_eq_set, List.getElem?_set_ne h.symm]

theorem annex_set_same (c : Ctx) (d : Nat) (m : Memory) :
    ((setAt c.annex d m)[d]?).getD [] = m ∨ ((setAt c.annex d m)[d]?).getD [] = (c.annex[d]?).getD [] := by
  rw [setAt_eq_set]
  by_cases hd : d < c.annex.length
  · exact .inl (by simp [hd])
  · exact .inr (by simp [hd])

/-- The memory of a space after another is replaced. -/
theorem getMem_setMem_other {sp q : Space} (h : q ≠ sp) (s : State) (m : Memory) : getMem (setMem s sp m) q = getMem s q := by
  cases sp with
  | hbm => cases q with
    | hbm => exact absurd rfl h
    | _ => rfl
  | cxl => cases q with
    | cxl => exact absurd rfl h
    | _ => rfl
  | host => cases q with
    | host => exact absurd rfl h
    | _ => rfl
  | shelf n => cases q with
    | shelf k => exact congrArg Team.shelf (getTeam_modTeam_other s (fun _ => rfl) (by simpa using h))
    | _ => rfl
  | annex n d => cases q with
    | annex k e =>
      by_cases hk : k = n
      · subst hk
        rcases getCtx_modCtx_same s (n := k) (f := fun x => { x with annex := setAt x.annex d m }) (fun _ => rfl) with hc | hc
        · exact (congrArg (fun c : Ctx => (c.annex[e]?).getD []) hc).trans (annex_set_other (by simpa using h) m)
        · exact congrArg (fun c : Ctx => (c.annex[e]?).getD []) hc
      · exact congrArg (fun c : Ctx => (c.annex[e]?).getD []) (getCtx_modCtx_other s (f := fun x => { x with annex := setAt x.annex d m }) (fun _ => rfl) hk)
    | _ => rfl
  | stack n => cases q with
    | stack k => exact getMem_modWave_other s (fun _ => rfl) (by simpa using h)
    | _ => rfl

/-- The memory of a space that is replaced, if it is there. -/
theorem getMem_setMem_same (s : State) (sp : Space) (m : Memory) :
    getMem (setMem s sp m) sp = m ∨ getMem (setMem s sp m) sp = getMem s sp := by
  cases sp with
  | hbm | cxl | host => exact .inl rfl
  | shelf n => exact (getTeam_modTeam_same s (f := fun x => { x with shelf := m }) (fun _ => rfl)).imp (congrArg Team.shelf) (congrArg Team.shelf)
  | annex n d =>
    rcases getCtx_modCtx_same s (n := n) (f := fun x => { x with annex := setAt x.annex d m }) (fun _ => rfl) with hc | hc
    · have hd := congrArg (fun c : Ctx => (c.annex[d]?).getD []) hc
      exact (annex_set_same (getCtx s n) d m).imp hd.trans hd.trans
    · exact .inr (congrArg (fun c : Ctx => (c.annex[d]?).getD []) hc)
  | stack n => exact getMem_modWave_same s (fun _ => rfl) (fun _ _ => rfl)

/-! ### What changes no byte -/

/-- Every byte of every space is as it was. -/
def SameMem (s t : State) : Prop := ∀ sp, getMem t sp = getMem s sp

namespace SameMem

variable {s t u : State}

theorem refl (s : State) : SameMem s s := fun _ => rfl

theorem trans (h : SameMem s t) (k : SameMem t u) : SameMem s u := fun sp => (k sp).trans (h sp)

theorem readByte (h : SameMem s t) (sp : Space) (o : Nat) : Machine.readByte t sp o = Machine.readByte s sp o := by
  simp only [Machine.readByte, h sp]

end SameMem

theorem noteStack_sameMem (s : State) (sp : Space) (a n : Nat) : SameMem s (noteStack s sp a n) := by
  cases sp with
  | stack w =>
    intro q
    cases q with
    | stack k =>
      by_cases hk : k = w
      · subst hk
        refine (or_self_iff.mp (getMem_modWave_same s (f := fun x => { x with stackTop := max x.stackTop (a + n) }) (m := getMem s (.stack k))
          (fun _ => rfl) (fun x hx => ?_)))
        simp only [getMem, hx]
      · exact getMem_modWave_other s (fun _ => rfl) hk
    | _ => rfl
  | _ => exact SameMem.refl s

theorem clearPoison_sameMem (s : State) (sp : Space) (l : List Nat) : SameMem s (clearPoison s sp l) := by
  unfold clearPoison
  split
  · exact SameMem.refl s
  · exact fun q => by cases q <;> rfl

theorem cacheXlate_sameMem (s : State) (e : TlbEntry) : SameMem s (cacheXlate s e) := by
  unfold cacheXlate
  split
  · exact SameMem.refl s
  · exact fun q => by cases q <;> rfl

/-- Every byte is as it was, and so is every pairing and port (R341, R342). -/
structure SameAccess (s t : State) : Prop where
  mem : SameMem s t
  parts : t.rel.parts = s.rel.parts
  act : t.rel.act = s.rel.act

namespace SameAccess

theorem refl (s : State) : SameAccess s s := ⟨SameMem.refl s, rfl, rfl⟩

theorem trans {s t u : State} (h : SameAccess s t) (k : SameAccess t u) : SameAccess s u :=
  ⟨h.mem.trans k.mem, k.parts.trans h.parts, k.act.trans h.act⟩

end SameAccess

section
variable (s : State) (bank : Nat)

theorem putBank_sameAccess (b : Bank) : SameAccess s (putBank s bank b) := ⟨fun q => by cases q <;> rfl, rfl, rfl⟩

theorem interrupts_sameAccess (l : List Nat) (n : Nat) : SameAccess s { s with interrupts := l, mpInterrupts := n } :=
  ⟨fun q => by cases q <;> rfl, rfl, rfl⟩

theorem raiseVec_sameAccess (n : Nat) : SameAccess s (raiseVec s n) := interrupts_sameAccess s _ _

theorem free_sameAccess (n : Nat) : SameAccess s { s with free := n } := ⟨fun q => by cases q <;> rfl, rfl, rfl⟩

theorem higherFirst_sameAccess (cls : Nat) : SameAccess s (higherFirst s bank cls) := by
  unfold higherFirst
  dsimp only
  split
  · exact (interrupts_sameAccess s _ _).trans (putBank_sameAccess _ bank _)
  · exact SameAccess.refl s

/-- An error record changes no byte and no pairing (R336). -/
theorem errRecord_sameAccess (cls src : Nat) (addr synd : Option W64) (misc : W64) : SameAccess s (errRecord s bank cls src addr synd misc) := by
  have hfirst := (free_sameAccess s (s.free + 4)).trans (higherFirst_sameAccess _ bank cls)
  have hput (b : Bank) := hfirst.trans (putBank_sameAccess _ bank b)
  have hraise (b : Bank) (n : Nat) := (hput b).trans (raiseVec_sameAccess _ n)
  simp only [errRecord]
  split
  · split
    · exact hraise _ _
    · exact hput _
  · split
    · exact hraise _ _
    · exact (hput _).trans (interrupts_sameAccess _ _ _)

end

/-! ### Writes to a space -/

/-- Bytes written to a space leave every other byte. -/
theorem readByte_writeBytes_frame {sp q : Space} {a o : Nat} {l : List Byte} (s : State) (h : q = sp → o < a ∨ a + l.length ≤ o) :
    readByte (writeBytes s sp a l) q o = readByte s q o := by
  rw [writeBytes, (noteStack_sameMem _ sp a l.length).readByte]
  simp only [readByte]
  by_cases hq : q = sp
  · subst hq
    rcases getMem_setMem_same s q (memPuts (getMem s q) a l) with hm | hm
    · rw [hm, memGet_memPuts_outside l _ (h rfl)]
    · rw [hm]
  · rw [getMem_setMem_other hq]

/-- A range written leaves every other byte. -/
theorem readByte_writeRange_frame {sp q : Space} {a o : Nat} {l : List Byte} (s : State) (h : q = sp → o < a ∨ a + l.length ≤ o) :
    readByte (writeRange s sp a l) q o = readByte s q o := by
  rw [writeRange, (clearPoison_sameMem _ _ _).readByte, readByte_writeBytes_frame s h]

end Sys2Proof.Machine
end

section
/-! PROOFS. What the performance of a load and of a store leaves of the memories (R69, R71, R304). -/

namespace Sys2Proof.Machine

/-! ### An element performed -/

/-- Whether a pairing is forbidden depends on the ports and the matrix of pairings alone (R341, R342). -/
theorem forbidden_congr {s t : State} (hp : t.rel.parts = s.rel.parts) (ha : t.rel.act = s.rel.act) (core : Nat) (sp : Space) (o : Nat) :
    forbidden t core sp o = forbidden s core sp o := by
  unfold forbidden portShut
  rw [hp, ha]

theorem noteForbidden_sameAccess (s : State) (core o : Nat) : SameAccess s (noteForbidden s core o) := errRecord_sameAccess s 62 2 6 _ _ _

theorem cacheAt_sameMem (s : State) (c : Ctx) (a : W64) : SameMem s (cacheAt s c a) := by
  unfold cacheAt
  split
  · split
    · exact cacheXlate_sameMem s _
    · exact SameMem.refl s
  · exact SameMem.refl s

section
variable (s : State) (core : Nat) (c : Ctx) (t : Ty) (e : Elem) (sp : Space) (o : Nat)

/-- The performance of an element of a load changes no byte. -/
theorem doElem_load_sameMem : SameMem s (doElem s core c .load t e sp o).1 := by
  simp only [doElem]
  split
  · exact (noteForbidden_sameAccess s core o).mem
  · exact cacheAt_sameMem s c e.addr

/-- The bytes of an element of a store written at its place, its translation cached. -/
def storedElem : State := writeBytes (cacheAt s c e.addr) sp o (natToBytes (tySize t) e.data.toNat)

/-- The performance of an element of a store: its bytes written and its leaf made DIRTY, or the forbidden pairing recorded (R304, R342). -/
theorem doElem_store : (doElem s core c .store t e sp o).1
    = if forbidden s core sp o then noteForbidden s core o else dirtyPlace (storedElem s c t e sp o) c e.addr sp o := by
  cases h : forbidden s core sp o with
  | true => simp only [doElem, h, if_true]
  | false =>
    simp only [doElem, h, Bool.false_eq_true, if_false]
    rfl

/-- The bytes of an element of a store leave every other byte. -/
theorem storedElem_frame {q : Space} {x : Nat} (h : q = sp → x < o ∨ o + tySize t ≤ x) :
    readByte (storedElem s c t e sp o) q x = readByte s q x := by
  rw [storedElem, readByte_writeBytes_frame _ (by simpa using h), (cacheAt_sameMem s c e.addr).readByte]

/-- The bytes of an element stored to local HBM are its data's, lowest first (R3). -/
theorem storedElem_at {j : Nat} (hw : s.hbm.wf = true) (hj : j < tySize t) :
    readByte (storedElem s c t e .hbm o) .hbm (o + j) = BitVec.ofNat 8 (e.data.toNat / 2 ^ (8 * j)) := by
  have hh : (cacheAt s c e.addr).hbm.wf = true := by
    rw [show (cacheAt s c e.addr).hbm = s.hbm from cacheAt_sameMem s c e.addr .hbm]
    exact hw
  have hl : j < (natToBytes (tySize t) e.data.toNat).length := by rwa [natToBytes_length]
  rw [storedElem, readByte_writeBytes_at hh _ _ _ hl, natToBytes_getElem hl]

end

/-! ### DIRTY of the leaf that a store went through -/

/-- DIRTY set through a leaf changes no byte but the leaf's. -/
theorem setDirty_frame (s : State) {e : TlbEntry} {q : Space} {x : Nat} (h : q = .hbm → x < e.at_ ∨ e.at_ + 8 ≤ x) :
    readByte (setDirty s e) q x = readByte s q x := by
  unfold setDirty
  split
  · rfl
  · rw [(cacheXlate_sameMem _ _).readByte, readByte_writeRange_frame s (by simpa using h)]

/-- DIRTY set through a leaf that has it changes nothing. -/
theorem setDirty_dirty (s : State) {e : TlbEntry} (h : leafDirty e.leaf.toNat = true) : setDirty s e = s := by
  simp only [setDirty, h, Bool.true_or, if_true]

section
variable (s : State) (c : Ctx) (a : W64) (sp : Space) (o : Nat)

/-- A store changes a leaf at most through its own address, and by setting DIRTY in it. -/
theorem dirtyPlace_cases : dirtyPlace s c a sp o = s ∨ (aperOf a = .global ∧ ∃ e, translate s c.asid c.ptroot a.toNat true = .leaf e
    ∧ dirtyPlace s c a sp o = setDirty s e) := by
  by_cases ha : aperOf a = .global
  · cases hw : translate s c.asid c.ptroot a.toNat true with
    | leaf e =>
      have hor (b : Bool) : (if b then setDirty s e else s) = s ∨ (if b then setDirty s e else s) = setDirty s e := by
        cases b
        · exact .inl rfl
        · exact .inr rfl
      simp only [dirtyPlace, if_pos ha, hw]
      exact (hor _).imp id (fun h => ⟨ha, e, rfl, h⟩)
    | _ => simp only [dirtyPlace, if_pos ha, hw, true_or]
  · exact .inl (if_neg ha)

/-- Outside the global aperture, or through a leaf that is DIRTY, a store changes no leaf. -/
theorem dirtyPlace_clean {s : State} {c : Ctx} {a : W64} (h : aperOf a ≠ .global ∨ ∃ f, translate s c.asid c.ptroot a.toNat true = .leaf f
    ∧ leafDirty f.leaf.toNat = true) : dirtyPlace s c a sp o = s := by
  rcases dirtyPlace_cases s c a sp o with hd | ⟨ha, e, he, hd⟩
  · exact hd
  · rcases h with h | ⟨f, hf, hfd⟩
    · exact absurd ha h
    · rw [he] at hf
      cases hf
      rw [hd, setDirty_dirty s hfd]

/-- A store changes no byte of a leaf but those of the leaf that its address leads through. -/
theorem dirtyPlace_frame {q : Space} {x : Nat} (h : q = .hbm → ∀ e, translate s c.asid c.ptroot a.toNat true = .leaf e →
    x < e.at_ ∨ e.at_ + 8 ≤ x) : readByte (dirtyPlace s c a sp o) q x = readByte s q x := by
  rcases dirtyPlace_cases s c a sp o with hd | ⟨-, e, he, hd⟩
  · rw [hd]
  · rw [hd, setDirty_frame s (fun hq => h hq e he)]

end

section
variable (s : State) (core : Nat) (c : Ctx) (t : Ty) (e : Elem) (sp : Space) (o : Nat)

/-- An element of a store changes no byte but its own and those of the leaf that its address leads through. -/
theorem doElem_store_frame {q : Space} {x : Nat} (h : q = sp → x < o ∨ o + tySize t ≤ x)
    (hl : readByte (dirtyPlace (storedElem s c t e sp o) c e.addr sp o) q x = readByte (storedElem s c t e sp o) q x) :
    readByte (doElem s core c .store t e sp o).1 q x = readByte s q x := by
  rw [doElem_store]
  split
  · exact (noteForbidden_sameAccess s core o).mem.readByte q x
  · rw [hl, storedElem_frame s c t e sp o h]

end

/-! ### The elements of an access performed -/

/-- One element of an access performed where it has a place, on the device or over a link. -/
def performElem (core : Nat) (c : Ctx) (a : Access) (link : Bool) (x : State × List Got) (e : Elem) : State × List Got :=
  match placeOf link e with
  | some (sp, o) => let (y, g) := doElem x.1 core c a.kind a.ty e sp o; (y, x.2 ++ [g])
  | none => x

theorem perform_eq (s : State) (core : Nat) (c : Ctx) (a : Access) (link : Bool) : (perform s core c a link).1
    = clearStored ((freshAccess s c a).elems.foldl (performElem core c (freshAccess s c a) link) (s, [])).1 core (freshAccess s c a) link := rfl

theorem performElem_place {core : Nat} {c : Ctx} {a : Access} {link : Bool} {x : State × List Got} {e : Elem} {p : Space × Nat}
    (h : placeOf link e = some p) : (performElem core c a link x e).1 = (doElem x.1 core c a.kind a.ty e p.1 p.2).1 := by
  simp only [performElem, h]

theorem performElem_nowhere {core : Nat} {c : Ctx} {a : Access} {link : Bool} {x : State × List Got} {e : Elem}
    (h : placeOf link e = none) : performElem core c a link x e = x := by
  simp only [performElem, h]

theorem clearStored_sameMem (s : State) (core : Nat) (a : Access) (link : Bool) : SameMem s (clearStored s core a link) := by
  unfold clearStored
  split
  · exact SameMem.refl s
  · split
    · exact List.foldlRecOn _ _ (SameMem.refl s) (fun t ht sp _ => ht.trans (clearPoison_sameMem t sp _))
    · exact SameMem.refl s

/-- The performance of a load changes no byte of any memory. -/
theorem perform_load_sameMem (s : State) (core : Nat) (c : Ctx) {a : Access} (link : Bool) (h : a.kind = .load) :
    SameMem s (perform s core c a link).1 := by
  have hf : freshAccess s c a = a := by simp only [freshAccess, h]
  rw [perform_eq, hf]
  refine SameMem.trans ?_ (clearStored_sameMem _ core a link)
  refine List.foldlRecOn (motive := fun x : State × List Got => SameMem s x.1) _ _ (SameMem.refl s) (fun x hx e _ => ?_)
  cases hp : placeOf link e with
  | none => rwa [performElem_nowhere hp]
  | some p =>
    rw [performElem_place hp, h]
    exact hx.trans (doElem_load_sameMem x.1 core c a.ty e p.1 p.2)

/-- One byte is as it was, and so is every pairing and port. -/
structure KeepsByte (q : Space) (x : Nat) (s t : State) : Prop where
  byte : readByte t q x = readByte s q x
  parts : t.rel.parts = s.rel.parts
  act : t.rel.act = s.rel.act

theorem KeepsByte.trans {q : Space} {x : Nat} {s t u : State} (h : KeepsByte q x s t) (k : KeepsByte q x t u) : KeepsByte q x s u :=
  ⟨k.byte.trans h.byte, k.parts.trans h.parts, k.act.trans h.act⟩

theorem setMem_rel (s : State) (sp : Space) (m : Memory) : (setMem s sp m).rel = s.rel := by cases sp <;> rfl

theorem writeBytes_rel (s : State) (sp : Space) (a : Nat) (l : List Byte) : (writeBytes s sp a l).rel = s.rel := by
  rw [writeBytes, ← setMem_rel s sp (memPuts (getMem s sp) a l)]
  cases sp <;> rfl

section
variable (s : State) (core : Nat) (c : Ctx) (t : Ty) {e : Elem} (ha : aperOf e.addr ≠ .global)
include ha

theorem freshElem_outside : freshElem s c e = e := if_neg ha

/-- An element of a store outside the global aperture keeps every byte but its own. -/
theorem doElem_store_outside {sp q : Space} {o x : Nat} (h : forbidden s core sp o = false → q = sp → x < o ∨ o + tySize t ≤ x) :
    KeepsByte q x s (doElem s core c .store t e sp o).1 := by
  rw [doElem_store]
  cases hf : forbidden s core sp o with
  | true =>
    have hn := noteForbidden_sameAccess s core o
    exact ⟨hn.mem.readByte q x, hn.parts, hn.act⟩
  | false =>
    have hrel : (storedElem s c t e sp o).rel = s.rel := (writeBytes_rel _ _ _ _).trans (congrArg State.rel (if_neg ha))
    rw [if_neg Bool.false_ne_true, dirtyPlace_clean sp o (.inl ha)]
    exact ⟨storedElem_frame s c t e sp o (h hf), congrArg Rel.parts hrel, congrArg Rel.act hrel⟩

end

/-- A byte that the stores of an access do not write lies outside each of its elements. -/
theorem notMem_storedIn {s : State} {core : Nat} {a : Access} {link : Bool} {q : Space} {x : Nat} (h : x ∉ storedIn s core a link q)
    {e : Elem} (he : e ∈ a.elems) {sp : Space} {o : Nat} (hp : placeOf link e = some (sp, o)) (hf : forbidden s core sp o = false) (hq : q = sp) :
    x < o ∨ o + tySize a.ty ≤ x := by
  subst hq
  by_contra hx
  refine h (List.mem_flatMap.mpr ⟨e, he, ?_⟩)
  simp only [hp, hf, beq_self_eq_true, Bool.not_false, Bool.and_self, if_true]
  exact List.mem_map.mpr ⟨x - o, List.mem_range.mpr (by rw [elemSize]; omega), by omega⟩

/-- The performance of a store outside the global aperture changes no byte but those of its elements. -/
theorem perform_store_frame (s : State) (core : Nat) (c : Ctx) {a : Access} {link : Bool} {q : Space} {x : Nat} (hk : a.kind = .store)
    (ha : ∀ e ∈ a.elems, aperOf e.addr ≠ .global) (hx : x ∉ storedIn s core a link q) :
    readByte (perform s core c a link).1 q x = readByte s q x := by
  have hf : freshAccess s c a = a := by
    have hes : a.elems.map (freshElem s c) = a.elems := (List.map_congr_left (fun e he => freshElem_outside s c (ha e he))).trans (List.map_id _)
    unfold freshAccess
    split
    · rfl
    · rw [hes]
  rw [perform_eq, hf, (clearStored_sameMem _ core a link).readByte]
  refine (List.foldlRecOn (motive := fun y : State × List Got => KeepsByte q x s y.1) _ _ ⟨rfl, rfl, rfl⟩ (fun y hy e he => ?_)).byte
  cases hp : placeOf link e with
  | none => rwa [performElem_nowhere hp]
  | some p =>
    rw [performElem_place hp, hk]
    refine hy.trans (doElem_store_outside y.1 core c a.ty (ha e he) (fun hfb hq => ?_))
    rw [forbidden_congr hy.parts hy.act] at hfb
    exact notMem_storedIn hx he hp hfb hq

/-- Settles O10: a load and a store over their elements, and one element of a store with the leaf that it makes DIRTY. -/
theorem storeFrame : Obligations.StoreFrame := by
  unfold Obligations.StoreFrame
  refine ⟨?_, ?_, ?_⟩
  · exact fun s core c a sp hk => perform_load_sameMem s core c false hk sp
  · exact fun s core c a sp o hk ha ho => perform_store_frame s core c hk ha ho
  · intro s core c t e sp o x clean
    refine ⟨fun q o2 h hc => ?_, fun f o2 hf h hl => ?_, fun hw hsp hfb hc j hj => ?_⟩
    · refine doElem_store_frame s core c t e sp o h ?_
      rcases hc with hc | hq
      · rw [dirtyPlace_clean (s := storedElem s c t e sp o) sp o hc]
      · exact dirtyPlace_frame _ c e.addr sp o (fun h => absurd h hq)
    · refine doElem_store_frame s core c t e sp o (fun hq => h hq.symm) (dirtyPlace_frame _ c e.addr sp o (fun _ g hg => ?_))
      cases hf.symm.trans hg
      exact hl
    · subst hsp
      rw [show x = _ from doElem_store s core c t e .hbm o, hfb, if_neg Bool.false_ne_true, dirtyPlace_clean (s := storedElem s c t e .hbm o) .hbm o hc]
      exact storedElem_at s c t e o hw hj

end Sys2Proof.Machine
end

section
/-! PROOFS. The vector float group and its conversions (R107, R176, R185 to R193). -/

namespace Sys2Proof.Machine

/-- An instruction that works on each element of its type meets its rule. -/
theorem elemRule_of {k : GenW → Instr} {f : GenW → Nat → Nat → Nat → Nat}
    (he : ∀ (s : State) (g : GenW), Sys2Proof.Machine.exec (k g) s = vecLanes (k g) g s (fun x v l => elemLane f x v g l))
    (hn : ∀ g : GenW, isNwb (k g) = g.hdr.nwb) : ElemRule k f :=
  laneRule_of he (putWave_elemLane f) hn

/-- The mask of a vector compare is that of the state that its wave was put back in. -/
@[simp] theorem putWave_cmpMask (s : State) (v w : Wave) (g : GenW) (p : Nat → Nat → Nat → Bool) :
    cmpMask (putWave s v) w g p = cmpMask s w g p := by
  simp only [cmpMask, putWave_vword]

/-- A vector compare meets its rule. -/
theorem compareRule_of {k : GenW → Instr} {p : GenW → Nat → Nat → Nat → Bool}
    (he : ∀ (s : State) (g : GenW), Sys2Proof.Machine.exec (k g) s
      = issueEff (k g) s (fun s v => { k := [(kNum g.dst, cmpMask s v g (p g))] }))
    (hn : ∀ g : GenW, isNwb (k g) = g.hdr.nwb) : CompareRule k (fun g => p g (g.opx.toNat % 8)) := by
  intro s w v g h
  have hdoes := h.maskOnly (d := kNum g.dst) (x := cmpMask s v g (p g)) (he s g) (by simp only [putWave_cmpMask])
  rw [hn] at hdoes
  exact hdoes

/-- One 32-bit word for each lane is a write of one register (R175). -/
theorem vres_word (d : Nat) (ls : List Nat) (f : Nat → Nat) :
    vres d .b32 (ls.map (fun l => (l, f l))) = { v := [(d, ls.map (fun l => (l, w32 (f l))))] } := by
  have hw : tyWidth .b32 ≠ 64 := by decide
  simp only [vres, if_neg hw, List.map_map, Function.comp_def]

/-- Settles O16: fourteen instructions by the rule of elements, VFCMP by the rule of compares, VCVT by the rule of lane words, and VPACK and VUNPK by
the registers that they write. -/
theorem vectorFloatCompletes : Obligations.VectorFloatCompletes := by
  unfold Obligations.VectorFloatCompletes
  iterate 14 refine ⟨elemRule_of (fun _ _ => rfl) (fun _ => rfl), ?_⟩
  refine ⟨compareRule_of (fun _ _ => rfl) (fun _ => rfl), ?_, ?_, ?_⟩
  · refine laneRule_of (fun _ _ => rfl) (fun s v g l => ?_) (fun _ => rfl)
    simp only [putWave_laneWord]
  · intro s w v g h n hi cv ws hb
    refine h.vectorOnly (ws := ws) rfl ?_ hb
    simp only [putWave_laneWord, vres_word]
    rfl
  · intro s w v g h n lo cv ws hb
    refine h.vectorOnly (ws := ws) rfl ?_ hb
    simp only [putWave_laneWord]
    rfl

end Sys2Proof.Machine
end

section
/-! PROOFS. The codes of the fields of an instruction word (R73, R74, R99, R107, R125, R126, R133): each is read as what it stands for, and no two
stand for the same. -/

namespace Sys2Proof.Machine

/-! ### Codes -/

/-- A number that fits in a field is read from it as it is. -/
theorem field_toNat {n x : Nat} (h : x < 2 ^ n) : (BitVec.ofNat n x).toNat = x := by
  rw [BitVec.toNat_ofNat, Nat.mod_eq_of_lt h]

/-- A field whose number is known. -/
theorem field_eq {n c : Nat} {x : BitVec n} (h : c = x.toNat) : BitVec.ofNat n c = x := by
  rw [h, BitVec.ofNat_toNat, BitVec.setWidth_eq]

theorem guardOf_field (g : Guard) : guardOf (BitVec.ofNat 4 (guardCode g)).toNat = some g := by cases g <;> rfl
theorem tyOf_field (t : Ty) : tyOf (BitVec.ofNat 4 (tyCode t)).toNat = some t := by cases t <;> rfl
theorem scpOf_field (p : Scp) : scpOf (BitVec.ofNat 3 (scpCode p)).toNat = some p := by cases p <;> rfl
theorem aopOf_field (o : Aop) : aopOf (BitVec.ofNat 4 (aopCode o)).toNat = some o := by cases o <;> rfl
theorem orderOf_field (o : Order) : orderOf (BitVec.ofNat 2 (orderCode o)).toNat = o := by cases o <;> rfl
theorem policyOf_field (p : Policy) : policyOf (BitVec.ofNat 2 (policyCode p)).toNat = p := by cases p <;> rfl
theorem rmOf_field (r : Rm) : rmOf (BitVec.ofNat 2 (rmCode r)).toNat = r := by cases r <;> rfl

theorem guardCode_of {n : Nat} {g : Guard} (h : guardOf n = some g) : guardCode g = n := by
  unfold guardOf at h
  split at h <;> cases h <;> rfl

theorem tyCode_of {n : Nat} {t : Ty} (h : tyOf n = some t) : tyCode t = n := by
  unfold tyOf at h
  split at h <;> cases h <;> rfl

theorem spCode_of {n : Nat} {r : SpReg} (h : spOf n = some r) : spCode r = n := by
  unfold spOf at h
  split at h <;> cases h <;> rfl

theorem scpCode_of {n : Nat} {p : Scp} (h : scpOf n = some p) : scpCode p = n := by
  unfold scpOf at h
  split at h <;> cases h <;> rfl

theorem aopCode_of {n : Nat} {o : Aop} (h : aopOf n = some o) : aopCode o = n := by
  unfold aopOf at h
  split at h <;> cases h <;> rfl

theorem orderCode_of (x : BitVec 2) : BitVec.ofNat 2 (orderCode (orderOf x.toNat)) = x := by revert x; decide
theorem policyCode_of (x : BitVec 2) : BitVec.ofNat 2 (policyCode (policyOf x.toNat)) = x := by revert x; decide
theorem rmCode_of (x : BitVec 2) : BitVec.ofNat 2 (rmCode (rmOf x.toNat)) = x := by revert x; decide

/-! ### Operands -/

/-- An operand that the ten bits of a field can name (R126): of the latches x1 to x3, of the mask registers k0 to k95. -/
def nameable : Operand → Bool
  | .x d => d != 0
  | .k n => decide (n.toNat < 96)
  | _ => true

/-- The class and the index of an operand field. -/
theorem class_index {x : BitVec 10} {c i : Nat} (h : x.toNat = 256 * c + i) (hi : i < 256) : x.toNat / 256 = c ∧ x.toNat % 256 = i := by omega

theorem operandOf_latch : ∀ (d : BitVec 2) (l : Bool), d ≠ 0 → operandOf (operandCode (.x d)) l = some (.x d) := by decide
theorem operandOf_queue : ∀ (n : BitVec 2) (l : Bool), operandOf (operandCode (.q n)) l = some (.q n) := by decide
theorem operandOf_handle : ∀ (n : BitVec 4) (l : Bool), operandOf (operandCode (.h n)) l = some (.h n) := by decide

theorem operandOf_vector (n : BitVec 8) (l : Bool) : operandOf (operandCode (.v n)) l = some (.v n) := by
  obtain ⟨hc, hi⟩ := class_index (x := operandCode (.v n)) (c := 0) (i := n.toNat) ((field_toNat (by omega)).trans (by omega)) n.isLt
  simp [operandOf, hc, hi]

theorem operandOf_scalar (n : BitVec 6) (l : Bool) : operandOf (operandCode (.s n)) l = some (.s n) := by
  obtain ⟨hc, hi⟩ := class_index (x := operandCode (.s n)) (c := 1) (i := n.toNat) (field_toNat (by omega)) (by omega)
  simp [operandOf, hc, hi, n.isLt]

theorem operandOf_mask {n : BitVec 7} (l : Bool) (h : n.toNat < 96) : operandOf (operandCode (.k n)) l = some (.k n) := by
  obtain ⟨hc, hi⟩ := class_index (x := operandCode (.k n)) (c := 2) (i := 32 + n.toNat) ((field_toNat (by omega)).trans (by omega)) (by omega)
  have hx : ¬ (1 ≤ 32 + n.toNat ∧ 32 + n.toNat ≤ 3) := by omega
  have hq : ¬ (8 ≤ 32 + n.toNat ∧ 32 + n.toNat ≤ 11) := by omega
  have hh : ¬ (16 ≤ 32 + n.toNat ∧ 32 + n.toNat ≤ 31) := by omega
  have hk : 32 ≤ 32 + n.toNat ∧ 32 + n.toNat ≤ 127 := by omega
  have hn : BitVec.ofNat 7 (32 + n.toNat - 32) = n := field_eq (by omega)
  simp only [operandOf, hc, hi, if_neg hx, if_neg hq, if_neg hh, if_pos hk, hn]

theorem operandOf_imm {i : BitVec 8} {l : Bool} (h : i = 0x80 → l = false) : operandOf (operandCode (.imm i)) l = some (.imm i) := by
  obtain ⟨hc, hi⟩ := class_index (x := operandCode (.imm i)) (c := 3) (i := i.toNat) (field_toNat (by omega)) i.isLt
  have hl : ¬ (i.toNat = 128 ∧ l = true) := fun ⟨h8, ht⟩ => by simp [h (BitVec.eq_of_toNat_eq h8)] at ht
  simp [operandOf, hc, hi, hl]

/-- An operand is read from its code, but for the literal where there is none, and for the immediate -128 where there is one (R131). -/
theorem operandOf_operandCode {o : Operand} {l : Bool} (hn : nameable o = true) (hlit : o = .lit → l = true) (himm : o = .imm 0x80 → l = false) :
    operandOf (operandCode o) l = some o := by
  cases o with
  | v n => exact operandOf_vector n l
  | s n => exact operandOf_scalar n l
  | sp r => cases r <;> rfl
  | x d => exact operandOf_latch d l (by simpa [nameable] using hn)
  | q n => exact operandOf_queue n l
  | h n => exact operandOf_handle n l
  | k n => exact operandOf_mask l (by simpa [nameable] using hn)
  | dead => rfl
  | imm i => exact operandOf_imm (fun hi => himm (by rw [hi]))
  | lit => rw [hlit rfl]; rfl

/-- The code of an operand that is read is the field that it is read from. -/
theorem operandCode_of {x : BitVec 10} {l : Bool} {o : Operand} (h : operandOf x l = some o) : operandCode o = x := by
  have hx := x.isLt
  simp only [operandOf] at h
  split at h
  case h_1 hc =>
    cases h
    exact field_eq (by rw [BitVec.toNat_ofNat]; omega)
  case h_2 hc =>
    split at h
    · cases h
      exact field_eq (by rw [BitVec.toNat_ofNat]; omega)
    · obtain ⟨r, hr, rfl⟩ := Option.map_eq_some_iff.mp h
      exact field_eq (by rw [spCode_of hr]; omega)
  case h_3 hc =>
    repeat' split at h
    all_goals cases h
    all_goals
      simp only [operandCode, BitVec.toNat_ofNat]
      exact field_eq (by omega)
  case h_4 h0 h1 h2 =>
    have hc : x.toNat / 256 = 3 := by
      have n0 : x.toNat / 256 ≠ 0 := h0
      have n1 : x.toNat / 256 ≠ 1 := h1
      have n2 : x.toNat / 256 ≠ 2 := h2
      omega
    split at h
    · cases h
      exact field_eq (show 768 + 128 = x.toNat by omega)
    · cases h
      exact field_eq (by rw [BitVec.toNat_ofNat]; omega)

end Sys2Proof.Machine
end

section
/-! PROOFS. The fields of an instruction word and the layouts (R124, R131, R133): each layout reads from a word what it writes into it, and writes
what it reads. -/

namespace Sys2Proof.Machine

/-! ### The fields of a word -/

/-- A word is that of its fields: they lie side by side. -/
theorem pack_unpack (w : W96) : pack (unpack w) = w := by
  simp only [pack, unpack, -Nat.reduceAdd]
  rw [BitVec.cast_eq]
  repeat rw [BitVec.extractLsb'_append_extractLsb'_eq_extractLsb']
  · exact BitVec.extractLsb'_eq_self
  all_goals rfl

/-- The fields of a word are those it is made of. -/
theorem unpack_pack (r : Raw) : unpack (pack r) = r := by
  simp [pack, unpack, BitVec.extractLsb'_append_eq_of_le, BitVec.extractLsb'_append_eq_of_add_le, -Nat.reduceAdd]

/-- A bit as a field of one bit. -/
theorem ofBool_bit {n : Nat} (x : BitVec n) (i : Nat) : BitVec.ofBool (x.getLsbD i) = x.extractLsb' i 1 := by
  apply BitVec.eq_of_getLsbD_eq
  intro j hj
  obtain rfl : j = 0 := by omega
  simp

theorem bit_ofBool (b : Bool) : (BitVec.ofBool b == 1) = b := by cases b <;> rfl
theorem ofBool_isOne (x : BitVec 1) : BitVec.ofBool (x == 1) = x := by revert x; decide

/-! ### Headers -/

theorem hdrOf_rawHdr (n : Nat) (h : Hdr) (d a : Operand) : hdrOf (rawHdr n h d a) h.lit = some h := by
  simp only [hdrOf, rawHdr, guardOf_field, tyOf_field, bit_ofBool]

theorem hdrOf_lit {r : Raw} {lit : Option W64} {h : Hdr} (hh : hdrOf r lit = some h) : h.lit = lit := by
  simp only [hdrOf] at hh
  split at hh <;> cases hh
  rfl

/-- What a header that is read says of the fields that it is read from. -/
theorem hdrOf_fields {r : Raw} {lit : Option W64} {h : Hdr} (hh : hdrOf r lit = some h) :
    BitVec.ofNat 4 (guardCode h.grd) = r.grd ∧ h.msk = r.msk ∧ BitVec.ofNat 4 (tyCode h.typ) = r.typ ∧ h.dsc = r.dsc ∧ h.dsw = r.dsw
      ∧ BitVec.ofBool h.nwb = r.nwb := by
  simp only [hdrOf] at hh
  split at hh
  · cases hh
    exact ⟨field_eq (guardCode_of ‹_›), rfl, field_eq (tyCode_of ‹_›), rfl, rfl, ofBool_isOne _⟩
  · cases hh

/-! ### Layouts read what they write -/

/-- A field of one bit, read as that bit. -/
theorem getLsbD_of_field {n i : Nat} {x : BitVec n} {b : Bool} (h : x.extractLsb' i 1 = BitVec.ofBool b) : x.getLsbD i = b := by
  rw [← ofBool_bit] at h
  cases hx : x.getLsbD i <;> cases b <;> simp_all

/-- The modifiers of the general layout, each in its bits (R133). -/
theorem rawGen_mod (n : Nat) (w : GenW) :
    (rawGen n w).mod.extractLsb' 14 5 = w.opx ∧ (rawGen n w).mod.extractLsb' 10 4 = BitVec.ofNat 4 (tyCode w.ty2)
      ∧ (rawGen n w).mod.extractLsb' 9 1 = BitVec.ofBool w.sat ∧ (rawGen n w).mod.extractLsb' 6 3 = w.abs
      ∧ (rawGen n w).mod.extractLsb' 3 3 = w.neg ∧ (rawGen n w).mod.extractLsb' 2 1 = BitVec.ofBool w.nan
      ∧ (rawGen n w).mod.extractLsb' 0 2 = BitVec.ofNat 2 (rmCode w.rm) := by
  simp [rawGen, BitVec.extractLsb'_append_eq_of_le, BitVec.extractLsb'_append_eq_of_add_le, -Nat.reduceAdd]

/-- The modifiers of the memory layout. -/
theorem rawMem_mod (n : Nat) (w : MemW) :
    (rawMem n w).mod.extractLsb' 16 3 = BitVec.ofNat 3 (scpCode w.scope) ∧ (rawMem n w).mod.extractLsb' 14 2 = BitVec.ofNat 2 (orderCode w.order)
      ∧ (rawMem n w).mod.extractLsb' 12 2 = BitVec.ofNat 2 (policyCode w.policy) ∧ (rawMem n w).mod.extractLsb' 0 12 = w.disp := by
  simp [rawMem, rawSop, BitVec.extractLsb'_append_eq_of_le, BitVec.extractLsb'_append_eq_of_add_le, -Nat.reduceAdd]

/-- The modifiers of the atomic layout. -/
theorem rawAtom_mod (n : Nat) (w : AtomW) :
    (rawAtom n w).mod.extractLsb' 16 3 = BitVec.ofNat 3 (scpCode w.scope) ∧ (rawAtom n w).mod.extractLsb' 14 2 = BitVec.ofNat 2 (orderCode w.order)
      ∧ (rawAtom n w).mod.extractLsb' 12 2 = BitVec.ofNat 2 (policyCode w.policy)
      ∧ (rawAtom n w).mod.extractLsb' 8 4 = BitVec.ofNat 4 (aopCode w.aop) ∧ (rawAtom n w).mod.extractLsb' 0 8 = w.disp := by
  simp [rawAtom, rawSop, BitVec.extractLsb'_append_eq_of_le, BitVec.extractLsb'_append_eq_of_add_le, -Nat.reduceAdd]

/-- The modifiers of the remote layout. -/
theorem rawRem_mod (n : Nat) (w : RemW) :
    (rawRem n w).mod.extractLsb' 16 3 = BitVec.ofNat 3 (scpCode w.scope) ∧ (rawRem n w).mod.extractLsb' 14 2 = BitVec.ofNat 2 (orderCode w.order)
      ∧ (rawRem n w).mod.extractLsb' 12 2 = BitVec.ofNat 2 (policyCode w.policy)
      ∧ (rawRem n w).mod.extractLsb' 6 6 = w.stream ∧ (rawRem n w).mod.extractLsb' 0 6 = w.disp := by
  simp [rawRem, rawSop, BitVec.extractLsb'_append_eq_of_le, BitVec.extractLsb'_append_eq_of_add_le, -Nat.reduceAdd]

/-- The operands of a word are each read from their code. -/
def ReadBack (h : Hdr) (ops : List Operand) : Prop := ∀ o ∈ ops, operandOf (operandCode o) h.lit.isSome = some o

theorem genOf_rawGen {k : GenW → Instr} {n : Nat} {w : GenW} (hr : ReadBack w.hdr [w.dst, w.a, w.b, w.c]) :
    genOf k (rawGen n w) w.hdr.lit = some (k w) := by
  have hh : hdrOf (rawGen n w) w.hdr.lit = some w.hdr := hdrOf_rawHdr n w.hdr w.dst w.a
  obtain ⟨hopx, hty, hsat, habs, hneg, hnan, hrm⟩ := rawGen_mod n w
  simp only [ReadBack, List.forall_mem_cons] at hr
  simp only [genOf, hh, hopx, hty, getLsbD_of_field hsat, habs, hneg, getLsbD_of_field hnan, hrm, tyOf_field, rmOf_field]
  simp only [rawGen, rawHdr, hr]

theorem memOf_rawMem {k : MemW → Instr} {n : Nat} {w : MemW} (hr : ReadBack w.hdr [w.dst, w.a, w.b, w.c]) :
    memOf k (rawMem n w) w.hdr.lit = some (k w) := by
  have hh : hdrOf (rawMem n w) w.hdr.lit = some w.hdr := hdrOf_rawHdr n w.hdr w.dst w.a
  obtain ⟨hsc, hord, hpol, hdisp⟩ := rawMem_mod n w
  simp only [ReadBack, List.forall_mem_cons] at hr
  simp only [memOf, hh, hsc, hord, hpol, hdisp, scpOf_field, orderOf_field, policyOf_field]
  simp only [rawMem, rawHdr, hr]

theorem atomOf_rawAtom {k : AtomW → Instr} {n : Nat} {w : AtomW} (hr : ReadBack w.hdr [w.dst, w.a, w.b, w.c]) :
    atomOf k (rawAtom n w) w.hdr.lit = some (k w) := by
  have hh : hdrOf (rawAtom n w) w.hdr.lit = some w.hdr := hdrOf_rawHdr n w.hdr w.dst w.a
  obtain ⟨hsc, hord, hpol, haop, hdisp⟩ := rawAtom_mod n w
  simp only [ReadBack, List.forall_mem_cons] at hr
  simp only [atomOf, hh, hsc, hord, hpol, haop, hdisp, scpOf_field, orderOf_field, policyOf_field, aopOf_field]
  simp only [rawAtom, rawHdr, hr]

theorem remOf_rawRem {k : RemW → Instr} {n : Nat} {w : RemW} (hr : ReadBack w.hdr [w.dst, w.a, w.b, w.c]) :
    remOf k (rawRem n w) w.hdr.lit = some (k w) := by
  have hh : hdrOf (rawRem n w) w.hdr.lit = some w.hdr := hdrOf_rawHdr n w.hdr w.dst w.a
  obtain ⟨hsc, hord, hpol, hstr, hdisp⟩ := rawRem_mod n w
  simp only [ReadBack, List.forall_mem_cons] at hr
  simp only [remOf, hh, hsc, hord, hpol, hstr, hdisp, scpOf_field, orderOf_field, policyOf_field]
  simp only [rawRem, rawHdr, hr]

theorem brOf_rawBr {k : BrW → Instr} {n : Nat} {w : BrW} (hr : ReadBack w.hdr [w.dst, w.a]) :
    brOf k (rawBr n w) w.hdr.lit = some (k w) := by
  have hh : hdrOf (rawBr n w) w.hdr.lit = some w.hdr := hdrOf_rawHdr n w.hdr w.dst w.a
  have ho : ((rawBr n w).b ++ (rawBr n w).c ++ (rawBr n w).mod).cast (by decide) = w.offset := by
    rw [BitVec.cast_eq]
    simp only [rawBr, -Nat.reduceAdd]
    repeat rw [BitVec.extractLsb'_append_extractLsb'_eq_extractLsb']
    · exact BitVec.extractLsb'_eq_self
    all_goals rfl
  simp only [ReadBack, List.forall_mem_cons] at hr
  simp only [brOf, hh, ho]
  simp only [rawBr, rawHdr, hr]

/-! ### Layouts write what they read -/

/-- What a word that is read says of the fields: those that every layout reads. -/
theorem rawHdr_of {r : Raw} {lit : Option W64} {h : Hdr} {d a : Operand} (hh : hdrOf r lit = some h)
    (hd : operandOf r.dst lit.isSome = some d) (ha : operandOf r.a lit.isSome = some a) (hl : r.hasLit = BitVec.ofBool lit.isSome) :
    rawHdr r.opc.toNat h d a = { r with b := 0, c := 0, mod := 0 } := by
  obtain ⟨hgrd, hmsk, htyp, hdsc, hdsw, hnwb⟩ := hdrOf_fields hh
  simp only [rawHdr, hgrd, hmsk, htyp, hdsc, hdsw, hnwb, hdrOf_lit hh, operandCode_of hd, operandCode_of ha, ← hl, BitVec.ofNat_toNat, BitVec.setWidth_eq]

/-- Modifiers that stand side by side are the whole of them. -/
theorem genMod_join (m : BitVec 19) :
    m.extractLsb' 14 5 ++ m.extractLsb' 10 4 ++ m.extractLsb' 9 1 ++ m.extractLsb' 6 3 ++ m.extractLsb' 3 3 ++ m.extractLsb' 2 1
      ++ m.extractLsb' 0 2 = m := by
  repeat rw [BitVec.extractLsb'_append_extractLsb'_eq_extractLsb']
  · exact BitVec.extractLsb'_eq_self
  all_goals rfl

theorem memMod_join (m : BitVec 19) : m.extractLsb' 16 3 ++ m.extractLsb' 14 2 ++ m.extractLsb' 12 2 ++ m.extractLsb' 0 12 = m := by
  repeat rw [BitVec.extractLsb'_append_extractLsb'_eq_extractLsb']
  · exact BitVec.extractLsb'_eq_self
  all_goals rfl

theorem atomMod_join (m : BitVec 19) :
    m.extractLsb' 16 3 ++ m.extractLsb' 14 2 ++ m.extractLsb' 12 2 ++ m.extractLsb' 8 4 ++ m.extractLsb' 0 8 = m := by
  repeat rw [BitVec.extractLsb'_append_extractLsb'_eq_extractLsb']
  · exact BitVec.extractLsb'_eq_self
  all_goals rfl

theorem remMod_join (m : BitVec 19) :
    m.extractLsb' 16 3 ++ m.extractLsb' 14 2 ++ m.extractLsb' 12 2 ++ m.extractLsb' 6 6 ++ m.extractLsb' 0 6 = m := by
  repeat rw [BitVec.extractLsb'_append_extractLsb'_eq_extractLsb']
  · exact BitVec.extractLsb'_eq_self
  all_goals rfl

theorem genOf_writes {k : GenW → Instr} {r : Raw} {lit : Option W64} {i : Instr} (hl : r.hasLit = BitVec.ofBool lit.isSome)
    (h : genOf k r lit = some i) : ∃ w, i = k w ∧ rawGen r.opc.toNat w = r ∧ w.hdr.lit = lit := by
  simp only [genOf] at h
  split at h
  case h_1 hd d a b c t2 hh hdst ha hb hc ht =>
    cases h
    refine ⟨_, rfl, ?_, hdrOf_lit hh⟩
    simp only [rawGen, rawHdr_of hh hdst ha hl, operandCode_of hb, operandCode_of hc, field_eq (tyCode_of ht), rmCode_of, ofBool_bit, -Nat.reduceAdd]
    rw [genMod_join]
  case h_2 => cases h

theorem memOf_writes {k : MemW → Instr} {r : Raw} {lit : Option W64} {i : Instr} (hl : r.hasLit = BitVec.ofBool lit.isSome)
    (h : memOf k r lit = some i) : ∃ w, i = k w ∧ rawMem r.opc.toNat w = r ∧ w.hdr.lit = lit := by
  simp only [memOf] at h
  split at h
  case h_1 hd d a b c sc hh hdst ha hb hc hs =>
    cases h
    refine ⟨_, rfl, ?_, hdrOf_lit hh⟩
    simp only [rawMem, rawSop, rawHdr_of hh hdst ha hl, operandCode_of hb, operandCode_of hc, field_eq (scpCode_of hs), orderCode_of, policyCode_of,
      -Nat.reduceAdd]
    rw [memMod_join]
  case h_2 => cases h

theorem atomOf_writes {k : AtomW → Instr} {r : Raw} {lit : Option W64} {i : Instr} (hl : r.hasLit = BitVec.ofBool lit.isSome)
    (h : atomOf k r lit = some i) : ∃ w, i = k w ∧ rawAtom r.opc.toNat w = r ∧ w.hdr.lit = lit := by
  simp only [atomOf] at h
  split at h
  case h_1 hd d a b c sc o hh hdst ha hb hc hs ho =>
    cases h
    refine ⟨_, rfl, ?_, hdrOf_lit hh⟩
    simp only [rawAtom, rawSop, rawHdr_of hh hdst ha hl, operandCode_of hb, operandCode_of hc, field_eq (scpCode_of hs), orderCode_of, policyCode_of,
      field_eq (aopCode_of ho), -Nat.reduceAdd]
    rw [atomMod_join]
  case h_2 => cases h

theorem remOf_writes {k : RemW → Instr} {r : Raw} {lit : Option W64} {i : Instr} (hl : r.hasLit = BitVec.ofBool lit.isSome)
    (h : remOf k r lit = some i) : ∃ w, i = k w ∧ rawRem r.opc.toNat w = r ∧ w.hdr.lit = lit := by
  simp only [remOf] at h
  split at h
  case h_1 hd d a b c sc hh hdst ha hb hc hs =>
    cases h
    refine ⟨_, rfl, ?_, hdrOf_lit hh⟩
    simp only [rawRem, rawSop, rawHdr_of hh hdst ha hl, operandCode_of hb, operandCode_of hc, field_eq (scpCode_of hs), orderCode_of, policyCode_of,
      -Nat.reduceAdd]
    rw [remMod_join]
  case h_2 => cases h

theorem brOf_writes {k : BrW → Instr} {r : Raw} {lit : Option W64} {i : Instr} (hl : r.hasLit = BitVec.ofBool lit.isSome)
    (h : brOf k r lit = some i) : ∃ w, i = k w ∧ rawBr r.opc.toNat w = r ∧ w.hdr.lit = lit := by
  simp only [brOf] at h
  split at h
  case h_1 hd d a hh hdst ha =>
    cases h
    refine ⟨_, rfl, ?_, hdrOf_lit hh⟩
    simp only [rawBr, rawHdr_of hh hdst ha hl, BitVec.cast_eq]
    simp [BitVec.extractLsb'_append_eq_of_le, BitVec.extractLsb'_append_eq_of_add_le, -Nat.reduceAdd]
  case h_2 => cases h

end Sys2Proof.Machine
end

section
/-! PROOFS. Decoding and encoding (R124, R126, R131 to R133, R136, R138). -/

namespace Sys2Proof.Machine

/-! ### The operands that an entry permits -/

/-- A test of operands refuses those that no field can name. -/
def refuses (p : Operand → Bool) : Bool := !p (.x 0) && (List.range 32).all (fun j => !p (.k (BitVec.ofNat 7 (96 + j))))

theorem nameable_of_refuses {p : Operand → Bool} {o : Operand} (hp : refuses p = true) (h : p o = true) : nameable o = true := by
  simp only [refuses, Bool.and_eq_true, Bool.not_eq_true', List.all_eq_true, List.mem_range] at hp
  obtain ⟨hx, hk⟩ := hp
  cases o with
  | x d =>
    have hd : d ≠ 0 := fun hd => by rw [hd, hx] at h; cases h
    simpa [nameable] using hd
  | k n =>
    refine decide_eq_true (Nat.lt_of_not_le fun hn => ?_)
    have hj := hk (n.toNat - 96) (by omega)
    rw [field_eq (show 96 + (n.toNat - 96) = n.toNat by omega), h] at hj
    cases hj
  | _ => rfl

/-- The operands of a word that keeps the rules of the literal, each of which a field can name, are read from their codes (R126, R131). -/
theorem readBack_of_litOk {h : Hdr} {ops : List Operand} (hl : litOk h ops = true) (hn : ∀ o ∈ ops, nameable o = true) : ReadBack h ops := by
  intro o ho
  cases hlit : h.lit with
  | none =>
    have hno : ∀ p ∈ ops, ¬ isLit p = true := by simpa [litOk, hlit, litCount, List.countP_eq_zero] using hl
    exact operandOf_operandCode (hn o ho) (fun e => absurd (by rw [e]; rfl) (hno o ho)) (fun _ => rfl)
  | some x =>
    have himm : ∀ p ∈ ops, p ≠ .imm 0x80 := by
      simp only [litOk, hlit, Bool.and_eq_true, List.all_eq_true, bne_iff_ne] at hl
      exact hl.2
    exact operandOf_operandCode (hn o ho) (fun _ => rfl) (fun e => absurd e (himm o ho))

/-- The tests of the four operands of a layout refuse those that no field can name. -/
def refuses4 (d a b c : Operand → Bool) : Bool := refuses d && refuses a && refuses b && refuses c

theorem readBack_of_tests {h : Hdr} {d a b c : Operand} {pd pa pb pc : Operand → Bool} (hp : refuses4 pd pa pb pc = true)
    (ho : pd d = true ∧ pa a = true ∧ pb b = true ∧ pc c = true ∧ litOk h [d, a, b, c] = true) : ReadBack h [d, a, b, c] := by
  obtain ⟨hd, ha, hb, hc, hl⟩ := ho
  simp only [refuses4, Bool.and_eq_true] at hp
  obtain ⟨⟨⟨qd, qa⟩, qb⟩, qc⟩ := hp
  refine readBack_of_litOk hl ?_
  simp only [List.forall_mem_cons]
  exact ⟨nameable_of_refuses qd hd, nameable_of_refuses qa ha, nameable_of_refuses qb hb, nameable_of_refuses qc hc, nofun⟩

/-- A legal word of the general layout has operands that can be read back, where its entry tests them so. -/
theorem okGen_readBack {e : GenSpec} {w : GenW} (he : refuses4 e.dst e.a e.b e.c = true) (h : okGen e w = true) :
    ReadBack w.hdr [w.dst, w.a, w.b, w.c] := by
  simp only [okGen, Bool.and_eq_true] at h
  exact readBack_of_tests he (by simp only [h, and_self])

theorem okMem_readBack {e : MemSpec} {w : MemW} (he : refuses4 e.dst isBase e.b e.c = true) (h : okMem e w = true) :
    ReadBack w.hdr [w.dst, w.a, w.b, w.c] := by
  simp only [okMem, Bool.and_eq_true] at h
  exact readBack_of_tests he (by simp only [h, and_self])

theorem okFence_readBack {w : MemW} (h : okFence w = true) : ReadBack w.hdr [w.dst, w.a, w.b, w.c] := by
  simp only [okFence, Bool.and_eq_true, Option.isNone_iff_eq_none, unused, beq_iff_eq] at h
  obtain ⟨⟨⟨⟨⟨⟨⟨⟨⟨⟨-, hd⟩, ha⟩, hb⟩, hc⟩, -⟩, -⟩, -⟩, -⟩, -⟩, hl⟩ := h
  have hlit : litOk w.hdr [w.dst, w.a, w.b, w.c] = true := by
    cases hs : w.dst <;> simp_all [litOk, litCount, isLit, isS]
  exact readBack_of_tests (pd := isS) (pa := unused) (pb := unused) (pc := unused) rfl
    ⟨hd, beq_iff_eq.mpr ha, beq_iff_eq.mpr hb, beq_iff_eq.mpr hc, hlit⟩

theorem okAtom_readBack {dst : Operand → Bool} {vec : AtomW → Bool} {w : AtomW} (he : refuses4 dst isBase isIdx isIdx = true)
    (h : okAtom dst vec w = true) : ReadBack w.hdr [w.dst, w.a, w.b, w.c] := by
  simp only [okAtom, Bool.and_eq_true] at h
  exact readBack_of_tests he (by simp only [h, and_self])

/-- The test of DST of a peer instruction: a destination, or the data (R234). -/
def peerDst (ret : Bool) (o : Operand) : Bool := if ret then isVS o else isPeerData o

theorem peerDst_refuses (ret : Bool) : refuses4 (peerDst ret) isPeer isSSp isIdx = true := by cases ret <;> decide

theorem okRem_readBack {ret stream : Bool} {orders : List Order} {w : RemW} (h : okRem ret orders stream w = true) :
    ReadBack w.hdr [w.dst, w.a, w.b, w.c] := by
  simp only [okRem, Bool.and_eq_true] at h
  exact readBack_of_tests (peerDst_refuses ret) (by simp only [peerDst, h, and_self])

theorem okPatom_readBack {ret : Bool} {w : AtomW} (h : okPatom ret w = true) : ReadBack w.hdr [w.dst, w.a, w.b, w.c] := by
  simp only [okPatom, Bool.and_eq_true] at h
  exact readBack_of_tests (peerDst_refuses ret) (by simp only [peerDst, h, and_self])

theorem okBr_readBack {dst a : Operand → Bool} {msk nwb : Bool} {w : BrW} (hpd : refuses dst = true) (hpa : refuses a = true)
    (h : okBr dst a msk nwb w = true) : ReadBack w.hdr [w.dst, w.a] := by
  simp only [okBr, Bool.and_eq_true] at h
  obtain ⟨⟨⟨⟨-, hd⟩, ha⟩, -⟩, hl⟩ := h
  refine readBack_of_litOk hl ?_
  simp only [List.forall_mem_cons]
  exact ⟨nameable_of_refuses hpd hd, nameable_of_refuses hpa ha, nofun⟩

/-! ### Decoding what is encoded -/

/-- The fields that encode an instruction say whether it has a literal, and are read, with that, as the instruction. -/
def Decodes (i : Instr) : Prop :=
  ∀ r, rawOf i = some r → r.hasLit = BitVec.ofBool (literalOf i).isSome ∧ ofRaw r (literalOf i) = some i

theorem decodes_raw {i : Instr} {x : Raw} {lit : Option W64} (h1 : rawOf i = some x) (h2 : literalOf i = lit)
    (h3 : x.hasLit = BitVec.ofBool lit.isSome) (h4 : ofRaw x lit = some i) : Decodes i := by
  intro r hr
  rw [h1] at hr
  cases hr
  rw [h2]
  exact ⟨h3, h4⟩

/-- An event has no word. -/
theorem decodes_event {i : Instr} (h : rawOf i = none) : Decodes i := by
  intro r hr
  rw [h] at hr
  cases hr

/-- A constructor of the general layout whose opcode the map gives to it. -/
theorem decodes_gen {k : GenW → Instr} {n : Nat} {e : GenSpec} {w : GenW} (h1 : rawOf (k w) = some (rawGen n w))
    (h2 : literalOf (k w) = w.hdr.lit) (h3 : ofRaw (rawGen n w) w.hdr.lit = genOf k (rawGen n w) w.hdr.lit) (h4 : legal (k w) = okGen e w)
    (he : refuses4 e.dst e.a e.b e.c = true) (h : legal (k w) = true) : Decodes (k w) :=
  decodes_raw h1 h2 rfl (h3.trans (genOf_rawGen (okGen_readBack he (h4.symm.trans h))))

/-- The same of the memory layout. -/
theorem decodes_mem {k : MemW → Instr} {n : Nat} {e : MemSpec} {w : MemW} (h1 : rawOf (k w) = some (rawMem n w))
    (h2 : literalOf (k w) = w.hdr.lit) (h3 : ofRaw (rawMem n w) w.hdr.lit = memOf k (rawMem n w) w.hdr.lit) (h4 : legal (k w) = okMem e w)
    (he : refuses4 e.dst isBase e.b e.c = true) (h : legal (k w) = true) : Decodes (k w) :=
  decodes_raw h1 h2 rfl (h3.trans (memOf_rawMem (okMem_readBack he (h4.symm.trans h))))

/-- The same of the atomic layout, whose operands can be read back. -/
theorem decodes_atom {k : AtomW → Instr} {n : Nat} {w : AtomW} (h1 : rawOf (k w) = some (rawAtom n w)) (h2 : literalOf (k w) = w.hdr.lit)
    (h3 : ofRaw (rawAtom n w) w.hdr.lit = atomOf k (rawAtom n w) w.hdr.lit) (h : ReadBack w.hdr [w.dst, w.a, w.b, w.c]) : Decodes (k w) :=
  decodes_raw h1 h2 rfl (h3.trans (atomOf_rawAtom h))

/-- The same of the remote layout. -/
theorem decodes_rem {k : RemW → Instr} {n : Nat} {w : RemW} (h1 : rawOf (k w) = some (rawRem n w)) (h2 : literalOf (k w) = w.hdr.lit)
    (h3 : ofRaw (rawRem n w) w.hdr.lit = remOf k (rawRem n w) w.hdr.lit) (h : ReadBack w.hdr [w.dst, w.a, w.b, w.c]) : Decodes (k w) :=
  decodes_raw h1 h2 rfl (h3.trans (remOf_rawRem h))

/-- The same of the branch layout. -/
theorem decodes_br {k : BrW → Instr} {n : Nat} {w : BrW} (h1 : rawOf (k w) = some (rawBr n w)) (h2 : literalOf (k w) = w.hdr.lit)
    (h3 : ofRaw (rawBr n w) w.hdr.lit = brOf k (rawBr n w) w.hdr.lit) (h : ReadBack w.hdr [w.dst, w.a]) : Decodes (k w) :=
  decodes_raw h1 h2 rfl (h3.trans (brOf_rawBr h))

/-- The fields of a legal instruction are read as that instruction: the cases are the events and the layouts. -/
theorem legal_decodes {i : Instr} (h : legal i = true) : Decodes i := by
  cases i with
  | yieldExpiry | mmaRetire | trywPeriodicRead | trywLimitExpiry | taskAccept | giveRelease | waveKill | waveRetire | waveStateMachineCheck
  | scopeQuiesceAck | slipResolve | trapDelivery | faultRecordWrite | nopreOverrun | preemption | teamRestore | binderyBatchStart
  | binderyDrainDone | binderyBatchDone | bdyDoorbell | pstsResync | engineOpStart | engineChunk | engineOpComplete | engineOpAbort | lqDoorbell
  | launchPacketRead | launchPending | teamPlacement | gridEnd | contextEndInterrupt | ctxEnd | governorWindow | coreHotMark | coreDroop
  | priPageRequest | priResponse | atsInvalidateRequest | fabCtlEn | fabricJoin | fabricPeerUpdate | planeDown | flitLinkRetry
  | fabricWritePacket | fabricReadPacket | fabricAtomicPacket | fabricAck | fabricNak | fabricResponse | fabricRtoExpiry | fabricTmoExpiry
  | netPacketArrival | netContextFetchDone | netAck | netNak | netParkResend | netRetransmitTimeout | arrayUncorrectableError
  | arrayCorrectedError | selfTestComplete | rangeLockEntryError | infieldTestDue | infieldTestEnd | watchdogFire | xbarCommitPrepare | xbarSwap
  | mpWatchdogReset | latencyWindowEnd | securityAlarm | firmwareImageVerify | pwrMode | errStatusClear | powerOn | registerWrite
  | hostBarAccess | fabricPlaneUp | fabricPacketSend | mmaLeavesArray | atsTranslationResponse | priCapabilityWrite | pwrModeChangeComplete
  | mainPowerLoss => exact decodes_event rfl
  | bra | bkz | bknz | bhz | call | loop => exact decodes_br rfl rfl rfl (okBr_readBack rfl rfl h)
  | mldf | mstf | ld | st | ldb | stb | cas | prf | ldh | sth => exact decodes_mem rfl rfl rfl rfl rfl h
  | fence => exact decodes_raw rfl rfl rfl (memOf_rawMem (okFence_readBack h))
  | atom => exact decodes_atom rfl rfl rfl (okAtom_readBack (dst := unused) (vec := fun w => anyVec [w.b, w.c]) rfl h)
  | atomr => exact decodes_atom rfl rfl rfl (okAtom_readBack (dst := isVS) (vec := fun w => isV w.dst) rfl h)
  | patom | patomr => exact decodes_atom rfl rfl rfl (okPatom_readBack h)
  | pld | pst | psts => exact decodes_rem rfl rfl rfl (okRem_readBack h)
  | _ => exact decodes_gen rfl rfl rfl rfl rfl h

/-- The fields of a word and its literal, of an instruction that is encoded. -/
theorem encode_some {i : Instr} {w : W96} {l : Option W96} (h : encode i = some (w, l)) :
    ∃ r, rawOf i = some r ∧ w = pack r ∧ l = (literalOf i).map (fun v => v.setWidth 96) := by
  simp only [encode] at h
  split at h
  · cases h
    exact ⟨_, ‹_›, rfl, rfl⟩
  · cases h

/-! ### Encoding what is decoded -/

/-- An instruction is written as the fields and the literal that it is read from. -/
def Spells (r : Raw) (lit : Option W64) (i : Instr) : Prop := rawOf i = some r ∧ literalOf i = lit

section
variable {r : Raw} {lit : Option W64} {i : Instr} {n : Nat}

theorem genOf_spells {k : GenW → Instr} (h1 : ∀ w, rawOf (k w) = some (rawGen n w)) (h2 : ∀ w, literalOf (k w) = w.hdr.lit)
    (hl : r.hasLit = BitVec.ofBool lit.isSome) (hn : r.opc.toNat = n) (h : genOf k r lit = some i) : Spells r lit i := by
  obtain ⟨w, rfl, hr, hlit⟩ := genOf_writes hl h
  exact ⟨(h1 w).trans (by rw [← hn, hr]), (h2 w).trans hlit⟩

theorem memOf_spells {k : MemW → Instr} (h1 : ∀ w, rawOf (k w) = some (rawMem n w)) (h2 : ∀ w, literalOf (k w) = w.hdr.lit)
    (hl : r.hasLit = BitVec.ofBool lit.isSome) (hn : r.opc.toNat = n) (h : memOf k r lit = some i) : Spells r lit i := by
  obtain ⟨w, rfl, hr, hlit⟩ := memOf_writes hl h
  exact ⟨(h1 w).trans (by rw [← hn, hr]), (h2 w).trans hlit⟩

theorem atomOf_spells {k : AtomW → Instr} (h1 : ∀ w, rawOf (k w) = some (rawAtom n w)) (h2 : ∀ w, literalOf (k w) = w.hdr.lit)
    (hl : r.hasLit = BitVec.ofBool lit.isSome) (hn : r.opc.toNat = n) (h : atomOf k r lit = some i) : Spells r lit i := by
  obtain ⟨w, rfl, hr, hlit⟩ := atomOf_writes hl h
  exact ⟨(h1 w).trans (by rw [← hn, hr]), (h2 w).trans hlit⟩

theorem remOf_spells {k : RemW → Instr} (h1 : ∀ w, rawOf (k w) = some (rawRem n w)) (h2 : ∀ w, literalOf (k w) = w.hdr.lit)
    (hl : r.hasLit = BitVec.ofBool lit.isSome) (hn : r.opc.toNat = n) (h : remOf k r lit = some i) : Spells r lit i := by
  obtain ⟨w, rfl, hr, hlit⟩ := remOf_writes hl h
  exact ⟨(h1 w).trans (by rw [← hn, hr]), (h2 w).trans hlit⟩

theorem brOf_spells {k : BrW → Instr} (h1 : ∀ w, rawOf (k w) = some (rawBr n w)) (h2 : ∀ w, literalOf (k w) = w.hdr.lit)
    (hl : r.hasLit = BitVec.ofBool lit.isSome) (hn : r.opc.toNat = n) (h : brOf k r lit = some i) : Spells r lit i := by
  obtain ⟨w, rfl, hr, hlit⟩ := brOf_writes hl h
  exact ⟨(h1 w).trans (by rw [← hn, hr]), (h2 w).trans hlit⟩

/-- Whatever the opcode map reads is written as what it was read from: one case for each opcode of the map, by layout. -/
theorem ofRaw_spells (hl : r.hasLit = BitVec.ofBool lit.isSome) (h : ofRaw r lit = some i) : Spells r lit i := by
  unfold ofRaw at h
  split at h
  any_goals exact genOf_spells (fun _ => rfl) (fun _ => rfl) hl ‹_› h
  any_goals exact memOf_spells (fun _ => rfl) (fun _ => rfl) hl ‹_› h
  any_goals exact atomOf_spells (fun _ => rfl) (fun _ => rfl) hl ‹_› h
  any_goals exact remOf_spells (fun _ => rfl) (fun _ => rfl) hl ‹_› h
  any_goals exact brOf_spells (fun _ => rfl) (fun _ => rfl) hl ‹_› h
  cases h

end

/-! ### Words -/

/-- The literal of an instruction stands in its slot, of which only the low 64 bits count (R131). -/
theorem literal_slot (v : W64) : (v.setWidth 96).extractLsb' 0 64 = v := by
  apply BitVec.eq_of_getLsbD_eq
  intro i hi
  simp only [BitVec.getLsbD_extractLsb', BitVec.getLsbD_setWidth, Nat.zero_add, hi, show i < 96 by omega, decide_true,
    Bool.true_and]

/-- L is bit 59 of a word (R124). -/
theorem unpack_hasLit (w : W96) : (unpack w).hasLit = BitVec.ofBool (w.getLsbD 59) := (ofBool_bit w 59).symm

theorem ofBool_inj {a b : Bool} (h : BitVec.ofBool a = BitVec.ofBool b) : a = b := by revert h; cases a <;> cases b <;> decide

/-- A field of one bit that is not 1 is 0. -/
theorem bit_clear {x : BitVec 1} (h : x ≠ 1) : x = BitVec.ofBool false := by revert x; decide

/-- A word whose fields are read, with its literal, as a well-formed instruction decodes to it. -/
theorem decode_of_raw {w : W96} {next : Option W96} {lit : Option W64} {i : Instr} (hl : (unpack w).hasLit = BitVec.ofBool lit.isSome)
    (hn : next.map (fun n => n.extractLsb' 0 64) = lit) (h : ofRaw (unpack w) lit = some i) (hw : i.wellFormed = true) : decode w next = some i := by
  subst hn
  cases next with
  | none => simp_all [decode]
  | some n => simp_all [decode]

/-- A word that decodes is read with the literal of the slot after it where L is set, and with none where it is clear. -/
theorem raw_of_decode {w : W96} {next : Option W96} {i : Instr} (h : decode w next = some i) :
    i.wellFormed = true ∧ ∃ lit, (unpack w).hasLit = BitVec.ofBool lit.isSome ∧ ofRaw (unpack w) lit = some i
      ∧ (∀ v, lit = some v → ∃ n, next = some n ∧ v = n.extractLsb' 0 64) := by
  simp only [decode] at h
  split at h
  case h_2 => cases h
  case h_1 j hj =>
    split at h
    case isFalse => cases h
    case isTrue hw =>
      cases h
      refine ⟨hw, ?_⟩
      split at hj
      case isTrue hl =>
        split at hj
        case h_2 => cases hj
        case h_1 n => exact ⟨_, by rw [beq_iff_eq.mp hl]; rfl, hj, fun v hv => ⟨n, rfl, (Option.some.inj hv).symm⟩⟩
      case isFalse hl => exact ⟨none, bit_clear (by simpa using hl), hj, nofun⟩

/-- Settles O1: the fields that are written are those that are read, in each layout. -/
theorem decodeOfEncode : Obligations.DecodeOfEncode := by
  unfold Obligations.DecodeOfEncode
  intro i w l hw he
  obtain ⟨r, hr, rfl, rfl⟩ := encode_some he
  obtain ⟨hl, hi⟩ := legal_decodes hw r hr
  refine decode_of_raw (lit := literalOf i) ?_ ?_ ?_ hw
  · rw [unpack_pack, hl]
  · cases literalOf i <;> simp [literal_slot]
  · rw [unpack_pack, hi]

/-- Settles O2: the fields that are read are those that are written, and the literal is the slot's where L is set. -/
theorem encodeOfDecode : Obligations.EncodeOfDecode := by
  unfold Obligations.EncodeOfDecode
  intro i w l h
  obtain ⟨hw, lit, hl, hi, hslot⟩ := raw_of_decode h
  obtain ⟨hr, hlit⟩ := ofRaw_spells hl hi
  have hbit : w.getLsbD 59 = lit.isSome := ofBool_inj ((unpack_hasLit w).symm.trans hl)
  refine ⟨hw, lit.map (fun v => v.setWidth 96), ?_, fun h0 => ?_, fun h1 => ?_⟩
  · simp only [encode, hr, hlit, pack_unpack]
  · have hnone : lit = none := by simpa using hbit.symm.trans h0
    rw [hnone]
    rfl
  · obtain ⟨v, rfl⟩ := Option.isSome_iff_exists.mp (hbit ▸ h1)
    obtain ⟨n, hn, rfl⟩ := hslot v rfl
    exact ⟨n, hn, rfl⟩

/-- Settles O3: the decoder evaluated on each word. -/
theorem decodedWords : Obligations.DecodedWords := by
  unfold Obligations.DecodedWords
  decide

end Sys2Proof.Machine
end

section
/-! PROOFS. BRA, BKZ, BKNZ, BHZ, CALL, RET and JMPI (R134, R146 to R150): each is a branch to its target, taken or not. -/

namespace Sys2Proof.Machine

/-! ### A branch taken -/

/-- The line at a program counter is that of any wave of the same context and core. -/
theorem lineAt_congr {s : State} {x v : Wave} (hx : x.ctx = v.ctx) (hc : x.core = v.core) (pc : W64) : lineAt s x pc = lineAt s v pc := by
  simp only [lineAt, peekLine, hx, hc]

/-- A wave just put back owes the check of TGT where the target's line cannot be fetched yet (R134, log 106). -/
theorem owesTgt_putWave {s : State} {x v : Wave} {pc : W64} (hid : x.id = v.id) (hl : lineAt s x pc = lineAt s v pc) :
    owesTgt (putWave s x) v pc = putWave s { x with ctl := { x.ctl with needTgt := x.ctl.needTgt || (lineAt s x pc).isNone } } := by
  simp only [owesTgt, putWave_lineAt, ← hl, ← hid]
  cases (lineAt s x pc).isNone with
  | true =>
    rw [if_pos rfl, modWave_putWave]
    · simp only [Bool.or_true]
    · rfl
  | false => simp only [Bool.or_false, Bool.false_eq_true, if_false]

/-- A branch to a legal target, in the state that an effect starts from. -/
theorem branchTo_legal {s : State} {v : Wave} {pc : W64} {b : Bool} (ht : targetOk s v pc true = true) :
    branchTo (putWave s v) v pc b
      = .jump (putWave s { v with ctl := { v.ctl with needTgt := v.ctl.needTgt || (lineAt s v pc).isNone } }) pc b := by
  simp only [branchTo, putWave_targetOk, ht, if_true, owesTgt_putWave rfl rfl]

/-- A branch to an illegal target raises 0x03 with the target as its fault address. -/
theorem branchTo_illegal {s : State} {v : Wave} {pc : W64} {b : Bool} (ht : targetOk s v pc true = false) :
    branchTo (putWave s v) v pc b = .trap (putWave s v) (preciseAt 0x03 pc) := by
  simp only [branchTo, putWave_targetOk, ht, Bool.false_eq_true, if_false]

/-- The instruction is a branch taken to `pc`: it jumps to a legal target, and raises 0x03 at an illegal one. -/
def TakesBranch (s : State) (w v : Wave) (i : Instr) (pc : W64) : Prop :=
  (targetOk s v pc true = true → Jumps s i v pc true)
    ∧ (targetOk s v pc true = false → Traps s i (putWave s v) (unpopped v w) (preciseAt 0x03 pc))

/-- An instruction whose effect is a branch that pops loops takes that branch. -/
theorem Issues.branches {s : State} {w v : Wave} {i : Instr} {f : Body} {pc : W64} (h : Issues s w v i)
    (he : Sys2Proof.Machine.exec i s = issueR i s f) (hf : f (putWave s v) v = (branchTo (putWave s v) v pc true, none)) :
    TakesBranch s w v i pc :=
  ⟨fun ht => h.jumps none he (hf.trans (congrArg (·, none) (branchTo_legal ht))) h.v_id,
   fun ht => h.traps none he (hf.trans (congrArg (·, none) (branchTo_illegal ht)))⟩

/-! ### CALL -/

/-- The loop ends taken leave a wave its context and its core. -/
theorem loopEnds_place (n : Nat) (a : Wave) (pc : W64) : (loopEnds n a pc).1.ctx = a.ctx ∧ (loopEnds n a pc).1.core = a.core := by
  induction n generalizing a pc with
  | zero => exact ⟨rfl, rfl⟩
  | succ n ih =>
    simp only [loopEnds]
    split
    · split
      · split
        · exact ih _ _
        · exact ⟨rfl, rfl⟩
      · exact ⟨rfl, rfl⟩
    · exact ⟨rfl, rfl⟩

/-- A wave with its link written, in the place of the wave that calls. -/
theorem wroteS_place (b : Bool) (v : Wave) (d : Nat) (x : W64) :
    (wroteS b v d x).id = v.id ∧ (wroteS b v d x).ctx = v.ctx ∧ (wroteS b v d x).core = v.core := by
  cases b <;> exact ⟨rfl, rfl, rfl⟩

/-- CALL of a legal target: its wave has taken the loop end and holds the link, and jumps (R149). -/
theorem Issues.calls {s : State} {w v : Wave} {b : BrW} (h : Issues s w v (.call b)) (ht : targetOk s v (brTarget v b) true = true) :
    let e := loopEnds 5 v (nextPc v.ctl.pc false)
    Jumps s (.call b) (wroteS b.hdr.nwb e.1 (sNum b.dst) e.2.1) (brTarget v b) false := by
  intro e
  obtain ⟨hid, hctx, hcore⟩ := wroteS_place b.hdr.nwb e.1 (sNum b.dst) e.2.1
  obtain ⟨ectx, ecore⟩ := loopEnds_place 5 v (nextPc v.ctl.pc false)
  have hv : (wroteS b.hdr.nwb e.1 (sNum b.dst) e.2.1).id = v.id := hid.trans (loopEnds_id ..)
  refine h.jumps none rfl (congrArg (·, none) ?_) (hv.trans h.v_id)
  simp only [branchTo_legal ht]
  rw [← owesTgt_putWave hv (lineAt_congr (hctx.trans ectx) (hcore.trans ecore) _), ← putWave_putWave s v _ hv.symm]
  rfl

/-- CALL of an illegal target. -/
theorem Issues.callTraps {s : State} {w v : Wave} {b : BrW} (h : Issues s w v (.call b)) (ht : targetOk s v (brTarget v b) true = false) :
    Traps s (.call b) (putWave s v) (unpopped v w) (preciseAt 0x03 (brTarget v b)) := by
  refine h.traps none rfl (congrArg (·, none) ?_)
  simp only [branchTo_illegal ht]

/-! ### The branches of a condition -/

/-- The branch that BKZ is where the mask that it tests is zero. -/
theorem Issues.bkz {s : State} {w v : Wave} {b : BrW} (h : Issues s w v (.bkz b)) :
    (testMask v b = 0 → TakesBranch s w v (.bkz b) (brTarget v b)) ∧ (testMask v b ≠ 0 → Does s (.bkz b) v) :=
  ⟨fun h0 => h.branches rfl (congrArg (·, none) (if_pos h0)), fun h0 => h.doesNothing none rfl (congrArg (·, none) (if_neg h0))⟩

/-- The branch that BKNZ is where that mask is not zero. -/
theorem Issues.bknz {s : State} {w v : Wave} {b : BrW} (h : Issues s w v (.bknz b)) :
    (testMask v b ≠ 0 → TakesBranch s w v (.bknz b) (brTarget v b)) ∧ (testMask v b = 0 → Does s (.bknz b) v) :=
  ⟨fun h0 => h.branches rfl (congrArg (·, none) (if_neg h0)), fun h0 => h.doesNothing none rfl (congrArg (·, none) (if_pos h0))⟩

theorem putWave_tagPassed (s : State) (x w : Wave) (lit : Option W64) (o : Operand) : tagPassed (putWave s x) w lit o = tagPassed s w lit o := by
  simp only [tagPassed, putWave_scalarOp]

/-- The branch that BHZ is where its tag has been passed. -/
theorem Issues.bhz {s : State} {w v : Wave} {b : BrW} (h : Issues s w v (.bhz b)) :
    (tagPassed s v b.hdr.lit b.a = true → TakesBranch s w v (.bhz b) (brTarget v b)) ∧ (tagPassed s v b.hdr.lit b.a = false → Does s (.bhz b) v) := by
  rw [← putWave_tagPassed s v]
  exact ⟨fun h0 => h.branches rfl (congrArg (·, none) (if_pos h0)), fun h0 => h.doesNothing none rfl (congrArg (·, none) (if_neg (by simp [h0])))⟩

/-- The branch of JMPI to the address in its operand. -/
theorem Issues.jmpi {s : State} {w v : Wave} {g : GenW} (h : Issues s w v (.jmpi g)) :
    TakesBranch s w v (.jmpi g) (scalarOp s v g.hdr.lit g.a) := by
  rw [← putWave_scalarOp s v]
  exact h.branches rfl rfl

/-- The same of RET. -/
theorem Issues.ret {s : State} {w v : Wave} {g : GenW} (h : Issues s w v (.ret g)) :
    TakesBranch s w v (.ret g) (scalarOp s v g.hdr.lit g.a) := by
  rw [← putWave_scalarOp s v]
  exact h.branches rfl rfl

/-- Settles O20: each clause is one side of a branch, by whether it is taken and whether its target is legal. -/
theorem branchesComplete : Obligations.BranchesComplete := by
  unfold Obligations.BranchesComplete
  refine ⟨?_, ?_, ?_, ?_, ?_, ?_, ?_, ?_, ?_, ?_, ?_, ?_⟩
  · exact fun s w v b h => (h.branches rfl rfl).1
  · exact fun s w v b h => ⟨fun h0 => (h.bkz.1 h0).1, h.bkz.2⟩
  · exact fun s w v b h => ⟨fun h0 => (h.bknz.1 h0).1, h.bknz.2⟩
  · exact fun s w v b h => ⟨fun h0 => (h.bhz.1 h0).1, h.bhz.2⟩
  · exact fun s w v b h => h.calls
  · exact fun s w v g h => h.ret.1
  · exact fun s w v g h => h.jmpi.1
  · exact fun s w v b h => (h.branches rfl rfl).2
  · exact fun s w v b ht => ⟨fun h h0 => (h.bkz.1 h0).2 ht, fun h h0 => (h.bknz.1 h0).2 ht, fun h h0 => (h.bhz.1 h0).2 ht⟩
  · exact fun s w v b h => h.callTraps
  · exact fun s w v g h => h.jmpi.2
  · exact fun s w v g h => h.ret.2

end Sys2Proof.Machine
end

section
/-! PROOFS. The fetch of a line through a managed page (R88, R118). -/

namespace Sys2Proof.Machine

/-- A fetch through a managed page that is not pinned is refused, as every raw access to it is (R88). -/
theorem fetchXlate_managed {s : State} {c : Ctx} {pc : W64} {e : TlbEntry} (hp : aperOf pc = .global)
    (ht : translate s c.asid c.ptroot pc.toNat false = .leaf e) (ha : leafAper e.leaf.toNat = 0) (hx : leafX e.leaf.toNat = true)
    (hm : leafManaged e.leaf.toNat = true) (hn : leafPinned e.leaf.toNat = false) : fetchXlate s c pc = .error (.trap 0x0B pc) := by
  simp only [fetchXlate, hp, ht, ha, hx, hm, hn, Bool.not_false, Bool.and_self, if_true, decide_true, Bool.not_true, Bool.false_eq_true, if_false]

/-- A page of 4 KiB at 0x1000 that is executable and managed, and not pinned. -/
def managedPage : TlbEntry := { asid := 0, base := 0x1000, size := 12, leaf := 0x8B, at_ := 0 }

/-- The device after reset with the translation of that page cached. -/
def managedState : State := { State.reset with tlb := [managedPage] }

/-- A wave of one lane and two vector registers, of no context that the device has. -/
def smallWave : Wave :=
  let w := newWave 1 0 0 0 0 0 0 2 0 0 0 false { noKernel with width := 1, lanes := 1 } 0 0
  { w with regs := { w.regs with v := [[0], [0]] } }

/-- The line of zeros that memory holds there passes its check, so that nothing but the page refuses the fetch. -/
theorem managed_line :
    aperOf 0x1000 = .global ∧ translate managedState (getCtx managedState smallWave.ctx).asid (getCtx managedState smallWave.ctx).ptroot 0x1000 false
      = .leaf managedPage ∧ leafAper managedPage.leaf.toNat = 0 ∧ leafX managedPage.leaf.toNat = true ∧ leafManaged managedPage.leaf.toNat = true
    ∧ leafPinned managedPage.leaf.toNat = false ∧ managedState.icache = []
    ∧ lineOk (memGets managedState.hbm (frameAddr managedPage (lineAddr 0x1000).toNat) 64) = true := by decide +kernel

/-- Refutes O7: a line in a managed page that is not pinned is not fetched, though its translation is a leaf of local HBM with X and the line passes
its check; the clause on the line does not suppose the page unmanaged or pinned. -/
theorem not_stepRunsDecoded : ¬ Obligations.StepRunsDecoded := by
  unfold Obligations.StepRunsDecoded
  rintro ⟨-, hline, -, -⟩
  obtain ⟨hp, ht, ha, hx, hm, hn, hc, hl⟩ := managed_line
  have hno : ∀ x, icacheFind managedState smallWave.core managedPage.asid (lineAddr 0x1000) = some x → parityOk x.bytes = false := by
    intro x h
    rw [icacheFind, hc] at h
    cases h
  have hok := (hline managedState smallWave 0x1000 managedPage hp ht ha hx).2 hno hl
  rw [peekLine, fetchXlate_managed hp ht ha hx hm hn] at hok
  cases hok

end Sys2Proof.Machine
end

section
/-! PROOFS. The latch of an instruction with a vector result (R129). -/

namespace Sys2Proof.Machine

/-! ### The latch that an instruction leaves -/

theorem recipeStep_latches (w : Wave) : (recipeStep w).ctl.latches = [] ∨ (recipeStep w).ctl.latches = w.ctl.latches := by
  simp only [recipeStep]
  split
  · exact .inr rfl
  · split
    · split
      · exact .inl rfl
      · exact .inr rfl
    · exact .inr rfl

theorem loopEnds_latches (n : Nat) (a : Wave) (pc : W64) : (loopEnds n a pc).1.ctl.latches = a.ctl.latches := by
  induction n generalizing a pc with
  | zero => rfl
  | succ n ih =>
    simp only [loopEnds]
    split
    · split
      · split
        · rw [ih]
        · rfl
      · rfl
    · rfl

/-- A wave that is passed on has the latch of its instruction first, or, when it has left its line, none. -/
theorem stepPast_latches (x : Wave) (i : Instr) (l : Latch) :
    (stepPast x i l).ctl.latches = [] ∨ (stepPast x i l).ctl.latches = (l :: x.ctl.latches).take 3 := by
  have hl := loopEnds_latches 5 (pushLatch x l) (nextPc x.ctl.pc (hasLit i))
  simp only [stepPast, apply_ite Wave.ctl, apply_ite Ctl.latches, setSt, ite_self]
  rcases recipeStep_latches _ with h | h
  · exact .inl h
  · rw [h, hl]
    split
    · exact .inl rfl
    · exact .inr rfl

theorem findWave_spendLatch (i : Instr) (s : State) (id : Nat) : findWave (spendLatch i s) id = findWave s id := by
  rw [spendLatch]
  split <;> rfl

/-- What is found under the identifier of a wave just put back is that wave. -/
theorem eq_of_findWave_putWave {s : State} {x y : Wave} (h : findWave (putWave s x) x.id = some y) : y = x := by
  obtain ⟨z, -, hz⟩ := List.mem_map.1 (List.mem_of_find?_eq_some h)
  have hy : y.id = x.id := findWave_id h
  split at hz
  · exact hz.symm
  · next hne => exact absurd (hz ▸ hy) hne

/-- The registers whose values the first latch of a wave holds. -/
def latchRows (s : State) (id : Nat) : Option Nat :=
  match findWave s id with
  | some w => match w.ctl.latches with
    | Latch.vec l :: _ => some l.length
    | _ => none
  | none => none

/-! ### VRAND of a word that is no legal one -/

/-- VRAND to v0 whose TYP is b64, which its entry does not permit (R204). -/
def wideRand : GenW := { plainGen with hdr := { plainHdr with typ := .b64 } }

/-- The device after reset with the small wave about to issue. -/
def randState : State := { State.reset with waves := [smallWave], cur := .wave 1 }

/-- It issues, with NWB and without. -/
theorem wideRand_issues (b : Bool) : Issues randState smallWave (freezeLatches smallWave) (.vrand (withNwb b wideRand)) := by
  cases b <;> refine ⟨rfl, rfl, by decide, rfl, rfl, rfl, rfl, rfl, rfl, rfl⟩

/-- Just after an instruction with the latch of `l` its wave has that latch, where it has one. -/
theorem latchRows_stepPast {s : State} {x : Wave} {i : Instr} {l : List (List W32)} {id n : Nat} (h0 : latchRows s id = none)
    (h : latchRows (spendLatch i (putWave s (stepPast x i (.vec l)))) id = some n) : n = l.length := by
  rw [latchRows, findWave_spendLatch] at h
  by_cases hid : id = (stepPast x i (.vec l)).id
  · subst hid
    split at h
    · next y hy =>
      obtain rfl := eq_of_findWave_putWave hy
      rcases stepPast_latches x i (.vec l) with hl | hl
      · rw [hl] at h
        exact absurd h nofun
      · rw [hl] at h
        exact (Option.some.inj h).symm
    · exact absurd h nofun
  · rw [findWave_putWave_other hid] at h
    exact absurd (h0.symm.trans h) nofun

/-- The registers in the first latch of wave 1 just after an instruction. -/
def rowsAfter (o : Host.Outcome State Fault Refusal) : Option Nat :=
  match o with
  | .next t => latchRows t 1
  | _ => none

/-- Without NWB the latch holds the pair that TYP makes of DST, and with NWB the one register that VRAND gives. -/
theorem wideRand_rows : rowsAfter (Sys2Proof.Machine.exec (.vrand (withNwb false wideRand)) randState) = some 2
    ∧ rowsAfter (Sys2Proof.Machine.exec (.vrand (withNwb true wideRand)) randState) = some 1 := by decide +kernel

/-- Refutes O11: of a VRAND with TYP b64, which is no legal word but which the statement does not leave out, the latch holds a pair of registers
without NWB and one register with it, so that no one list of writes accounts for both. -/
theorem not_latchTakesResult : ¬ Obligations.LatchTakesResult := by
  unfold Obligations.LatchTakesResult
  rintro ⟨-, -, -, -, hv, -⟩
  obtain ⟨x, ws, -, -, hout, hnwb⟩ := hv .vrand (by simp) randState smallWave (freezeLatches smallWave) wideRand 0 rfl (wideRand_issues false)
    (wideRand_issues true) rfl nofun
  obtain ⟨hpair, hone⟩ := wideRand_rows
  rw [hout] at hpair
  rw [hnwb] at hone
  have h2 := latchRows_stepPast rfl hpair
  have h1 := latchRows_stepPast rfl hone
  rw [List.length_map] at h1 h2
  omega

end Sys2Proof.Machine
end

section
/-! PROOFS. The scalar and mask groups, KPOLL and ELECT (R164 to R173, R255, R261): what each gives is one result, and flags that keep D and B. -/

namespace Sys2Proof.Machine

/-! ### The rules -/

/-- Flags that keep D and B of %cc. -/
def KeepsDB (cc c : W32) : Prop := ∃ z n cy o, c = withFlags cc z n cy o

theorem keepsDB_withFlags (cc : W32) (z n c o : Bool) : KeepsDB cc (withFlags cc z n c o) := ⟨z, n, c, o, rfl⟩

/-- The flags zn keep D and B (R144). -/
theorem keepsDB_zn (t : Ty) (cc : W32) (r : Nat) (v : Bool) : KeepsDB cc (zn t cc r v).2 := keepsDB_withFlags ..

/-- A scalar instruction of a result and of flags that keep D and B meets its rule. -/
theorem scalarRule_of {k : GenW → Instr} {f : GenW → W32 → Nat → Nat → Nat → Nat × W32}
    (he : ∀ (s : State) (g : GenW), Sys2Proof.Machine.exec (k g) s = issueEff (k g) s (fun x v =>
      sres g (f g v.regs.cc (src x v g g.a) (src x v g g.b) (src x v g g.c)).1 (f g v.regs.cc (src x v g g.a) (src x v g g.b) (src x v g g.c)).2))
    (hf : ∀ g cc a b c, KeepsDB cc (f g cc a b c).2) (hn : ∀ g : GenW, isNwb (k g) = g.hdr.nwb) : ScalarRule k f := by
  intro s w v g h r
  obtain ⟨z, n, cy, o, hr⟩ := hf g v.regs.cc (src s v g g.a) (src s v g g.b) (src s v g g.c)
  have hdoes := h.scalarFlags (d := sNum g.dst) (x := w64 (extTo g.hdr.typ 64 r.1)) (z := z) (n := n) (c := cy) (o := o) (he s g)
    (by simp only [putWave_src, hr]; rfl)
  rw [hn, ← hr] at hdoes
  exact hdoes

/-- A count instruction meets its rule: its count is not extended (R168). -/
theorem countRule_of {k : GenW → Instr} {f : GenW → Nat → Nat}
    (he : ∀ (s : State) (g : GenW), Sys2Proof.Machine.exec (k g) s = issueEff (k g) s (fun x v => countRes v g (f g (src x v g g.a))))
    (hn : ∀ g : GenW, isNwb (k g) = g.hdr.nwb) : CountRule k f := by
  intro s w v g h
  rw [← hn]
  exact h.scalarFlags (he s g) (by simp only [putWave_src]; rfl)

/-- A mask instruction meets its rule. -/
theorem maskRule_of {k : GenW → Instr} {f : State → Wave → GenW → Mask}
    (he : ∀ (s : State) (g : GenW), Sys2Proof.Machine.exec (k g) s = issueEff (k g) s (fun x v => mres v g (f x v g)))
    (hf : ∀ (s : State) (v : Wave) (g : GenW), f (putWave s v) v g = f s v g) (hn : ∀ g : GenW, isNwb (k g) = g.hdr.nwb) : MaskRule k f := by
  intro s w v g h m
  rw [← hn]
  exact h.maskFlags (he s g) (by simp only [hf]; rfl)

/-- An instruction that reads masks and writes a scalar with flag Z meets its rule. -/
theorem maskScalarRule_of {k : GenW → Instr} {f : State → Wave → GenW → Nat × Bool}
    (he : ∀ (s : State) (g : GenW), Sys2Proof.Machine.exec (k g) s = issueEff (k g) s (fun x v => msres v g (f x v g).1 (f x v g).2))
    (hf : ∀ (s : State) (v : Wave) (g : GenW), f (putWave s v) v g = f s v g) (hn : ∀ g : GenW, isNwb (k g) = g.hdr.nwb) :
    MaskScalarRule k f := by
  intro s w v g h
  rw [← hn]
  exact h.scalarFlags (he s g) (by simp only [hf]; rfl)

/-! ### The scalar group -/

/-- The extremes pick one of their sources by the order of their type. -/
theorem pickLess_false (t : Ty) (a b : Nat) : pickLess t false a b = (if ival t a < ival t b then a else b) % 2 ^ tyWidth t := by
  by_cases h : ival t a < ival t b <;> simp [pickLess, h]

theorem pickLess_true (t : Ty) (a b : Nat) : pickLess t true a b = (if ival t a < ival t b then b else a) % 2 ^ tyWidth t := by
  by_cases h : ival t a < ival t b <;> simp [pickLess, h]

/-- Settles O12: SADD and SSUB with the flags of their carries, the others with the flags zn, and SCLZ and SPOPC as counts. -/
theorem scalarResultsComplete : Obligations.ScalarResultsComplete := by
  unfold Obligations.ScalarResultsComplete
  refine ⟨?sadd, ?ssub, ?smul, ?smulh, ?smad, ?sdiv, ?srem, ?sand, ?sor, ?sxor, ?sshl, ?sshr, ?smin, ?smax, ?sbfe, ?sbfi, ?sclz, ?spopc⟩
  case sadd | ssub => exact scalarRule_of (fun _ _ => rfl) (fun _ _ _ _ _ => keepsDB_withFlags ..) (fun _ => rfl)
  case sclz | spopc => exact countRule_of (fun _ _ => rfl) (fun _ => rfl)
  case smin =>
    simp only [← pickLess_false]
    exact scalarRule_of (fun _ _ => rfl) (fun _ _ _ _ _ => keepsDB_zn ..) (fun _ => rfl)
  case smax =>
    simp only [← pickLess_true]
    exact scalarRule_of (fun _ _ => rfl) (fun _ _ _ _ _ => keepsDB_zn ..) (fun _ => rfl)
  all_goals exact scalarRule_of (fun _ _ => rfl) (fun _ _ _ _ _ => keepsDB_zn ..) (fun _ => rfl)

/-- SMOV to a register other than %cc gives the value of its source (R166). -/
theorem Issues.smovReg {s : State} {w v : Wave} {g : GenW} (h : Issues s w v (.smov g)) (hd : g.dst ≠ .sp .cc) :
    Does s (.smov g) (withCC (wroteS g.hdr.nwb v (sNum g.dst) (w64 (extTo g.hdr.typ 64 (src s v g g.a % 2 ^ tyWidth g.hdr.typ))))
      (zn g.hdr.typ v.regs.cc (src s v g g.a) false).2) := by
  refine h.scalarFlags rfl ?_
  simp only [if_neg hd, putWave_src]
  rfl

/-- SMOV to %cc replaces its flags; under NWB the latch alone takes the value (R129, log 33). -/
theorem Issues.smovCc {s : State} {w v : Wave} {g : GenW} (h : Issues s w v (.smov g)) (hd : g.dst = .sp .cc) :
    Does s (.smov g) (if g.hdr.nwb then v else withCC v (w32 (src s v g g.a) &&& 0x3F)) := by
  cases hn : g.hdr.nwb with
  | true =>
    refine h.doesNothing (some (.sca (w64 (extTo g.hdr.typ 64 (src s v g g.a))))) rfl ?_
    simp only [if_pos hd, hn, if_true, putWave_src]
  | false =>
    refine h.does none rfl ?_ h.v_id rfl rfl rfl
    simp only [if_pos hd, hn, Bool.false_eq_true, if_false, putWave_src]
    exact congrArg (fun t => (Out.done t, none)) (putWave_putWave s v _ rfl)

/-- Settles O13: SMOV by its destination, SLI and SSEL by their results, and SCMP and STST by their flags. -/
theorem scalarMoveCompareCompletes : Obligations.ScalarMoveCompareCompletes := by
  unfold Obligations.ScalarMoveCompareCompletes
  refine ⟨?_, ?_, ?_, ?_, ?_, ?_⟩
  · exact fun s w v g h hd => h.smovReg hd
  · exact fun s w v g h hd => h.smovCc hd
  · exact fun s w v g h => h.scalarOnly rfl (by simp only [putWave_scalarOp])
  · exact fun s w v g h => h.scalarOnly rfl (congrArg (fun n =>
      writeOut (putWave s v) v { s := [(sNum g.dst, w64 (extTo g.hdr.typ 64 n))] } g.hdr.nwb) (putWave_src ..))
  · exact fun s w v g h => h.flagsOnly rfl (by simp only [putWave_src]; rfl)
  · exact fun s w v g h => h.flagsOnly rfl (by simp only [putWave_src]; rfl)

/-! ### The mask group -/

/-- The state of a scope is that of the contexts, which a wave put back leaves (R255). -/
theorem putWave_kpollValue (s : State) (v w : Wave) (g : GenW) : kpollValue (putWave s v) w g = kpollValue s w g := by
  simp only [kpollValue, putWave_getCtx, putWave_scalarOp]

/-- Settles O14: seven instructions of a mask result and four of a scalar one, each with flag Z. -/
theorem maskGroupCompletes : Obligations.MaskGroupCompletes := by
  unfold Obligations.MaskGroupCompletes
  refine ⟨?kand, ?kor, ?kxor, ?kandn, ?kmov, ?kset, ?elect, ?kget, ?kpopc, ?kfirst, ?kpoll⟩
  case kset =>
    exact maskRule_of (fun _ _ => rfl) (fun _ _ _ => by simp only [putWave_src]) (fun _ => rfl)
  case kget =>
    exact maskScalarRule_of (fun _ _ => rfl) (fun _ _ _ => by simp only [putWave_src]) (fun _ => rfl)
  case kpopc | kfirst => exact maskScalarRule_of (fun _ _ => rfl) (fun _ _ _ => rfl) (fun _ => rfl)
  case kpoll =>
    refine maskScalarRule_of (fun _ _ => rfl) (fun s v g => ?_) (fun _ => rfl)
    exact congrArg (fun n => (n, n == 0)) (putWave_kpollValue s v v g)
  all_goals exact maskRule_of (fun _ _ => rfl) (fun _ _ _ => rfl) (fun _ => rfl)

end Sys2Proof.Machine
end

section
/-! PROOFS. NOP (R145). -/

namespace Sys2Proof.Machine

/-! ### Which words are a NOP -/

/-- A word of four operand fields that are all zero has no literal (R131). -/
theorem noLit_of_litOk {h : Hdr} (hl : litOk h [.v 0, .v 0, .v 0, .v 0] = true) : h.lit = none := by
  cases hlit : h.lit with
  | none => rfl
  | some x =>
    rw [litOk, hlit] at hl
    exact absurd hl (by simp [litCount, isLit])

/-- The check of NOP leaves GRD and DSW free, and nothing else (R145). -/
theorem wellFormed_nop (g : GenW) :
    (Instr.nop g).wellFormed = true ↔ g = { plainGen with hdr := { plainHdr with grd := g.hdr.grd, dsw := g.hdr.dsw } } := by
  constructor
  · intro h
    obtain ⟨⟨grd, msk, typ, dsc, dsw, nwb, lit⟩, dst, a, b, c, opx, ty2, sat, abs, neg, nan, rm⟩ := g
    simp only [Instr.wellFormed, legal, okGen, specNop, hdrOk, unused, Bool.and_eq_true, beq_iff_eq, decide_eq_true_eq, Bool.false_or,
      Bool.not_eq_true', Bool.or_false, and_true] at h
    obtain ⟨⟨⟨⟨⟨⟨⟨⟨⟨⟨⟨⟨⟨⟨⟨⟨⟨-, rfl⟩, rfl⟩, rfl⟩, rfl⟩, rfl⟩, rfl⟩, rfl⟩, hopx⟩, rfl⟩, rfl⟩, habs⟩, hneg⟩, rfl⟩, rfl⟩, rfl⟩, hlit⟩, -⟩ := h
    obtain rfl : opx = 0 := BitVec.eq_of_toNat_eq hopx
    obtain rfl : lit = none := noLit_of_litOk hlit
    obtain rfl : abs = 0 := (BitVec.and_allOnes (x := abs)).symm.trans habs
    obtain rfl : neg = 0 := (BitVec.and_allOnes (x := neg)).symm.trans hneg
    rfl
  · intro h
    rw [h]
    simp [Instr.wellFormed, legal, okGen, specNop, hdrOk, litOk, litCount, isLit, queuesOk, unused, plainGen, plainHdr]

/-! ### What a NOP does -/

/-- In a wave's own code a NOP is issued like any other instruction, with no effect. -/
theorem execNop_wave {s : State} {n : Nat} (h : s.cur = .wave n) (g : GenW) :
    Sys2Proof.Machine.exec (.nop g) s = issueR (.nop g) s (fun s _ => (.done s, none)) := by
  simp only [exec, execNop, h]
  rfl

/-- A NOP that issues changes nothing (R145). -/
theorem Issues.nop {s : State} {w v : Wave} {g : GenW} (h : Issues s w v (.nop g)) : Does s (.nop g) v :=
  h.doesNothing none (execNop_wave h.cur g) rfl

/-- Settles O4: the check by its fields, the word of zeros as one of the decoded words, and the two ways of its issue. -/
theorem nopChangesNothing : Obligations.NopChangesNothing := by
  unfold Obligations.NopChangesNothing
  refine ⟨wellFormed_nop, by decide, fun s w v g h => h.nop, fun s w g hcur hfound hcheck hslots => ?_⟩
  rw [execNop_wave hcur]
  simp only [issueR, hcur, hfound, issueWave_slots _ hcheck hslots]

end Sys2Proof.Machine
end

section
/-! PROOFS. ENDP, YIELD, NOPRE, PRE, SRD and SWR (R152, R155 to R157, R162). -/

namespace Sys2Proof.Machine

/-- An effect that sets its own wave, which stays where it is, in any state that differs from the one it started from by that alone. -/
theorem Issues.doesPut {s : State} {w v x : Wave} {i : Instr} {f : Body} (h : Issues s w v i) (l : Option Latch)
    (he : Sys2Proof.Machine.exec i s = issueR i s f) (hf : f (putWave s v) v = (.done (putWave (putWave s v) x), l))
    (hid : x.id = v.id) (hs : x.ctl.st = v.ctl.st) (hc : x.ctx = v.ctx) (hsc : x.scope = v.scope) : Does s i x := by
  rw [putWave_putWave s v x hid.symm] at hf
  exact h.does l he hf (hid.trans h.v_id) hs hc hsc

/-- ENDP outside handler mode (R152). -/
theorem endpBody_outside {s : State} {v : Wave} (hh : v.hz.handler = false) :
    endpBody (putWave s v) v = .over (putWave (noteExit s v) { v with
      popped := [], issued := v.issued + 1,
      ctl := { v.ctl with st := .retiring, wait := .idle, nopre := none, only := none, again := false, rest := none } }) := by
  simp only [endpBody, hh, Bool.false_eq_true, if_false]
  refine congrArg Out.over (putWave_putWave (noteExit s v) v _ ?_)
  rfl

/-- YIELD completes, and its wave, where it is ready then, lets the others go first (R155). -/
theorem Issues.yield {s : State} {w v : Wave} {g : GenW} (h : Issues s w v (.yield g)) :
    let x := stepPast v (.yield g) (destLatch v (.yield g))
    Sys2Proof.Machine.exec (.yield g) s = .next (spendLatch (.yield g) (putWave s
      (if x.ctl.st = .ready then setSt x .ready (.yielded (yieldTo (putWave s v) v) (s.clk + 64)) else x))) := by
  intro x
  have hx : x.id = v.id := stepPast_id ..
  refine h.over none rfl (congrArg (·, none) (congrArg Out.over ?_))
  have hc : complete (putWave s v) v.id (.yield g) none = putWave s x :=
    (complete_eq h.v_here h.v_live (.inr h.v_alive)).trans (putWave_putWave s v x hx.symm)
  rw [hc, ← hx, modWave_putWave]
  · simp only [beq_iff_eq]
    rfl
  · split <;> rfl

/-- A special register written leaves its wave where it is. -/
theorem swrTo_place (v : Wave) (d : Operand) (x : W64) :
    (swrTo v d x).id = v.id ∧ (swrTo v d x).ctl.st = v.ctl.st ∧ (swrTo v d x).ctx = v.ctx ∧ (swrTo v d x).scope = v.scope := by
  unfold swrTo
  split <;> exact ⟨rfl, rfl, rfl, rfl⟩

/-- SWR of a value (R157); under NWB the latch alone takes it (log 33). -/
theorem Issues.swr {s : State} {w v : Wave} {g : GenW} (h : Issues s w v (.swr g)) :
    Does s (.swr g) (if g.hdr.nwb then v else swrTo v g.dst (scalarOp s v g.hdr.lit g.a)) := by
  obtain ⟨hid, hst, hctx, hscope⟩ := swrTo_place v g.dst (scalarOp s v g.hdr.lit g.a)
  cases hn : g.hdr.nwb with
  | true => exact h.doesNothing _ rfl ((if_pos hn).trans rfl)
  | false =>
    refine h.doesPut none rfl ((if_neg (by simp [hn])).trans ?_) hid hst hctx hscope
    rw [putWave_scalarOp]
    rfl

/-- SRD of a selector with a value (R156). -/
theorem Issues.srd {s : State} {w v : Wave} {g : GenW} {x : W64} (h : Issues s w v (.srd g))
    (hx : srdValue (putWave s v) v (srdSel g) (scalarOp s v g.hdr.lit g.b) = some x) :
    Does s (.srd g) (wroteS g.hdr.nwb v (sNum g.dst) x) := by
  refine h.scalarOnly rfl ?_
  simp only [putWave_scalarOp, hx]
  rfl

/-- SRD of a barrier above 15 is illegal (R156). -/
theorem Issues.srdTraps {s : State} {w v : Wave} {g : GenW} (h : Issues s w v (.srd g)) (hsel : srdSel g = 8)
    (hn : 15 < (scalarOp s v g.hdr.lit g.b).toNat) : Traps s (.srd g) (putWave s v) (unpopped v w) (precise 0x01) := by
  refine h.traps none rfl ?_
  simp only [putWave_scalarOp, hsel, srdValue, if_pos hn]

/-- NOPRE outside a region begins one now, and inside one has no effect (R65, R162). -/
theorem Issues.nopre {s : State} {w v : Wave} {g : GenW} (h : Issues s w v (.nopre g)) :
    Does s (.nopre g) { v with ctl := { v.ctl with nopre := some (v.ctl.nopre.getD s.ns) } } :=
  h.doesPut none rfl rfl rfl rfl rfl rfl

/-- Settles O22: one lemma for each instruction, and SRD by whether its selector has a value. -/
theorem simpleControlCompletes : Obligations.SimpleControlCompletes := by
  unfold Obligations.SimpleControlCompletes
  refine ⟨?nop, ?endp, ?yield, ?nopre, ?pre, ?swr, ?srd⟩
  case nop => exact fun s w v g h => h.nop
  case endp => exact fun s w v g h hh => h.over none rfl (congrArg (·, none) (endpBody_outside hh))
  case yield => exact fun s w v g h => ⟨_, h.yield⟩
  case nopre =>
    intro s w v g h
    have hdoes := h.nopre
    cases hr : v.ctl.nopre with
    | some t | none =>
      rw [hr] at hdoes
      exact hdoes
  case pre => exact fun s w v g h => h.doesPut none rfl rfl rfl rfl rfl rfl
  case swr => exact fun s w v g h => h.swr
  case srd => exact fun s w v g h => ⟨fun x hx => h.srd hx, h.srdTraps⟩

end Sys2Proof.Machine
end

section
/-! PROOFS. LOOP (R151). -/

namespace Sys2Proof.Machine

/-- What LOOP asks of its count, its end and its depth (R151). -/
def LoopFits (s : State) (v : Wave) (b : BrW) : Prop :=
  (scalarOp s v b.hdr.lit b.a).toNat < 2 ^ 32 ∧ 0 < b.offset.toInt ∧ slotIndex (brTarget v b) = some 0 ∧ v.ctl.loops.length < 4

/-- The wave of a LOOP with its count written and its level pushed. -/
def loopPushed (s : State) (v : Wave) (b : BrW) : Wave :=
  let x := wroteS b.hdr.nwb v (sNum b.dst) (scalarOp s v b.hdr.lit b.a)
  { x with ctl := { x.ctl with
    loops := { start := nextPc v.ctl.pc (hasLit (.loop b)), stop := brTarget v b, reg := sNum b.dst } :: v.ctl.loops } }

/-- A scalar result of a control instruction is written as any other (R129). -/
theorem putScalar_eq (v : Wave) (h : Hdr) (d : Operand) (x : W64) : putScalar v h d x = wroteS h.nwb v (sNum d) x := rfl

/-- A wave with its level pushed stands where it did. -/
theorem loopPushed_place (s : State) (v : Wave) (b : BrW) : (loopPushed s v b).id = v.id ∧ (loopPushed s v b).ctl.st = v.ctl.st
    ∧ (loopPushed s v b).ctx = v.ctx ∧ (loopPushed s v b).scope = v.scope := by
  simp only [loopPushed, wroteS_id, wroteS_ctl, wroteS_ctx, wroteS_scope, and_self]

/-- The checks of LOOP pass exactly where its count, its end and its depth fit. -/
theorem loopFits_iff {s : State} {v : Wave} {b : BrW} :
    LoopFits s v b ↔ ¬ (2 ^ 32 ≤ (scalarOp s v b.hdr.lit b.a).toNat ∨ b.offset.toInt ≤ 0 ∨ slotIndex (brTarget v b) ≠ some 0)
      ∧ ¬ 4 ≤ v.ctl.loops.length := by
  simp only [LoopFits, not_or, not_le, ne_eq, not_not, and_assoc]

section
variable {s : State} {v : Wave} {b : BrW}

/-- LOOP that does not fit is illegal. -/
theorem loopBody_illegal (h : ¬ LoopFits s v b) : loopBody b (putWave s v) v = .trap (putWave s v) (precise 0x01) := by
  rw [loopFits_iff, not_and_or, not_not, not_not] at h
  simp only [loopBody, putWave_scalarOp]
  rcases h with h | h
  · rw [if_pos h]
  · rw [if_pos h, ite_self]

/-- LOOP that fits, with a legal end, leaves for its end where its count is zero, and pushes its level elsewhere. -/
theorem loopBody_fits (h : LoopFits s v b) (ht : targetOk s v (brTarget v b) true = true) :
    loopBody b (putWave s v) v =
      if scalarOp s v b.hdr.lit b.a = 0 then
        .jump (owesTgt (putWave s (wroteS b.hdr.nwb v (sNum b.dst) 0)) v (brTarget v b)) (brTarget v b) false
      else .done (putWave s (loopPushed s v b)) := by
  obtain ⟨hchecks, hdepth⟩ := loopFits_iff.1 h
  obtain ⟨hid, -⟩ := loopPushed_place s v b
  simp only [loopBody, putWave_scalarOp, putWave_targetOk, if_neg hchecks, if_neg hdepth, ht, Bool.not_true, Bool.false_eq_true, if_false,
    putScalar_eq, wroteS_ctl]
  rw [putWave_putWave s v _ (wroteS_id ..).symm, ← putWave_putWave s v _ hid.symm]
  simp only [loopPushed, wroteS_ctl]

end

/-- Settles O21: LOOP that does not fit, and the two ways of one that does, by its count. -/
theorem loopCompletes : Obligations.LoopCompletes := by
  unfold Obligations.LoopCompletes
  intro s w v b h cnt stop fits
  refine ⟨fun hf ht hc => ?_, fun hf ht hc => ?_, fun hf => h.traps _ rfl (congrArg (·, _) (loopBody_illegal hf))⟩
  · have hb : loopBody b (putWave s v) v = .done (putWave s (loopPushed s v b)) := (loopBody_fits hf ht).trans (if_neg hc)
    obtain ⟨hid, hst, hctx, hscope⟩ := loopPushed_place s v b
    exact h.does _ rfl (congrArg (·, _) hb) (hid.trans h.v_id) hst hctx hscope
  · have hb := (loopBody_fits hf ht).trans (if_pos hc)
    obtain ⟨hid, hctx, hcore⟩ := wroteS_place b.hdr.nwb v (sNum b.dst) 0
    rw [owesTgt_putWave hid (lineAt_congr hctx hcore _)] at hb
    exact h.jumps _ rfl (congrArg (·, _) hb) (hid.trans h.v_id)

end Sys2Proof.Machine
end

section
/-! PROOFS. Launch queues, placement, and the ends of grids and contexts (R158, R271 to R280). -/

namespace Sys2Proof.Machine

/-! ### Launch queues -/

/-- A queue of the device after it is changed in place. -/
theorem getQueue_modQueue {s : State} {q : Nat} (f : LaunchQ → LaunchQ) (hq : q < s.queues.length) :
    getQueue (modQueue s q f) q = f (getQueue s q) := by
  rw [getQueue, modQueue, setAt_eq_set, List.getElem?_set_self hq]
  rfl

/-- A doorbell that leaves an enabled queue within its ring writes WIDX alone (R274). -/
theorem lqDoorbell_eq {s : State} {q : Nat} {x : W32} (h64 : q < 64) (hq : q < s.queues.length)
    (hfit : (getQueue s q).en = false ∨ (x - (getQueue s q).ridx).toNat ≤ 2 ^ (getQueue s q).log2n) :
    Sys2Proof.Machine.exec (.lqDoorbell q x) s = .next (modQueue s q (fun y => { y with widx := x })) := by
  have hno : ¬ (((getQueue s q).en && overran { getQueue s q with widx := x }) = true) := by
    rw [Bool.and_eq_true, overran, decide_eq_true_eq]
    rintro ⟨hen, hover⟩
    rcases hfit with h | h
    · exact Bool.false_ne_true (h.symm.trans hen)
    · exact Nat.not_lt.2 h hover
  simp only [exec, execLqDoorbell, if_neg (Nat.not_le.2 h64), getQueue_modQueue _ hq, if_neg hno]

/-- What the read of the packet at the head of a queue that can be read comes to, by what its serving gives (R275, R276). -/
def packetRead (q : Nat) : LaunchRead → State
  | .refused s code => refuseLaunch s q code
  | .wait s => s
  | .taken s g deps => modQueue s q (fun x => { x with ridx := x.ridx + 1, held := some g.id, deps := deps })

/-- A powered device reads the packet at the head of an enabled queue that holds no launch (R274, R348). -/
theorem launchPacketRead_eq {s : State} {q : Nat} (h : Bool) (h64 : q < 64) (hp : s.rel.powered = true) (hen : (getQueue s q).en = true)
    (hne : (getQueue s q).ridx ≠ (getQueue s q).widx) (hh : (getQueue s q).held = none) (ho : overran (getQueue s q) = false) :
    Sys2Proof.Machine.exec (.launchPacketRead ⟨q, h⟩) s = .next (packetRead q (servePacket s q (packetAt s (getQueue s q)) h)) := by
  have hgo : ¬ (64 ≤ q ∨ (!s.rel.powered) = true ∨ (!(getQueue s q).en) = true ∨ (getQueue s q).ridx = (getQueue s q).widx
      ∨ (getQueue s q).held.isSome = true) := by
    simp only [hp, hen, hh, hne, Nat.not_le.2 h64, Bool.not_true, Bool.false_eq_true, Option.isSome_none, or_self, not_false_eq_true]
  simp only [exec, execLaunchPacketRead, if_neg hgo, ho, Bool.false_eq_true, if_false]
  cases servePacket s q (packetAt s (getQueue s q)) h <;> rfl

/-- A held launch whose dependences are met becomes pending (R277). -/
theorem launchPending_eq {s : State} {q : Nat} {g : Grid} (hh : (getQueue s q).held = some g.id)
    (hg : s.grids.find? (fun x => x.id == g.id) = some g)
    (hd : depsMet (depWords s (getQueue s q) (getCtx s g.ctx) ((getQueue s q).deps.map (·.1))) (getQueue s q).deps = true) :
    Sys2Proof.Machine.exec (.launchPending q) s = .next { dropHeld s q with
      nextId := (dropHeld s q).nextId + 1, icache := (dropHeld s q).icache.filter (fun l => l.asid != (getCtx s g.ctx).asid),
      grids := (dropHeld s q).grids.map (fun y =>
        if y.id = g.id then { y with pending := true, order := (dropHeld s q).nextId, since := (dropHeld s q).ns } else y) } := by
  simp only [exec, execLaunchPending, hh, hg, hd, if_true]

/-! ### Placement -/

/-- One team placed on a core from an entry of the order of R279. -/
def placeFrom (s : State) (k : Nat) : EntryRef → State
  | .task t => placeTask s t k
  | .grid g => placeGrid s g k
  | .saved t => bringBack s t k

/-- A placement step of a powered device takes the first entry that has a core (R279, R280). -/
theorem teamPlacement_eq {s : State} {r : EntryRef} {k : Nat} (hp : s.rel.powered = true)
    (hr : (pendings (placeServices s)).findSome? (fun e => (pendCore (placeServices s) e).map (fun k => (e.ref, k))) = some (r, k)) :
    Sys2Proof.Machine.exec .teamPlacement s = .next (placeFrom (placeServices s) k r) := by
  simp only [exec, execTeamPlacement, hp, Bool.not_true, Bool.false_eq_true, if_false, placeNext, hr]
  cases r <;> rfl

/-! ### Ends -/

/-- A grid that is over credits DONE and goes with its scopes (R278). -/
theorem gridEnd_eq {s : State} {g : Grid} (hg : s.grids.find? (fun x => x.id == g.id) = some g) (ho : gridOver g = true) :
    let s1 := if g.done = 0 then s else bumpFor s (getCtx s g.ctx) none g.done
    Sys2Proof.Machine.exec (.gridEnd g.id) s = .next (freeAll { s1 with grids := s1.grids.filter (fun x => x.id != g.id) } g.ctx) := by
  simp only [exec, execGridEnd, hg, ho, if_true]

/-- A context whose aborts have finished takes status 2 and raises its vector (R158, R271). -/
theorem contextEndInterrupt_eq {s : State} {ctx : Nat} (hst : (getCtx s ctx).status = 3) (hops : ∀ o ∈ s.ops, o.ctx ≠ ctx) :
    Sys2Proof.Machine.exec (.contextEndInterrupt ctx) s = .next (raiseVec (setStatus s ctx 2) (getCtx s ctx).vec) := by
  have hnone : s.ops.any (fun o => o.ctx == ctx) = false := by simpa using hops
  simp only [exec, execContextEndInterrupt, hst, hnone, Bool.not_false, and_self, if_true]

section
variable {s : State} {x : W64} {c : Ctx}

/-- CTX_END halts a live context (R272). -/
theorem ctxEnd_live (hc : heldCtx { s with ctxEnd := w64 (x.toNat / 128 * 128) } (w64 (x.toNat / 128 * 128)) = some c) (hh : c.halted = false) :
    Sys2Proof.Machine.exec (.ctxEnd x) s = .next (haltCheck (haltCtx { s with ctxEnd := w64 (x.toNat / 128 * 128) } c.id none) c.id) := by
  simp only [exec, execCtxEnd, hc, hh, Bool.not_false, if_true]

/-- CTX_END kills the wave that had halted the context (R272). -/
theorem ctxEnd_halted {w : Nat} (hc : heldCtx { s with ctxEnd := w64 (x.toNat / 128 * 128) } (w64 (x.toNat / 128 * 128)) = some c)
    (hh : c.halted = true) (hw : c.haltWave = some w) :
    Sys2Proof.Machine.exec (.ctxEnd x) s = .next (killWave { s with ctxEnd := w64 (x.toNat / 128 * 128) } w) := by
  simp only [exec, execCtxEnd, hc, hh, hw, Bool.not_true, Bool.false_eq_true, if_false]

end

/-- Settles O52: one lemma for each event; the read of a packet by what its serving gives, and CTX_END by whether its context is halted. -/
theorem launchAndEndEventsComplete : Obligations.LaunchAndEndEventsComplete := by
  unfold Obligations.LaunchAndEndEventsComplete
  refine ⟨?doorbell, ?packet, ?pending, ?placement, ?grid, ?interrupt, ?ctxEnd⟩
  case doorbell => exact fun s q x h64 hfit hq => lqDoorbell_eq h64 hq hfit
  case packet =>
    intro s q h h64 hp b hen hne hh ho
    have hread := launchPacketRead_eq h h64 hp hen hne hh ho
    refine ⟨fun s1 code hs => ?_, fun s1 hs => ?_, fun s1 g deps hs => ?_⟩ <;> rw [hread, hs] <;> rfl
  case pending => exact fun s q g hh hg hd => launchPending_eq hh hg hd
  case placement =>
    intro s r k hp s1 hr
    rw [teamPlacement_eq hp hr]
    cases r <;> rfl
  case grid => exact fun s g hg ho => gridEnd_eq hg ho
  case interrupt => exact fun s ctx hst hops => contextEndInterrupt_eq hst hops
  case ctxEnd =>
    intro s x c s1 hc
    exact ⟨ctxEnd_live hc, fun w => ctxEnd_halted hc⟩

end Sys2Proof.Machine
end

section
/-! PROOFS. The halt of a context (R158), and the fault log that takes the failures of the waves that it stops (R270): what they keep of waves and
contexts. -/

namespace Sys2Proof.Machine

/-! ### The fault log -/

/-- What the halt and the fault log keep of the contexts: their scopes, and which wave halted them. -/
def SameHalts (s t : State) : Prop := ∀ n, (getCtx t n).scopes = (getCtx s n).scopes ∧ (getCtx t n).haltWave = (getCtx s n).haltWave

theorem SameHalts.refl (s : State) : SameHalts s s := fun _ => ⟨rfl, rfl⟩

theorem SameHalts.trans {s t u : State} (h : SameHalts s t) (k : SameHalts t u) : SameHalts s u :=
  fun n => ⟨(k n).1.trans (h n).1, (k n).2.trans (h n).2⟩

theorem SameWork.sameHalts {s t : State} (h : SameWork s t) : SameHalts s t := fun n => by rw [h.getCtx]; exact ⟨rfl, rfl⟩

/-- A context changed in none of these. -/
theorem modCtx_sameHalts (s : State) (n : Nat) {f : Ctx → Ctx} (hf : ∀ c, (f c).id = c.id ∧ (f c).scopes = c.scopes ∧ (f c).haltWave = c.haltWave) :
    SameHalts s (modCtx s n f) := by
  intro k
  by_cases hk : k = n
  · subst hk
    rcases getCtx_modCtx_same s (n := k) (fun c => (hf c).1) with h | h <;> rw [h]
    · exact (hf _).2
    · exact ⟨rfl, rfl⟩
  · rw [getCtx_modCtx_other s (fun c => (hf c).1) hk]
    exact ⟨rfl, rfl⟩

/-- A system address lies in local HBM or in host memory (R350). -/
theorem sysPlace_pageSpace {a : W64} {sp : Space} {o : Nat} (h : sysPlace a = some (sp, o)) : pageSpace sp = true := by
  unfold sysPlace at h
  split at h
  · cases h; rfl
  · split at h
    · cases h; rfl
    · cases h

theorem sysWrite_sameWork (s : State) (a : W64) (l : List Byte) : SameWork s (sysWrite s a l) := by
  unfold sysWrite
  cases hp : sysPlace a with
  | none => exact SameWork.refl s
  | some p => exact writeRange_sameWork s (sysPlace_pageSpace hp) p.2 l

theorem setStatus_waves (s : State) (ctx st : Nat) : (setStatus s ctx st).waves = s.waves := (sysWrite_sameWork s _ _).1

theorem setStatus_sameHalts (s : State) (ctx st : Nat) : SameHalts s (setStatus s ctx st) :=
  (sysWrite_sameWork s _ _).sameHalts.trans (modCtx_sameHalts _ _ (fun _ => ⟨rfl, rfl, rfl⟩))

theorem flogWrite_waves (s : State) (ctx : Nat) (l : List Byte) : (flogWrite s ctx l).waves = s.waves :=
  ((sysWrite_sameWork s _ _).trans (sysWrite_sameWork _ _ _)).1

theorem flogWrite_sameHalts (s : State) (ctx : Nat) (l : List Byte) : SameHalts s (flogWrite s ctx l) :=
  ((sysWrite_sameWork s _ _).trans (sysWrite_sameWork _ _ _)).sameHalts.trans (modCtx_sameHalts _ _ (fun _ => ⟨rfl, rfl, rfl⟩))

/-- The failures of a wave that go to the fault log leave its horizon state alone changed. -/
theorem logPending_keeps (n : Nat) (s : State) (w : Wave) :
    (logPending n s w).1.waves = s.waves ∧ SameHalts s (logPending n s w).1 ∧ ∃ h, (logPending n s w).2 = { w with hz := h } := by
  induction n generalizing s w with
  | zero => exact ⟨rfl, SameHalts.refl s, w.hz, rfl⟩
  | succ n ih =>
    rw [logPending]
    cases firstPending w with
    | none => exact ⟨rfl, SameHalts.refl s, w.hz, rfl⟩
    | some x =>
      obtain ⟨hw, hc, h, hh⟩ := ih (logSlip s w x).1 (logSlip s w x).2
      exact ⟨hw.trans (flogWrite_waves ..), (flogWrite_sameHalts _ _ _).trans hc, h, hh⟩

/-- The waves and contexts of a state after failures of some of its waves have gone to the fault log: no wave has changed in more than its horizon
state. -/
structure Logged (s t : State) : Prop where
  from_ : ∀ y ∈ t.waves, ∃ x ∈ s.waves, ∃ h, y = { x with hz := h }
  found : ∀ n x, findWave s n = some x → ∃ h, findWave t n = some { x with hz := h }
  halts : SameHalts s t

namespace Logged

theorem refl (s : State) : Logged s s := ⟨fun y hy => ⟨y, hy, y.hz, rfl⟩, fun _ x hx => ⟨x.hz, hx⟩, SameHalts.refl s⟩

theorem trans {s t u : State} (h : Logged s t) (k : Logged t u) : Logged s u where
  from_ y hy := by
    obtain ⟨x, hx, a, rfl⟩ := k.from_ y hy
    obtain ⟨z, hz, b, rfl⟩ := h.from_ x hx
    exact ⟨z, hz, a, rfl⟩
  found n x hx := by
    obtain ⟨a, ha⟩ := h.found n x hx
    obtain ⟨b, hb⟩ := k.found n _ ha
    exact ⟨b, hb⟩
  halts := h.halts.trans k.halts

theorem foldl {α : Type} {f : State → α → State} (h : ∀ s x, Logged s (f s x)) (l : List α) (s : State) : Logged s (l.foldl f s) := by
  induction l generalizing s with
  | nil => exact refl s
  | cons x r ih => exact (h s x).trans (ih (f s x))

end Logged

/-- A stopped wave's failures go to the fault log (R158). -/
theorem logStopped_logged (s : State) (id : Nat) : Logged s (logStopped s id) := by
  unfold logStopped
  cases hf : findWave s id with
  | none => exact Logged.refl s
  | some w =>
    obtain rfl : w.id = id := findWave_id hf
    dsimp only
    split
    · obtain ⟨hw, hc, h, hh⟩ := logPending_keeps 128 s w
      have hfound (n : Nat) : findWave (logPending 128 s w).1 n = findWave s n := by simp only [findWave, hw]
      have hid : (logPending 128 s w).2.id = w.id := by rw [hh]
      refine ⟨fun y hy => ?_, fun n x hx => ?_, hc⟩
      · obtain ⟨x, hx, hy⟩ := List.mem_map.1 hy
        rw [hw] at hx
        split at hy
        · exact ⟨w, List.mem_of_find?_eq_some hf, h, by rw [← hy, hh]⟩
        · exact ⟨x, hx, x.hz, hy.symm⟩
      · by_cases hn : n = w.id
        · subst hn
          obtain rfl : w = x := Option.some.inj (hf.symm.trans hx)
          exact ⟨h, by rw [← hh]; exact findWave_putWave ((hfound _).trans hf) hid⟩
        · exact ⟨x.hz, (findWave_putWave_other (by rwa [hid])).trans ((hfound n).trans hx)⟩
    · exact Logged.refl s

/-! ### The halt -/

/-- The wave that a halt leaves of one: stopped, unless it is another context's, the service wave or the issuer. -/
def haltedWave (ctx : Nat) (issuer : Option Nat) (w : Wave) : Wave := if w.ctx = ctx ∧ !w.fsw ∧ some w.id ≠ issuer then stopWave w else w

/-- A context that a wave, or none, has halted. -/
def haltedBy (issuer : Option Nat) (c : Ctx) : Ctx := { c with halted := true, haltWave := issuer }

/-- A context marked as halted and its waves stopped, before their failures are logged. -/
def haltMarks (s : State) (ctx : Nat) (issuer : Option Nat) : State :=
  let s2 := modCtx (setStatus s ctx 1) ctx (haltedBy issuer)
  { s2 with waves := s2.waves.map (haltedWave ctx issuer),
            teams := s2.teams.map (fun (t : Team) => if t.ctx = ctx then { t with claims := t.claims.map (fun _ => []) } else t) }

theorem haltCtx_logged (s : State) (ctx : Nat) (issuer : Option Nat) : Logged (haltMarks s ctx issuer) (haltCtx s ctx issuer) :=
  Logged.foldl (fun s (w : Wave) => logStopped_logged s w.id) _ _

theorem haltMarks_waves (s : State) (ctx : Nat) (issuer : Option Nat) : (haltMarks s ctx issuer).waves = s.waves.map (haltedWave ctx issuer) :=
  congrArg _ (setStatus_waves s ctx 1)

theorem haltMarks_scopes (s : State) (ctx : Nat) (issuer : Option Nat) (n : Nat) :
    (getCtx (haltMarks s ctx issuer) n).scopes = (getCtx s n).scopes := by
  have hst := (setStatus_sameHalts s ctx 1 n).1
  by_cases hn : n = ctx
  · subst hn
    rcases getCtx_modCtx_same (setStatus s n 1) (n := n) (f := haltedBy issuer) (fun _ => rfl) with h | h <;>
      exact (congrArg Ctx.scopes h).trans hst
  · exact (congrArg Ctx.scopes (getCtx_modCtx_other (setStatus s ctx 1) (f := haltedBy issuer) (fun _ => rfl) hn)).trans hst

/-- A context that is there, after it is changed in place. -/
theorem getCtx_modCtx_found {s : State} {n : Nat} {f : Ctx → Ctx} (hf : ∀ x, (f x).id = x.id) (h : ∃ c ∈ s.ctxs, c.id = n) :
    getCtx (modCtx s n f) n = f (getCtx s n) := by
  obtain ⟨c, hc⟩ := Option.isSome_iff_exists.1 (show (s.ctxs.find? (fun x => x.id == n)).isSome = true by simpa using h)
  simp only [getCtx, modCtx, find_modify Ctx.id _ _ _ hf, hc, if_true, Option.map_some, Option.getD_some]

theorem setStatus_ids (s : State) (ctx st : Nat) : (setStatus s ctx st).ctxs.map (·.id) = s.ctxs.map (·.id) := by
  simp only [setStatus, modCtx, (sysWrite_sameWork s _ _).2, List.map_map]
  refine List.map_congr_left fun c _ => ?_
  simp only [Function.comp_apply, apply_ite Ctx.id, ite_self]

theorem haltMarks_haltWave {s : State} {ctx : Nat} (issuer : Option Nat) (hc : ∃ c ∈ s.ctxs, c.id = ctx) :
    (getCtx (haltMarks s ctx issuer) ctx).haltWave = issuer := by
  have hc1 : ∃ c ∈ (setStatus s ctx 1).ctxs, c.id = ctx := by
    rw [← List.mem_map, setStatus_ids, List.mem_map]
    exact hc
  exact congrArg Ctx.haltWave (getCtx_modCtx_found (f := haltedBy issuer) (fun _ => rfl) hc1)

@[simp] theorem stopWave_id (w : Wave) : (stopWave w).id = w.id := by
  unfold stopWave
  split <;> rfl

@[simp] theorem haltedWave_id (ctx : Nat) (issuer : Option Nat) (w : Wave) : (haltedWave ctx issuer w).id = w.id := by
  simp only [haltedWave, apply_ite Wave.id, stopWave_id, ite_self]

/-- A wave that the array does not hold stops at once, if it executes at all. -/
theorem isStopped_stopWave {w : Wave} (h : w.ctl.st ≠ .slaved) : isStopped (stopWave w) = true := by
  cases hst : w.ctl.st with
  | slaved => exact absurd hst h
  | _ => simp [stopWave, isStopped, hst, setSt]

/-- The wave that issues the halt is the one thing in its context that it does not stop. -/
theorem haltedWave_issuer (ctx : Nat) (w : Wave) : haltedWave ctx (some w.id) w = w := if_neg (fun h => h.2.2 rfl)

/-- The issuer of a halt goes on as it was, but that its failures may have gone to the fault log. -/
theorem haltCtx_issuer {s : State} {v : Wave} (ctx : Nat) (hv : findWave s v.id = some v) :
    ∃ h, findWave (haltCtx s ctx (some v.id)) v.id = some { v with hz := h } := by
  refine (haltCtx_logged s ctx (some v.id)).found v.id v ?_
  rw [findWave, haltMarks_waves, find_map_keep, ← findWave, hv, Option.map_some, haltedWave_issuer]
  exact fun a => by rw [haltedWave_id]

/-- Whether a scope is cancelled is a matter of its context's scopes. -/
theorem scopeCancelled_congr {c d : Ctx} (h : d.scopes = c.scopes) (id : W64) : scopeCancelled d id = scopeCancelled c id := by
  simp only [scopeCancelled, findScope, h]

/-- A halt leaves the scopes of every context. -/
theorem haltCtx_scopes (s : State) (ctx : Nat) (issuer : Option Nat) (n : Nat) : (getCtx (haltCtx s ctx issuer) n).scopes = (getCtx s n).scopes :=
  ((haltCtx_logged s ctx issuer).halts n).1.trans (haltMarks_scopes s ctx issuer n)

/-- Whether a halt no longer waits for a wave of a context. -/
def stoppedFor (ctx : Nat) (issuer : Option Nat) (w : Wave) : Bool := w.ctx != ctx || w.fsw || some w.id == issuer || isStopped w

/-- A wave that the array does not hold is stopped by its context's halt. -/
theorem stoppedFor_haltedWave {ctx : Nat} {issuer : Option Nat} {w : Wave}
    (h : w.ctx = ctx → w.fsw = false → some w.id ≠ issuer → w.ctl.st ≠ .slaved) : stoppedFor ctx issuer (haltedWave ctx issuer w) = true := by
  by_cases hw : w.ctx = ctx ∧ (!w.fsw) = true ∧ some w.id ≠ issuer
  · obtain ⟨hc, hf, hi⟩ := hw
    have hs := isStopped_stopWave (h hc (by simpa using hf) hi)
    rw [haltedWave, if_pos ⟨hc, hf, hi⟩, stoppedFor, hs, Bool.or_true]
  · rw [haltedWave, if_neg hw]
    simp only [not_and_or, not_not, Bool.not_eq_true, Bool.not_eq_false'] at hw
    rcases hw with hc | hf | hi <;> simp [stoppedFor, *]

/-- A halt of a context of which the array holds no wave is complete at once (R158). -/
theorem allStopped_haltCtx {s : State} {ctx : Nat} {issuer : Option Nat} (hc : ∃ c ∈ s.ctxs, c.id = ctx)
    (h : ∀ x ∈ s.waves, x.ctx = ctx → x.fsw = false → some x.id ≠ issuer → x.ctl.st ≠ .slaved) : allStopped (haltCtx s ctx issuer) ctx = true := by
  have hl := haltCtx_logged s ctx issuer
  have hw : (getCtx (haltCtx s ctx issuer) ctx).haltWave = issuer := (hl.halts ctx).2.trans (haltMarks_haltWave issuer hc)
  rw [allStopped, hw, List.all_eq_true]
  intro y hy
  obtain ⟨x, hx, a, rfl⟩ := hl.from_ y hy
  rw [haltMarks_waves] at hx
  obtain ⟨z, hz, rfl⟩ := List.mem_map.1 hx
  exact stoppedFor_haltedWave (h z hz)

end Sys2Proof.Machine
end

section
/-! PROOFS. HALTCTX, DRAIN, TLBINV and REPLAY (R158 to R161). -/

namespace Sys2Proof.Machine

/-! ### Effects with a scalar result -/

/-- The effect of a control instruction that gives a scalar: it goes to DST, or, under NWB, to the latch alone (R129). -/
def scalarBody (h : Hdr) (d : Operand) (f : State → Wave → Out × W64) : Body := fun s v =>
  match f s v with
  | (.done t, x) => (.done (modWave t v.id (fun y => putScalar y h d x)), some (.sca x))
  | (o, _) => (o, none)

theorem issueScalar_eq (i : Instr) (h : Hdr) (d : Operand) (s : State) (f : State → Wave → Out × W64) :
    issueScalar i h d s f = issueR i s (scalarBody h d f) := rfl

section
variable {s t : State} {w v y : Wave} {i : Instr} {h : Hdr} {d : Operand} {f : State → Wave → Out × W64} {x : W64}

theorem scalarBody_done (hf : f s v = (.done t, x)) :
    scalarBody h d f s v = (.done (modWave t v.id (fun y => wroteS h.nwb y (sNum d) x)), some (.sca x)) := by
  simp only [scalarBody, hf]
  rfl

theorem scalarBody_stay {wt : Wait} (hf : f s v = (.stay t wt, x)) : scalarBody h d f s v = (.stay t wt, none) := by
  simp only [scalarBody, hf]

variable (iss : Issues s w v i) (he : Sys2Proof.Machine.exec i s = issueScalar i h d s f)
include iss he

/-- It gives its scalar and changes nothing else. -/
theorem Issues.scalarDoes (hf : f (putWave s v) v = (.done (putWave s v), x)) : Does s i (wroteS h.nwb v (sNum d) x) := by
  have hb := scalarBody_done (h := h) (d := d) hf
  rw [modWave_putWave s v (fun y => wroteS h.nwb y (sNum d) x) (wroteS_id ..)] at hb
  exact iss.does _ (he.trans (issueScalar_eq ..)) hb ((wroteS_id ..).trans iss.v_id) (congrArg Ctl.st (wroteS_ctl ..)) (wroteS_ctx ..) (wroteS_scope ..)

/-- It gives its scalar in a state that it has changed, in which its wave still goes on. -/
theorem Issues.scalarEnds (hf : f (putWave s v) v = (.done t, x)) (ht : findWave t v.id = some y)
    (hst : y.ctl.st ≠ .retiring ∧ y.ctl.st ≠ .killed ∧ y.ctl.st ≠ .retired) (hal : scopeCancelled (getCtx t y.ctx) y.scope = false) :
    Ends s i v.id (modWave t v.id (fun y => wroteS h.nwb y (sNum d) x)) := by
  have hy : findWave (modWave t v.id (fun y => wroteS h.nwb y (sNum d) x)) w.id = some (wroteS h.nwb y (sNum d) x) := by
    rw [findWave_modWave _ _ _ _ (fun _ => wroteS_id ..), ← iss.v_id, ht, Option.map_some, if_pos (findWave_id ht)]
  have hb := scalarBody_done (h := h) (d := d) hf
  have hends := iss.ends _ (he.trans (issueScalar_eq ..)) hb hy (by simpa using hst) (.inr (by simpa using hal))
  rwa [← iss.v_id] at hends

/-- It waits, its wave's faults as they were. -/
theorem Issues.scalarWaits {wt : Wait} (hf : f (putWave s v) v = (.stay t wt, x)) (ht : findWave t v.id = some y)
    (hy : y.regs.fault = v.regs.fault) : Waits s i t v.id wt := by
  rw [iss.v_id] at ht ⊢
  exact iss.waits none (he.trans (issueScalar_eq ..)) (scalarBody_stay hf) ht hy

end

/-! ### HALTCTX -/

section
variable {s : State} {v : Wave}

/-- HALTCTX that waits returns 0 once every wave has stopped (R158). -/
theorem haltBody_again (h : v.ctl.wait = .halting) : haltBody s v = haltReturn s v := if_pos h

/-- HALTCTX in a context that is halted already. -/
theorem haltBody_halted (h : v.ctl.wait ≠ .halting) (hh : (getCtx s v.ctx).halted = true) : haltBody s v = (.done s, 1) :=
  (if_neg h).trans (if_pos hh)

/-- HALTCTX that halts its context. -/
theorem haltBody_halts (h : v.ctl.wait ≠ .halting) (hh : (getCtx s v.ctx).halted = false) :
    haltBody s v = haltReturn (haltCtx s v.ctx (some v.id)) v := (if_neg h).trans (if_neg (by simp [hh]))

theorem haltReturn_stopped (h : allStopped s v.ctx = true) : haltReturn s v = (.done s, 0) := congrArg (·, 0) (if_pos h)

theorem haltReturn_waits (h : allStopped s v.ctx = false) : haltReturn s v = (.stay s .halting, 0) := congrArg (·, 0) (if_neg (by simp [h]))

end

/-- HALTCTX halts its context and, where no wave is held by the array, returns at once. -/
theorem Issues.haltctxEnds {s : State} {w v : Wave} {g : GenW} (h : Issues s w v (.haltctx g)) (hw : v.ctl.wait ≠ .halting)
    (hh : (getCtx s v.ctx).halted = false) (hc : ∃ c ∈ s.ctxs, c.id = v.ctx)
    (hx : ∀ x ∈ s.waves, x.ctx = v.ctx → x.fsw = false → x.id ≠ v.id → x.ctl.st ≠ .slaved) :
    Ends s (.haltctx g) v.id (modWave (haltCtx (putWave s v) v.ctx (some v.id)) v.id (fun x => wroteS g.hdr.nwb x (sNum g.dst) 0)) := by
  have hall : allStopped (haltCtx (putWave s v) v.ctx (some v.id)) v.ctx = true := by
    refine allStopped_haltCtx hc fun x hxp hctx hf hi => ?_
    have hid : x.id ≠ v.id := fun e => hi (congrArg some e)
    obtain ⟨z, hz, hzx⟩ := List.mem_map.1 hxp
    split at hzx
    · exact absurd (congrArg Wave.id hzx).symm hid
    · exact hx x (hzx ▸ hz) hctx hf hid
  obtain ⟨a, ha⟩ := haltCtx_issuer v.ctx h.v_here
  refine h.scalarEnds rfl ((haltBody_halts (s := putWave s v) hw hh).trans (haltReturn_stopped hall)) ha h.v_live ?_
  exact (scopeCancelled_congr (haltCtx_scopes _ _ _ _) v.scope).trans h.v_alive

/-- HALTCTX halts its context and waits for a wave that has not stopped. -/
theorem Issues.haltctxWaits {s : State} {w v : Wave} {g : GenW} (h : Issues s w v (.haltctx g)) (hw : v.ctl.wait ≠ .halting)
    (hh : (getCtx s v.ctx).halted = false) (hall : allStopped (haltCtx (putWave s v) v.ctx (some v.id)) v.ctx = false) :
    Waits s (.haltctx g) (haltCtx (putWave s v) v.ctx (some v.id)) v.id .halting := by
  obtain ⟨a, ha⟩ := haltCtx_issuer v.ctx h.v_here
  exact h.scalarWaits rfl ((haltBody_halts (s := putWave s v) hw hh).trans (haltReturn_waits hall)) ha rfl

/-! ### DRAIN -/

/-- The engine operations that a DRAIN covers: those of its context that have not ended (R159). -/
def drainIds (s : State) (v : Wave) : List Nat := (s.ops.filter (fun o => o.ctx == v.ctx)).map (·.id)

/-- A state in which a DRAIN waits for them; with OPX 1 it has asked for their aborts. -/
def drainAsked (g : GenW) (s : State) (v : Wave) : State :=
  if g.opx = 1 then { s with ops := s.ops.map (fun o => if (drainIds s v).contains o.id then askAbort .cancel o else o) } else s

section
variable {s : State} {v : Wave} {g : GenW}

/-- DRAIN at its issue waits for the engine operations that it covers. -/
theorem drainBody_first (h : ∀ l d f a, v.ctl.wait ≠ .drain l d f a) :
    drainBody g s v = (if (drainIds s v).isEmpty then .done s else .stay (drainAsked g s v) (.drain (drainIds s v) 0 0 0), 0) := by
  cases hw : v.ctl.wait with
  | drain l d f a => exact absurd hw (h l d f a)
  | _ =>
    simp only [drainBody, hw]
    rfl

/-- DRAIN whose operations have ended gives their counts. -/
theorem drainBody_ended {d f a : Nat} (h : v.ctl.wait = .drain [] d f a) : drainBody g s v = (.done s, drainResult d f a) := by
  simp only [drainBody, h]

/-- DRAIN waits for operations that have not ended. -/
theorem drainBody_waits {l : List Nat} {d f a : Nat} (hl : l ≠ []) (h : v.ctl.wait = .drain l d f a) :
    drainBody g s v = (.stay s (.drain l d f a), 0) := by
  cases l with
  | nil => exact absurd rfl hl
  | cons x r => simp only [drainBody, h]

end

/-! ### TLBINV -/

section
variable {s : State} {v : Wave} {g : GenW}

/-- TLBINV at its issue removes what it covers, and waits for the accesses made through it (R160). -/
theorem tlbinvBody_first (h : ∀ a b c d, v.ctl.wait ≠ .tlbinv a b c d) :
    tlbinvBody g s v = if invWait s (invRange s v g) = .tlbinv [] [] [] [] then .done (invalidate s (invRange s v g))
      else .stay (invalidate s (invRange s v g)) (invWait s (invRange s v g)) := by
  cases hw : v.ctl.wait with
  | tlbinv a b c d => exact absurd hw (h a b c d)
  | _ => simp only [tlbinvBody, hw]

/-- TLBINV that waits goes on once none of those accesses is left. -/
theorem tlbinvBody_again {a : List (Nat × W32)} {b c : List (Nat × Nat)} {d : List Nat} (h : v.ctl.wait = .tlbinv a b c d) :
    tlbinvBody g s v = if invLeft s a b c d = .tlbinv [] [] [] [] then .done s else .stay s (invLeft s a b c d) := by
  simp only [tlbinvBody, h]

/-- What a TLBINV covers is not a matter of the waves. -/
theorem putWave_invRange (x : Wave) : invRange (putWave s x) v g = invRange s v g := by
  simp only [invRange, putWave_scalarOp]
  rfl

/-- The removal of translations leaves the waves. -/
theorem invalidate_putWave (x : Wave) (r : InvRange) : invalidate (putWave s x) r = putWave (invalidate s r) x := rfl

end

/-- An effect that changes the state outside the waves and contexts. -/
theorem Issues.makes {s t : State} {w v : Wave} {i : Instr} {f : Body} (h : Issues s w v i) (l : Option Latch)
    (he : Sys2Proof.Machine.exec i s = issueR i s f) (hf : f (putWave s v) v = (.done (putWave t v), l)) (ht : SameWork s t) : Makes s i t v := by
  have hv : findWave (putWave t v) v.id = some v := by
    rw [h.v_id]
    exact findWave_putWave ((ht.findWave _).trans h.found) h.v_id
  obtain ⟨x, m, hx, hm, hexec⟩ := h.endsAt l he hf hv (fun n => ht.getCtx n) rfl rfl rfl
  obtain rfl : v = x := Option.some.inj (hv.symm.trans hx)
  exact ⟨m, hm, by rw [hexec, putWave_putWave _ _ _ (stepPast_id _ _ _).symm]⟩

/-! ### REPLAY -/

/-- Whether a wave is one that a REPLAY of a token lets execute again: parked in its context under that token, and not to be killed (R35, R161). -/
def replayNamed (s : State) (v : Wave) (tok : W64) (x : Wave) : Bool :=
  x.ctx == v.ctx && x.ctl.st == .parked && !killDue s x && (match x.ctl.park with | some k => k.token == tok | none => false)

/-- A wave that executes again after its park. -/
def replayed (s : State) (x : Wave) : Wave := { x with
  queues := x.queues.map (fun q => match q with | e :: r => finishEntry s x e :: r | [] => []),
  ctl := { x.ctl with st := .ready, wait := .idle, park := none, again := true, only := if popParked s x then none else x.ctl.only } }

theorem replayWave_eq {s : State} {x : Wave} (h : killDue s x = false) :
    replayWave s x = modCtx (putWave s (replayed s x)) x.ctx (fun c => { c with records := c.records.filter (fun y => y != x.id) }) :=
  if_neg (by simp [h])

/-- The wave that a REPLAY names. -/
theorem replayBody_eq (g : GenW) (s : State) (v : Wave) :
    replayBody g s v = (s.waves.find? (replayNamed s v (scalarOp s v g.hdr.lit g.a))).elim (.done s, 1) (fun x => (.done (replayWave s x), 0)) := by
  dsimp only [replayBody]
  split
  · next x hx =>
    have hn : s.waves.find? (replayNamed s v (scalarOp s v g.hdr.lit g.a)) = some x := hx
    rw [hn]
    rfl
  · next hx =>
    have hn : s.waves.find? (replayNamed s v (scalarOp s v g.hdr.lit g.a)) = none := hx
    rw [hn]
    rfl

/-- A wave put back is the one of its identifier. -/
theorem eq_of_mem_putWave {s : State} {v x : Wave} (hx : x ∈ (putWave s v).waves) (hid : x.id = v.id) : x = v := by
  obtain ⟨y, -, hy⟩ := List.mem_map.1 hx
  split at hy
  · exact hy.symm
  · next hne => exact absurd (hy ▸ hid) hne

/-- A wave after the REPLAY of another, or of itself: it still goes on, in its place. -/
theorem replayWave_issuer {s : State} {v x : Wave} (hv : findWave (putWave s v) v.id = some v) (hx : x ∈ (putWave s v).waves)
    (hk : killDue (putWave s v) x = false) (hst : v.ctl.st ≠ .retiring ∧ v.ctl.st ≠ .killed ∧ v.ctl.st ≠ .retired) :
    ∃ y, findWave (replayWave (putWave s v) x) v.id = some y ∧ (y.ctl.st ≠ .retiring ∧ y.ctl.st ≠ .killed ∧ y.ctl.st ≠ .retired)
      ∧ y.ctx = v.ctx ∧ y.scope = v.scope := by
  rw [replayWave_eq hk, modCtx_findWave]
  by_cases hid : x.id = v.id
  · obtain rfl := eq_of_mem_putWave hx hid
    exact ⟨replayed (putWave s x) x, findWave_putWave hv rfl, ⟨nofun, nofun, nofun⟩, rfl, rfl⟩
  · exact ⟨v, (findWave_putWave_other (x := replayed (putWave s v) x) (Ne.symm hid)).trans hv, hst, rfl, rfl⟩

/-- A REPLAY leaves the scopes of every context. -/
theorem replayWave_scopes {s : State} {x : Wave} (hk : killDue s x = false) (n : Nat) : (getCtx (replayWave s x) n).scopes = (getCtx s n).scopes := by
  rw [replayWave_eq hk]
  exact (modCtx_sameHalts (putWave s (replayed s x)) x.ctx (f := fun c => { c with records := c.records.filter (fun y => y != x.id) })
    (fun _ => ⟨rfl, rfl, rfl⟩) n).1

/-- REPLAY of a token that names a parked wave lets it execute again and gives 0 (R161). -/
theorem Issues.replayFound {s : State} {w v x : Wave} {g : GenW} (h : Issues s w v (.replay g))
    (hx : (putWave s v).waves.find? (replayNamed (putWave s v) v (scalarOp s v g.hdr.lit g.a)) = some x) :
    Ends s (.replay g) v.id (modWave (replayWave (putWave s v) x) v.id (fun y => wroteS g.hdr.nwb y (sNum g.dst) 0)) := by
  have hk : killDue (putWave s v) x = false := by
    have hn := List.find?_some hx
    simp only [replayNamed, Bool.and_eq_true, Bool.not_eq_true'] at hn
    obtain ⟨⟨-, hk⟩, -⟩ := hn
    exact hk
  obtain ⟨y, hy, hst, hctx, hscope⟩ := replayWave_issuer h.v_here (List.mem_of_find?_eq_some hx) hk h.v_live
  refine h.scalarEnds rfl ((replayBody_eq ..).trans ?_) hy hst ?_
  · rw [putWave_scalarOp, hx]
    rfl
  · rw [hctx, hscope]
    exact (scopeCancelled_congr (replayWave_scopes hk v.ctx) v.scope).trans h.v_alive

/-- REPLAY of a token that names no parked wave gives 1. -/
theorem Issues.replayNone {s : State} {w v : Wave} {g : GenW} (h : Issues s w v (.replay g))
    (hx : ∀ x ∈ (putWave s v).waves, replayNamed (putWave s v) v (scalarOp s v g.hdr.lit g.a) x = false) :
    Does s (.replay g) (wroteS g.hdr.nwb v (sNum g.dst) 1) := by
  have hnone := List.find?_eq_none.2 (fun x hm => Bool.eq_false_iff.1 (hx x hm))
  refine h.scalarDoes rfl ((replayBody_eq ..).trans ?_)
  rw [putWave_scalarOp, hnone]
  rfl

/-- Settles O24: the halt by whether its context is halted and its waves stopped, DRAIN and TLBINV by what they wait for, and REPLAY by whether its
token names a wave. -/
theorem contextControlCompletes : Obligations.ContextControlCompletes := by
  unfold Obligations.ContextControlCompletes
  refine ⟨?haltctx, ?drain, ?tlbinv, ?replay⟩
  case haltctx =>
    intro s w v g h t
    refine ⟨fun hw hh => h.scalarDoes rfl (haltBody_halted hw hh), fun hw hh hc hx => h.haltctxEnds hw hh hc hx,
      fun hw hh hall => h.haltctxWaits hw hh hall, fun hw hall => h.scalarDoes rfl ((haltBody_again hw).trans (haltReturn_stopped hall)),
      fun hw hall => h.scalarWaits rfl ((haltBody_again hw).trans (haltReturn_waits hall)) h.v_here rfl⟩
  case drain =>
    intro s w v g h ids
    refine ⟨fun ho hw => ?_, fun hi hw => ?_, fun d f a hw => h.scalarDoes rfl (drainBody_ended hw),
      fun l d f a hl hw => h.scalarWaits rfl (drainBody_waits hl hw) h.v_here rfl⟩
    · have hids : drainIds (putWave s v) v = [] := by simpa [drainIds] using ho
      exact h.scalarDoes rfl ((drainBody_first hw).trans (congrArg (·, 0) (if_pos (by rw [hids]; rfl))))
    · have hids : ¬ (drainIds (putWave s v) v).isEmpty = true := by rwa [List.isEmpty_iff]
      refine h.scalarWaits (y := v) rfl ((drainBody_first hw).trans (congrArg (·, 0) (if_neg hids))) ?_ rfl
      split <;> exact h.v_here
  case tlbinv =>
    intro s w v g h r gone
    have hgone : SameWork s gone := ⟨rfl, rfl⟩
    refine ⟨fun hw hn => ?_, fun hw hn => ?_, fun a b c d hw hn => ?_, fun a b c d hw hn => ?_⟩
    · refine h.makes none rfl (congrArg (·, none) ((tlbinvBody_first hw).trans ?_)) hgone
      rw [putWave_invRange, invalidate_putWave]
      exact if_pos hn
    · refine h.waitsHere none rfl (congrArg (·, none) ((tlbinvBody_first hw).trans ?_)) h.v_here
      rw [putWave_invRange, invalidate_putWave]
      exact if_neg hn
    · exact h.doesNothing none rfl (congrArg (·, none) ((tlbinvBody_again hw).trans (if_pos hn)))
    · exact h.waitsHere none rfl (congrArg (·, none) ((tlbinvBody_again hw).trans (if_neg hn))) h.v_here
  case replay => exact fun s w v g h => ⟨h.replayNone, fun x => h.replayFound⟩

end Sys2Proof.Machine
end

section
/-! PROOFS. VRSEED (R205). -/

namespace Sys2Proof.Machine

/-! ### Its word -/

/-- OPC is the highest field of an instruction word (R124). -/
theorem encode_opc {i : Instr} {r : Raw} {w : W96} {l : Option W96} (hr : rawOf i = some r) (he : encode i = some (w, l)) :
    w.extractLsb' 86 10 = r.opc := by
  simp only [encode, hr, Option.some.injEq, Prod.mk.injEq] at he
  obtain ⟨rfl, -⟩ := he
  exact congrArg Raw.opc (unpack_pack r)

/-- What the check of VRSEED asks of the fields that R205 names. -/
theorem vrseed_fields {g : GenW} (h : (Instr.vrseed g).wellFormed = true) :
    g.hdr.msk = 0 ∧ g.hdr.typ = .b32 ∧ g.dst = .v 0 ∧ isSSrc g.a = true ∧ isSSrc g.b = true := by
  simp only [Instr.wellFormed, legal, okGen, specVrseed, hdrOk, unused, Bool.and_eq_true, beq_iff_eq, Bool.false_or] at h
  tauto

/-- A scalar source names no queue (R125, R127). -/
theorem isSSrc_ne_queue {o : Operand} (h : isSSrc o = true) (n : BitVec 2) : (o == .q n) = false := by
  cases o with
  | q m => cases h
  | _ => rfl

/-- Scalar sources name no queue twice. -/
theorem queuesOk_scalar {a b : Operand} (ha : isSSrc a = true) (hb : isSSrc b = true) : queuesOk [.v 0, a, b, .v 0] = true := by
  simp [queuesOk, isSSrc_ne_queue ha, isSSrc_ne_queue hb]

/-- Without L no source names the literal (R131). -/
theorem litOk_none {a b : Operand} (ha : isLit a = false) (hb : isLit b = false) : litOk plainHdr [.v 0, a, b, .v 0] = true := by
  simp only [litOk, plainHdr, litCount, List.countP_cons, ha, hb]
  rfl

/-- With L one source names the literal, and the other is not the immediate of its code (R131). -/
theorem litOk_some {o : Operand} (x : W64) (hlit : isLit o = false) (himm : o ≠ .imm 0x80) :
    litOk { plainHdr with lit := some x } [.v 0, .lit, o, .v 0] = true ∧ litOk { plainHdr with lit := some x } [.v 0, o, .lit, .v 0] = true := by
  simp only [litOk, litCount, List.countP_cons, List.all_cons, hlit, bne_iff_ne.2 himm]
  exact ⟨rfl, rfl⟩

/-- VRSEED of two scalar sources and no other field is legal where its literal is (R131, R205). -/
theorem wellFormed_vrseed {a b : Operand} {l : Option W64} (ha : isSSrc a = true) (hb : isSSrc b = true)
    (hl : litOk { plainHdr with lit := l } [.v 0, a, b, .v 0] = true) :
    (Instr.vrseed { plainGen with hdr := { plainHdr with lit := l }, a := a, b := b }).wellFormed = true := by
  simp only [Instr.wellFormed, legal, okGen, specVrseed, plainGen, ha, hb, hl, queuesOk_scalar ha hb]
  rfl

/-! ### Its effect -/

/-- VRSEED sets the key and the counter of the generator (R205). -/
theorem Issues.vrseed {s : State} {w v : Wave} {g : GenW} (h : Issues s w v (.vrseed g)) :
    Does s (.vrseed g) { v with regs := { v.regs with key := scalarOp s v g.hdr.lit g.a, ctr := scalarOp s v g.hdr.lit g.b } } := by
  refine h.doesPut none rfl ?_ rfl rfl rfl rfl
  simp only [putWave_scalarOp]

/-- Settles O5: the opcode and the fields that the check asks for, the operands with and without a literal, and the effect. -/
theorem generatorSeeded : Obligations.GeneratorSeeded := by
  unfold Obligations.GeneratorSeeded
  refine ⟨fun g w l he => encode_opc rfl he, fun g hg => vrseed_fields hg,
    fun a b ha hb hna hnb => wellFormed_vrseed (l := none) ha hb (litOk_none hna hnb), fun o x ho hlit himm => ?_, fun s w v g h => h.vrseed⟩
  obtain ⟨hfirst, hsecond⟩ := litOk_some x hlit himm
  exact ⟨wellFormed_vrseed rfl ho hfirst, wellFormed_vrseed ho rfl hsecond⟩

end Sys2Proof.Machine
end

section
/-! PROOFS. The vector integer group (R178 to R184). -/

namespace Sys2Proof.Machine

/-- One word for each lane, of a type that takes no pair, is a write of one register (R175). -/
theorem vres_single {t : Ty} (ht : tyWidth t ≠ 64) (d : Nat) (ls : List Nat) (f : Nat → Nat) :
    vres d t (ls.map (fun l => (l, f l))) = { v := [(d, ls.map (fun l => (l, w32 (f l))))] } := by
  simp only [vres, if_neg ht, List.map_map, Function.comp_def]

/-- The four products of VDP4 are added in order (R182). -/
theorem foldl_add_four (f : Nat → Int) (x : Int) : (List.range 4).foldl (fun y j => y + f j) x = x + f 0 + f 1 + f 2 + f 3 := rfl

/-- Settles O15: the element-wise instructions by the rule of elements, where VMIN and VMAX pick by the order of their type; the shifts and VSEL by the
rule of lane words, VCMP by the rule of compares, and VDP4 by the register that it writes. The read of a %lane operand in a packed type or as a shift
count is the model's choice (log 18). -/
theorem vectorIntegerCompletes : Obligations.VectorIntegerCompletes := by
  unfold Obligations.VectorIntegerCompletes
  refine ⟨?vmov, ?vadd, ?vsub, ?vmul, ?vmulh, ?vmad, ?vand, ?vor, ?vxor, ?vshl, ?vshr, ?vmin, ?vmax, ?vabs, ?vclz, ?vpopc, ?vbfe, ?vbfi, ?vsel,
    ?vcmp, ?vdp4⟩
  case vshl | vshr =>
    refine laneRule_of (fun _ _ => rfl) (fun s v g l => ?_) (fun _ => rfl)
    simp only [putWave_vword, putWave_laneWord]
  case vmin =>
    simp only [← pickLess_false]
    exact elemRule_of (fun _ _ => rfl) (fun _ => rfl)
  case vmax =>
    simp only [← pickLess_true]
    exact elemRule_of (fun _ _ => rfl) (fun _ => rfl)
  case vsel => exact laneRule_of (fun _ _ => rfl) (fun s v g l => putWave_vword ..) (fun _ => rfl)
  case vcmp => exact compareRule_of (fun _ _ => rfl) (fun _ => rfl)
  case vdp4 =>
    intro s w v g h sum ws hb
    refine h.vectorOnly (ws := ws) rfl ?_ hb
    simp only [putWave_laneWord, foldl_add_four, vres_single (show tyWidth .i32 ≠ 64 by decide)]
    rfl
  all_goals exact elemRule_of (fun _ _ => rfl) (fun _ => rfl)

end Sys2Proof.Machine
end

section
/-! PROOFS. BSET and BMAP (R208, R209). -/

namespace Sys2Proof.Machine

/-- The bound that BSET writes (R208). -/
def bsetBound (s : State) (v : Wave) (g : GenW) : Bound :=
  { fmt := g.hdr.typ, act := tyCode g.ty2, mn := w32 (boundVal s v g g.a), mx := w32 (boundVal s v g g.b) }

/-- A bound is that of the state that its wave was put back in. -/
@[simp] theorem putWave_boundVal (s : State) (v w : Wave) (g : GenW) (o : Operand) : boundVal (putWave s v) w g o = boundVal s w g o := by
  cases o <;> rfl

/-- BSET of bounds in order writes a bound register of the team (R208). -/
theorem Issues.bset {s : State} {w v : Wave} {g : GenW} (h : Issues s w v (.bset g))
    (hlo : valOf g.hdr.typ (boundVal s v g g.a) ≠ .nan) (hhi : valOf g.hdr.typ (boundVal s v g g.b) ≠ .nan)
    (hord : flt (valOf g.hdr.typ (boundVal s v g g.b)) (valOf g.hdr.typ (boundVal s v g g.a)) = false) :
    Makes s (.bset g) (modTeam s v.team (fun x => { x with bounds := setAt x.bounds (g.opx.toNat % 16) (bsetBound s v g) })) v := by
  refine h.makes none rfl ?_ ⟨rfl, rfl⟩
  simp only [putWave_boundVal, hlo, hhi, hord, Bool.false_eq_true, or_false, if_false]
  rfl

/-- BMAP of a range that fits the file changes the bindings of its registers alone (R209). -/
theorem Issues.bmap {s : State} {w v : Wave} {g : GenW} (h : Issues s w v (.bmap g)) (hfit : vNum g.a + src s v g g.b ≤ 256) :
    Does s (.bmap g) { v with regs := { v.regs with
      bmap := v.regs.bmap.filter (fun p => p.1 < vNum g.a || vNum g.a + src s v g g.b ≤ p.1)
        ++ (if bitAt g.opx.toNat 4 then [] else (List.range (src s v g g.b)).map (fun k => (vNum g.a + k, g.opx.toNat % 16))) } } := by
  refine h.doesPut none rfl ?_ rfl rfl rfl rfl
  simp only [putWave_src, if_neg (Nat.not_lt.2 hfit)]

/-- Settles O19: BSET changes its team alone, and BMAP its wave alone. -/
theorem boundInstructionsComplete : Obligations.BoundInstructionsComplete := by
  unfold Obligations.BoundInstructionsComplete
  exact ⟨fun s w v g h => h.bset, fun s w v g h => h.bmap⟩

end Sys2Proof.Machine
end

section
/-! PROOFS. VAPND where its core has no room for one more request (R8, R201). -/

namespace Sys2Proof.Machine

/-! ### A request that finds no room -/

/-- An access at issue whose core has no room for its request stalls (R8). -/
theorem placeAt_noRoom {s : State} {v : Wave} {k : AccKind} {n : Nat} {a : W64} {st : Site} (hl : locksDamaged s = false)
    (hr : resolve s v k .raw n a = .ok st) (hroom : coreRoom s v.core (oneAccess k .relaxed a st) = false) :
    placeAt s v k n a = .error (.stay s .stall) := by
  simp only [placeAt, hl, hr, hroom, Bool.not_false, Bool.or_true, Bool.false_eq_true, if_false, if_true]

/-- VAPND of a counter in a shelf stalls where its core has no room for its request. -/
theorem apndGo_noRoom {g : GenW} {s : State} {v : Wave} {sel : List Nat} {a : W64} {off : Nat} {st : Site} (hop : scalarOp s v g.hdr.lit g.a = a)
    (halign : a.toNat % 4 = 0) (hshelf : aperOf a = .shelf off) (hl : locksDamaged s = false)
    (hr : resolve s v (.atom .add) .raw 4 a = .ok st) (hroom : coreRoom s v.core (oneAccess (.atom .add) .relaxed a st) = false) :
    apndGo g s v sel = (.stay s .stall, none) := by
  simp only [apndGo, hop, halign, hshelf, placeAt_noRoom hl hr hroom, ne_eq, not_true_eq_false, Bool.not_true, Bool.false_eq_true, if_false]

/-! ### A word of a shelf just after an instruction -/

/-- A word of a team's shelf just after an instruction. -/
def shelfWordAfter (out : Host.Outcome State Fault Refusal) (team off : Nat) : Option Nat :=
  match out with
  | .next t => some (readNat t (.shelf team) off 4)
  | _ => none

/-- A word of a shelf is that of the teams. -/
theorem readNat_shelf {s t : State} (h : t.teams = s.teams) (team off n : Nat) : readNat t (.shelf team) off n = readNat s (.shelf team) off n := by
  simp only [readNat, getMem, getTeam, h]

/-- What an instruction does to its latches, or in waiting, leaves every team. -/
theorem spendLatch_teams (i : Instr) (s : State) : (spendLatch i s).teams = s.teams := by
  rw [spendLatch]
  split <;> rfl

theorem unpop_teams (i : Instr) (w : Wave) (s : State) : (unpop i w s).teams = s.teams := by
  rw [unpop]
  split <;> rfl

theorem stayAt_teams (s : State) (id : Nat) (wt : Wait) : (stayAt s id wt).teams = s.teams := rfl

/-- Where an instruction completes, the word is that of the state in which it does. -/
theorem shelfWordAfter_makes {s t : State} {i : Instr} {x : Wave} (h : Makes s i t x) (team off : Nat) :
    shelfWordAfter (Sys2Proof.Machine.exec i s) team off = some (readNat t (.shelf team) off 4) := by
  obtain ⟨l, -, hexec⟩ := h
  rw [hexec]
  exact congrArg some (readNat_shelf (spendLatch_teams ..) ..)

/-- Where it waits, the word is that of the state in which it waits. -/
theorem shelfWordAfter_waits {s t : State} {i : Instr} {id : Nat} {wt : Wait} (h : Waits s i t id wt) (team off : Nat) :
    shelfWordAfter (Sys2Proof.Machine.exec i s) team off = some (readNat t (.shelf team) off 4) := by
  obtain ⟨w, -, hexec⟩ := h
  rw [hexec]
  have hteams : (spendLatch i (stayAt (unpop i w t) id wt)).teams = t.teams := by rw [spendLatch_teams, stayAt_teams, unpop_teams]
  exact congrArg some (readNat_shelf hteams ..)

/-! ### A core whose 1,024 requests are outstanding -/

/-- A store of 32 lanes to the n-th 128 bytes of a page of host memory. -/
def hostStore (n : Nat) : Access :=
  { kind := .store, ty := .n32, order := .relaxed, scope := .s, wb := .none, vector := true, viaHandle := false,
    elems := (List.range 32).map (fun l => { lane := l, piece := 0, addr := w64 (0x10000 + 128 * n + 4 * l),
                                             site := .link .host (128 * n + 4 * l), data := 0, cmp := 0 }) }

/-- Its slip, none of its lanes performed yet. -/
def hostSlip (n : Nat) : Slip :=
  { tag := w32 n, pc := w64 (0x1000 + 12 * n), rcd := { iword := 0, a := 0, b := 0, c := 0, peer := 0, stream := 0, scope := 0 },
    lanes := maskBelow 32, op := .mem (hostStore n) [] true, orders := false, binds := [], bounds := [], fenced := true, handler := false,
    hr := false, held := false, openPark := false, fail := none, ended := false, delivered := false, desched := false }

/-- A wave of 32 lanes that has 32 such stores under way, and in s0 an address in its team's shelf. -/
def storingWave : Wave :=
  let w := setS (newWave 1 0 2 0 0 0 0 1 0 0 0 false noKernel 0 0) 0 0xFF00000000000040
  { w with regs := { w.regs with v := [List.replicate 32 0] }, ctl := { w.ctl with st := .ready },
           hz := { w.hz with tag := 32, slips := (List.range 32).map hostSlip } }

/-- The device after reset with that wave, about to issue, and its team. -/
def fullState : State :=
  { State.reset with waves := [storingWave], teams := [{ noTeam with id := 2, waves := [1], shelfSize := 4096 }], cur := .wave 1 }

/-- VAPND of every lane on the counter that s0 names. -/
def appendAll : GenW := { plainGen with hdr := { plainHdr with typ := .n32 }, a := .s 0, b := .k 0, c := .s 1 }

/-- The place of the counter. -/
def counterSite : Site := .loc (.shelf 2) 0x40

/-- Nothing holds the VAPND back before its effect. -/
theorem appendAll_issues : Issues fullState storingWave (freezeLatches storingWave) (.vapnd appendAll) := by
  refine ⟨rfl, rfl, by decide, rfl, rfl, rfl, rfl, rfl, rfl, rfl⟩

/-- Every lane is selected, the counter passes its checks, and the core has no room for a request. -/
theorem appendAll_counter : let v := freezeLatches storingWave
    lanes (maskOpd v appendAll.b &&& actOf v appendAll.hdr.msk) v.width = List.range 32
    ∧ scalarOp fullState v appendAll.hdr.lit appendAll.a = 0xFF00000000000040 ∧ aperOf 0xFF00000000000040 = .shelf 0x40
    ∧ resolve (putWave fullState v) v (.atom .add) .raw 4 0xFF00000000000040 = .ok counterSite
    ∧ coreRoom (putWave fullState v) v.core (oneAccess (.atom .add) .relaxed 0xFF00000000000040 counterSite) = false := by decide +kernel

/-- The VAPND waits, as a stalled issue. -/
theorem appendAll_waits :
    Waits fullState (.vapnd appendAll) (putWave fullState (freezeLatches storingWave)) storingWave.id .stall := by
  obtain ⟨hsel, hop, haper, hplace, hroom⟩ := appendAll_counter
  refine appendAll_issues.waits none rfl ?_ appendAll_issues.v_found rfl
  have hgo := apndGo_noRoom (g := appendAll) (sel := List.range 32) ((putWave_scalarOp ..).trans hop) (by decide) haper rfl hplace hroom
  rw [hsel]
  exact (if_neg (by decide)).trans hgo

/-- Refutes O18: a VAPND whose core has its 1,024 requests outstanding stalls (R8), and so adds nothing to its counter; the statement does not suppose
that the core has room for the counter's request, as `freeToGo` does of other accesses. -/
theorem not_vapndCompletes : ¬ Obligations.VapndCompletes := by
  unfold Obligations.VapndCompletes
  rintro ⟨-, happend⟩
  obtain ⟨hsel, hop, haper, hplace, -⟩ := appendAll_counter
  have hmakes := happend fullState storingWave (freezeLatches storingWave) appendAll 2 0x40 appendAll_issues
  simp only [hsel, hop, haper] at hmakes
  have hadds := hmakes (by simp) hplace rfl (by decide +kernel) (by decide +kernel) rfl (.inr (by decide +kernel)) trivial
  have hadded := shelfWordAfter_makes hadds 2 0x40
  have hkept := shelfWordAfter_waits appendAll_waits 2 0x40
  rw [hkept] at hadded
  exact absurd hadded (by decide +kernel)

end Sys2Proof.Machine
end

section
/-! PROOFS. Local accesses, and accesses whose elements fail checks (R221 to R227, R230, R231). -/

namespace Sys2Proof.Machine

/-- A local access that is neither held back nor left to a lazy read is performed with its results written, in any mode. -/
theorem issueAccess_performed {p t : State} {v : Wave} (rcd : OpRec) {a : Access} {via : Via} {md : StoreMode}
    (hm : md.hr = true → passed v (v.hz.tag - 1) = true) (hs : md.slot = none) (h : LocalTo p v a via t) :
    issueAccess p v rcd a via md = .done t := by
  obtain ⟨hl, hgo, hp, hw⟩ := h
  rw [issueAccess_ok hl.1 hgo.1 hgo.2.1 hl.ok, hl.notRemote]
  exact commit_local hl.notRemote hgo hm hs hp hw

/-- What each element of an access meets (R222). -/
def metBy (p : State) (v : Wave) (a : Access) (via : Via) : List Met := a.elems.map (fun e => (e, resolve p v a.kind via (elemSize a) e.addr))

/-- An access some element of which fails a check has elements. -/
theorem elems_of_minRank {p : State} {v : Wave} {a : Access} {via : Via} {r : Nat} (h : minRank (metBy p v a via) = some r) :
    a.elems.isEmpty = false := by
  cases ha : a.elems with
  | nil => simp [metBy, ha, minRank] at h
  | cons => rfl

/-- Outside handler mode the first failed check of an access raises its cause, and the access does nothing (R222). -/
theorem issueAccess_fails {p : State} {v : Wave} (rcd : OpRec) {a : Access} {via : Via} (md : StoreMode) {r : Nat} (hh : v.hz.handler = false)
    (hl : locksDamaged p = false) (hr : minRank (metBy p v a via) = some r) :
    issueAccess p v rcd a via md = .trap (heardBy p v (kWrites a.kind) (((metBy p v a via).filter isBad).map (·.1)))
      (checkTrap p a (metBy p v a via) md.block r) := by
  have hne := elems_of_minRank hr
  simp only [metBy] at hr ⊢
  simp only [issueAccess, hne, hl, hr, hh, Option.map_some, Bool.false_and, Bool.false_eq_true, if_false]

/-- An access that traps leaves the handle of its base as it is. -/
theorem withBase_trap {p t : State} {v : Wave} {h : Hdr} {o : Operand} {st : Bool} {b : W64} {via : Via} {upd : Option (Nat × Handle)}
    {e : PTrap} (hb : baseOf p v h o st = some (b, via, upd)) (k : W64 → Via → Out) (hk : k b via = .trap t e) :
    withBase p v h o st k = .trap t e := by
  cases o with
  | h n =>
    simp only [baseOf, withBase] at hb ⊢
    cases hu : useHandle p v (hreg v n.toNat) st with
    | base c lo hi x =>
      simp only [hu, Option.some.injEq, Prod.mk.injEq] at hb ⊢
      obtain ⟨rfl, rfl, -⟩ := hb
      rw [hk]
      cases x <;> rfl
    | stall => simp [hu] at hb
    | null | bad =>
      simp only [hu, Option.some.injEq, Prod.mk.injEq] at hb ⊢
      obtain ⟨rfl, rfl, -⟩ := hb
      exact hk
  | _ =>
    cases hb
    exact hk

section
variable {i : Instr} {m : Wave → MemOp} (he : ∀ s, Sys2Proof.Machine.exec i s = issueR i s (fun s v => (memBody i (m v) s v, none)))
include he

/-- The rule of local accesses. -/
theorem localRule : LocalRule i m := by
  intro s w v b via upd h p a hb
  refine ⟨fun hn => ?_, fun t hm hs ht => ?_⟩
  · exact h.endsKept none (he s) (congrArg (·, none) (memBody_done hb (issueAccess_none _ _ _ hn)))
  · exact h.finishes none (he s) (congrArg (·, none) (memBody_done hb (issueAccess_performed _ hm hs ht)))

/-- The rule of accesses that fail checks. -/
theorem checkRule : CheckRule i m := by
  intro s w v b via upd r h p a hb hh hl met hr
  exact h.traps none (he s) (congrArg (·, none) (withBase_trap hb _ (issueAccess_fails _ _ hh hl hr)))

end

/-- Settles O29: each memory instruction is its access, by the rule of local accesses. That an access is performed at one moment, its issue, is the
model's choice (log 9). -/
theorem localAccessCompletes : Obligations.LocalAccessCompletes := by
  unfold Obligations.LocalAccessCompletes
  exact ⟨fun _ => localRule fun _ => rfl, fun _ => localRule fun _ => rfl, fun _ => localRule fun _ => rfl, fun _ => localRule fun _ => rfl,
    fun _ => localRule fun _ => rfl, fun _ => localRule fun _ => rfl, fun _ => localRule fun _ => rfl, fun _ => localRule fun _ => rfl,
    fun _ => localRule fun _ => rfl⟩

/-- Settles O33: each memory instruction is its access, by the rule of accesses that fail checks. The model's choices: LANES reads 0 in the scalar form
(log 36), FADDR of a lane's block is the block's (log 71), and what the host has refused of the failing pages is forgotten (log 92). -/
theorem accessCheckTraps : Obligations.AccessCheckTraps := by
  unfold Obligations.AccessCheckTraps
  exact ⟨fun _ => checkRule fun _ => rfl, fun _ => checkRule fun _ => rfl, fun _ => checkRule fun _ => rfl, fun _ => checkRule fun _ => rfl,
    fun _ => checkRule fun _ => rfl, fun _ => checkRule fun _ => rfl, fun _ => checkRule fun _ => rfl, fun _ => checkRule fun _ => rfl,
    fun _ => checkRule fun _ => rfl⟩

end Sys2Proof.Machine
end

section
/-! PROOFS. Accesses to a named peer (R234 to R237). -/

namespace Sys2Proof.Machine

/-- The access of a peer instruction to the elements of some of its lanes. -/
def peerAccess (m : PeerOp) (l : List (Elem × W64)) : Access :=
  { kind := m.kind, ty := m.hdr.typ, order := m.order, scope := m.scope, wb := m.wb, vector := m.vec, viaHandle := false, elems := l.map (·.1) }

section
variable {i : Instr} {m : PeerOp} {s : State} {v : Wave} (ht : peerTrap m (peerElems s v i m) = none)
include ht

/-- A peer instruction of no lane changes nothing. -/
theorem peerBody_none (hl : peerElems s v i m = []) : peerBody i m s v = .done s := by
  rw [hl] at ht
  simp only [peerBody, hl, ht, List.isEmpty_nil, if_true]

/-- A peer instruction whose every lane passes its checks is its access, which is failable. -/
theorem peerBody_sends (hl : peerElems s v i m ≠ []) (hgo : mayGo s v (peerAccess m (peerElems s v i m)) m.mode) :
    peerBody i m s v = .done (sentFrom s v i (peerAccess m (peerElems s v i m)) m.mode) := by
  rw [← sentFrom_eq hgo]
  simp only [peerBody, ht, List.isEmpty_iff, if_neg hl, peerAccess]

end

/-- The rule of accesses to a named peer. -/
theorem peerRule {i : Instr} {m : Wave → PeerOp} (he : ∀ s, Sys2Proof.Machine.exec i s = issueR i s (fun s v => (peerBody i (m v) s v, none))) :
    PeerRule i m := by
  intro s w v h p l a ht
  refine ⟨fun hl => ?_, fun hl hgo => ?_⟩
  · exact h.doesNothing none (he s) (congrArg (·, none) (peerBody_none ht hl))
  · exact h.finishes none (he s) (congrArg (·, none) (peerBody_sends ht hl hgo))

/-- Settles O31: each peer instruction is its access, by the rule of accesses to a named peer. -/
theorem peerAccessCompletes : Obligations.PeerAccessCompletes := by
  unfold Obligations.PeerAccessCompletes
  exact ⟨fun _ => peerRule fun _ => rfl, fun _ => peerRule fun _ => rfl, fun _ => peerRule fun _ => rfl, fun _ => peerRule fun _ => rfl,
    fun _ => peerRule fun _ => rfl⟩

end Sys2Proof.Machine
end

section
/-! PROOFS. NPUT, NGET and NATOM, NFLUSH and WREV (R238 to R241). -/

namespace Sys2Proof.Machine

/-! ### What the network's state keeps -/

@[simp] theorem setMem_net (s : State) (sp : Space) (m : Memory) : (setMem s sp m).net = s.net := by cases sp <;> rfl

@[simp] theorem noteStack_net (s : State) (sp : Space) (a n : Nat) : (noteStack s sp a n).net = s.net := by cases sp <;> rfl

@[simp] theorem clearPoison_net (s : State) (sp : Space) (l : List Nat) : (clearPoison s sp l).net = s.net := by
  unfold clearPoison
  split <;> rfl

@[simp] theorem writeRange_net (s : State) (sp : Space) (a : Nat) (l : List Byte) : (writeRange s sp a l).net = s.net := by
  simp only [writeRange, writeBytes, clearPoison_net, noteStack_net, setMem_net]

@[simp] theorem connPut_net (s : State) (conn off n x : Nat) : (connPut s conn off n x).net = s.net := writeRange_net ..

@[simp] theorem connSerial_net (s : State) (conn : Nat) : (connSerial s conn).1.net = s.net := by
  by_cases hk : connNat s conn 0x30 8 = 0 <;> simp [connSerial, hk]

/-- A context brought into the cache leaves the messages as they are. -/
theorem cacheConn_msgs {s t : State} {conn : Nat} (h : cacheConn s conn = some t) : t.net.msgs = s.net.msgs := by
  simp only [cacheConn] at h
  split at h
  · cases h; rfl
  · split at h
    · cases h; rfl
    · split at h
      · cases h; rfl
      · cases h

/-- So does a context brought into the cache where it finds room. -/
theorem cached_msgs (s : State) (conn : Nat) : ((cacheConn s conn).getD s).net.msgs = s.net.msgs := by
  cases hc : cacheConn s conn with
  | none => rfl
  | some t => exact cacheConn_msgs hc

theorem addMsg_msgs (s : State) (m : NetMsg) : (addMsg s m).net.msgs = s.net.msgs ++ [m] := rfl

/-- A request that leaves changes none of the device's messages, and of its own only whether it is ready and how its packets stand. -/
theorem getLeaving_msg (s : State) (m : NetMsg) :
    (getLeaving s m).1.net.msgs = s.net.msgs ∧ ∃ r ps, (getLeaving s m).2 = { m with ready := r, parts := ps } := by
  unfold getLeaving
  split
  · exact ⟨rfl, _, _, rfl⟩
  · rename_i t ht
    refine ⟨?_, _, _, rfl⟩
    rcases Bool.eq_false_or_eq_true m.ready with hr | hr
    · rw [if_pos hr] at ht
      cases ht
      rfl
    · rw [if_neg (by simp [hr])] at ht
      exact cacheConn_msgs ht

/-! ### Messages -/

/-- A message's wave with its tag and slip taken, and the numbers of the message and its packets (R46, R238). -/
def msgIssued (s : State) (v : Wave) (i : Instr) (l : List Byte) : State :=
  newSlip { s with nextId := s.nextId + 1 + (netParts (s.nextId + 1) s.ns (fld l 0x18 4)).length } v i (.net s.nextId)

/-- The connection's next message number taken then. -/
def msgNumbered (s : State) (v : Wave) (i : Instr) (l : List Byte) : State :=
  connPut (connSerial (msgIssued s v i l) (fld l 0 4)).1 (fld l 0 4) 0x20 4 ((connNat s (fld l 0 4) 0x20 4 + 1) % 2 ^ 32)

/-- The message as it is issued on a live connection, none of its packets sent. -/
def msgUnsent (s : State) (v : Wave) (i : Instr) (op : NetOp) (l : List Byte) : NetMsg :=
  { newMsg s v op l (netParts (s.nextId + 1) s.ns (fld l 0x18 4)) with
    serial := (connSerial (msgIssued s v i l) (fld l 0 4)).2, ready := op == .put && s.net.cache.contains (fld l 0 4) }

@[simp] theorem msgNumbered_net (s : State) (v : Wave) (i : Instr) (l : List Byte) : (msgNumbered s v i l).net = s.net := by
  simp only [msgNumbered, connPut_net, connSerial_net]
  rfl

section
variable {s : State} {v : Wave} {op : NetOp} {l : List Byte}

/-- On a live connection of its context a message is issued whole, and the request of an NGET or NATOM leaves where it can (R239, R328). -/
theorem sendMsg_live (i : Instr) (ha : connAlive s (fld l 0 4) = true) (hi : connAsid s (fld l 0 4) = (getCtx s v.ctx).asid) :
    sendMsg s v i op l =
      if op = .put then addMsg ((cacheConn (msgNumbered s v i l) (fld l 0 4)).getD (msgNumbered s v i l)) (msgUnsent s v i op l)
      else addMsg (getLeaving (msgNumbered s v i l) (msgUnsent s v i op l)).1 (getLeaving (msgNumbered s v i l) (msgUnsent s v i op l)).2 := by
  have hn : ¬ (!connAlive s (fld l 0 4) || connAsid s (fld l 0 4) != (getCtx s v.ctx).asid) = true := by simp [ha, hi]
  simp only [sendMsg, if_neg hn, msgNumbered, msgUnsent, msgIssued]

/-- On a live connection of its context a message joins those of the device: its descriptor's, but for the serial of the connection, whether its
context is cached, and how its packets stand (R238, R239, R328). -/
theorem sendMsg_joins (i : Instr) (ha : connAlive s (fld l 0 4) = true) (hi : connAsid s (fld l 0 4) = (getCtx s v.ctx).asid) :
    ∃ k r ps, (sendMsg s v i op l).net.msgs = s.net.msgs ++ [{ newMsg s v op l ps with serial := k, ready := r }] := by
  rw [sendMsg_live i ha hi]
  by_cases hop : op = .put
  · rw [if_pos hop, addMsg_msgs, cached_msgs, msgNumbered_net]
    exact ⟨_, _, _, rfl⟩
  · obtain ⟨hk, r, ps, hm⟩ := getLeaving_msg (msgNumbered s v i l) (msgUnsent s v i op l)
    rw [if_neg hop, addMsg_msgs, hk, hm, msgNumbered_net]
    exact ⟨_, r, ps, rfl⟩

/-- A message whose descriptor is good is issued where a slip is free (R238). -/
theorem netBody_sends {i : Instr} {g : GenW} (hl : anyRecAt s v (scalarOp s v g.hdr.lit g.a) 64 8 = .ok l) (hd : netDescOk op l = true)
    (hr : rangeBad s (getCtx s v.ctx) (op != .put) (2 ^ 18 + 2) (fld l 0x10 8) (fld l 0x18 4) = none) (hs : v.hz.slips.length < 128) :
    netBody i g op s v = .done (sendMsg s v i op l) := by
  have hroom : slipRoom v = true := decide_eq_true hs
  simp only [netBody, hl, hd, hr, hroom, Bool.not_true, Bool.false_eq_true, if_false]

end

/-- The rule of messages. -/
theorem netRule {k : GenW → Instr} {op : NetOp}
    (he : ∀ s g, Sys2Proof.Machine.exec (k g) s = issueR (k g) s (fun s v => (netBody (k g) g op s v, none))) : NetRule k op := by
  intro s w v g l h p hl hd hr hs t
  refine ⟨h.finishes none (he s g) (congrArg (·, none) (netBody_sends hl hd hr hs)), fun ha hi => ?_⟩
  obtain ⟨n, r, ps, hm⟩ := sendMsg_joins (op := op) (k g) ha hi
  exact ⟨_, hm, rfl, rfl, rfl, rfl, rfl, rfl, rfl, rfl, rfl, rfl, rfl⟩

/-! ### NFLUSH -/

/-- The puts and atomics of a wave on a connection, in the state that its entry holds, which a flush covers (R240, log 95). -/
def flushIds (s : State) (v : Wave) (conn : Nat) : List Nat :=
  (s.net.msgs.filter (fun m => m.wave == v.id && m.conn == conn && m.serial == connNat s conn 0x30 8 && (m.op == .put || m.op == .atom))).map (·.id)

/-- A flush that has taken its tag and slip. -/
def flushIssued (g : GenW) (s : State) (v : Wave) (conn : Nat) : State := newSlip s v (.nflush g) (.flush conn (flushIds s v conn))

/-- A connection that a wave may flush: one of the device's, alive, and of its context (R240). -/
def flushable (s : State) (v : Wave) (conn : Nat) : Prop := conn < 2 ^ 20 ∧ connAlive s conn = true ∧ connAsid s conn = (getCtx s v.ctx).asid

/-- The effect of NFLUSH (R240). -/
def nflushBody (g : GenW) (s : State) (v : Wave) : Out :=
  let x := (scalarOp s v g.hdr.lit g.a).toNat
  if !slipRoom v then .stay s .stall
  else if 2 ^ 20 ≤ x ∨ !connAlive s x ∨ connAsid s x ≠ (getCtx s v.ctx).asid then .done (slipFail (flushIssued g s v x) v.id v.hz.tag 0x11 0 0)
  else .done (flushAll (flushIssued g s v x) x)

theorem execNflush_eq (g : GenW) (s : State) :
    Sys2Proof.Machine.exec (.nflush g) s = issueR (.nflush g) s (fun s v => (nflushBody g s v, none)) := rfl

theorem flushable_iff {s : State} {v : Wave} {x : Nat} :
    flushable s v x ↔ ¬ (2 ^ 20 ≤ x ∨ (!connAlive s x) = true ∨ connAsid s x ≠ (getCtx s v.ctx).asid) := by
  simp only [flushable, not_or, Nat.not_le, Bool.not_eq_true', Bool.not_eq_false, not_not]

section
variable {g : GenW} {s : State} {v : Wave} {x : Nat} (hx : (scalarOp s v g.hdr.lit g.a).toNat = x) (hs : v.hz.slips.length < 128)
include hx hs

theorem nflushBody_flushes (h : flushable s v x) : nflushBody g s v = .done (flushAll (flushIssued g s v x) x) := by
  have hroom : slipRoom v = true := decide_eq_true hs
  simp only [nflushBody, hx, hroom, Bool.not_true, Bool.false_eq_true, if_false, if_neg (flushable_iff.mp h)]

theorem nflushBody_fails (h : ¬ flushable s v x) :
    nflushBody g s v = .done (slipFail (flushIssued g s v x) v.id v.hz.tag 0x11 0 0) := by
  have hroom : slipRoom v = true := decide_eq_true hs
  rw [flushable_iff, not_not] at h
  simp only [nflushBody, hx, hroom, Bool.not_true, Bool.false_eq_true, if_false, if_pos h]

end

/-! ### WREV -/

/-- A window of a wave's ASID that is valid (R241). -/
def ownWindow (s : State) (v : Wave) (n : Nat) : Prop :=
  n < 65536 ∧ readNat s .hbm (winAt s n + 0x17) 1 % 2 = 1 ∧ readNat s .hbm (winAt s n + 0x10) 2 = (getCtx s v.ctx).asid

/-- The generation that follows that of a window (R241). -/
def nextGen (s : State) (n : Nat) : Nat := (readNat s .hbm (winAt s n + 0x14) 2 + 1) % 65536

/-- A window of the next generation. -/
def revoked (s : State) (n : Nat) : State := writeRange s .hbm (winAt s n + 0x14) (natToBytes 2 (nextGen s n))

/-- The effect of WREV (R241). -/
def wrevBody (g : GenW) : Body := fun s v =>
  let n := (scalarOp s v g.hdr.lit g.a).toNat
  if 65536 ≤ n ∨ readNat s .hbm (winAt s n + 0x17) 1 % 2 = 0 ∨ readNat s .hbm (winAt s n + 0x10) 2 ≠ (getCtx s v.ctx).asid then
    writeOut s v { s := [(sNum g.dst, BitVec.allOnes 64)] } g.hdr.nwb
  else writeOut (revoked s n) v { s := [(sNum g.dst, w64 (nextGen s n))] } g.hdr.nwb

theorem execWrev_eq (g : GenW) (s : State) : Sys2Proof.Machine.exec (.wrev g) s = issueR (.wrev g) s (wrevBody g) := rfl

theorem ownWindow_iff {s : State} {v : Wave} {n : Nat} : ownWindow s v n ↔ ¬ (65536 ≤ n ∨ readNat s .hbm (winAt s n + 0x17) 1 % 2 = 0
    ∨ readNat s .hbm (winAt s n + 0x10) 2 ≠ (getCtx s v.ctx).asid) := by
  simp only [ownWindow, not_or, Nat.not_le, Nat.mod_two_ne_zero, not_not]

section
variable {g : GenW} {s : State} {v : Wave} {n : Nat} (hx : (scalarOp s v g.hdr.lit g.a).toNat = n)
include hx

theorem wrevBody_revokes (h : ownWindow s v n) :
    wrevBody g s v = writeOut (revoked s n) v { s := [(sNum g.dst, w64 (nextGen s n))] } g.hdr.nwb := by
  simp only [wrevBody, hx, if_neg (ownWindow_iff.mp h)]

theorem wrevBody_refuses (h : ¬ ownWindow s v n) : wrevBody g s v = writeOut s v { s := [(sNum g.dst, BitVec.allOnes 64)] } g.hdr.nwb := by
  rw [ownWindow_iff, not_not] at h
  simp only [wrevBody, hx, if_pos h]

end

/-- A write of a page's space goes beside the waves. -/
theorem writeRange_putWave {sp : Space} (h : pageSpace sp = true) (s : State) (v : Wave) (a : Nat) (l : List Byte) :
    writeRange (putWave s v) sp a l = putWave (writeRange s sp a l) v := by
  have hclear (t : State) (offs : List Nat) : clearPoison (putWave t v) sp offs = putWave (clearPoison t sp offs) v := by
    simp only [clearPoison, apply_ite (putWave · v), putWave_poison]
    rfl
  have hbytes : writeBytes (putWave s v) sp a l = putWave (writeBytes s sp a l) v := match sp, h with
    | .hbm, _ | .cxl, _ | .host, _ => rfl
  rw [writeRange, hbytes, hclear]
  rfl

/-- An effect in its wave and in the state outside the waves and contexts. -/
theorem Issues.makesWith {s t : State} {w v x : Wave} {i : Instr} {f : Body} {l : Option Latch} (h : Issues s w v i)
    (he : Sys2Proof.Machine.exec i s = issueR i s f) (hf : f (putWave s v) v = (.done (putWave t x), l)) (ht : SameWork s t)
    (hid : x.id = v.id) (hctl : x.ctl = v.ctl) (hctx : x.ctx = v.ctx) (hsc : x.scope = v.scope) : Makes s i t x := by
  have hx : findWave (putWave t x) v.id = some x := by
    rw [h.v_id]
    exact findWave_putWave ((ht.findWave _).trans h.found) (hid.trans h.v_id)
  obtain ⟨y, m, hy, hm, hexec⟩ := h.endsAt l he hf hx (fun n => ht.getCtx n) hctl hctx hsc
  obtain rfl : x = y := Option.some.inj (hx.symm.trans hy)
  exact ⟨m, hm, by rw [hexec, putWave_putWave _ _ _ (stepPast_id _ _ _).symm]⟩

section
variable {s : State} {w v : Wave} {g : GenW} (h : Issues s w v (.wrev g))
include h

/-- WREV of a window of the wave's ASID writes its next generation, and gives it (R241). -/
theorem Issues.wrev (hm : ownWindow s v (scalarOp s v g.hdr.lit g.a).toNat) :
    let n := (scalarOp s v g.hdr.lit g.a).toNat
    Makes s (.wrev g) (revoked s n) (wroteS g.hdr.nwb v (sNum g.dst) (w64 (nextGen s n))) := by
  intro n
  have hput : revoked (putWave s v) n = putWave (revoked s n) v := writeRange_putWave rfl ..
  have hb := wrevBody_revokes (s := putWave s v) (congrArg BitVec.toNat (putWave_scalarOp ..)) hm
  rw [writeOut_scalar, hput, putWave_putWave _ _ _ (wroteS_id ..).symm] at hb
  exact h.makesWith (execWrev_eq g s) hb (writeRange_sameWork s rfl ..) (wroteS_id ..) (wroteS_ctl ..) (wroteS_ctx ..) (wroteS_scope ..)

/-- WREV of another window gives all ones, and changes nothing else (R241). -/
theorem Issues.wrevRefused (hm : ¬ ownWindow s v (scalarOp s v g.hdr.lit g.a).toNat) :
    Does s (.wrev g) (wroteS g.hdr.nwb v (sNum g.dst) (BitVec.allOnes 64)) :=
  h.scalarOnly (execWrev_eq g s) (wrevBody_refuses (s := putWave s v) (congrArg BitVec.toNat (putWave_scalarOp ..)) hm)

end

/-- Settles O37: the messages by their rule, NFLUSH by whether its connection may be flushed, and WREV by whether the window is the wave's. That NFLUSH
goes by the serial of the connection's entry (log 95), and that WREV completes in its own step (log 32), are the model's choices. -/
theorem networkOperationsComplete : Obligations.NetworkOperationsComplete := by
  unfold Obligations.NetworkOperationsComplete
  refine ⟨netRule fun _ _ => rfl, netRule fun _ _ => rfl, netRule fun _ _ => rfl, ?nflush, ?wrev⟩
  case nflush =>
    intro s w v g h hs p x ids
    refine ⟨fun hlt ha hi => ?_, fun hbad => ?_⟩
    · exact h.finishes none (execNflush_eq g s) (congrArg (·, none) (nflushBody_flushes rfl hs ⟨hlt, ha, hi⟩))
    · refine h.finishes none (execNflush_eq g s) (congrArg (·, none) (nflushBody_fails rfl hs ?_))
      rintro ⟨hlt, ha, hi⟩
      rcases hbad with hle | hdead | hother
      · exact absurd hlt (Nat.not_lt.2 hle)
      · exact Bool.false_ne_true (hdead.symm.trans ha)
      · exact hother hi
  case wrev => exact fun s w v g h => ⟨h.wrev, h.wrevRefused⟩

end Sys2Proof.Machine
end

section
/-! PROOFS. The events of the network (R239, R240, R326 to R330). -/

namespace Sys2Proof.Machine

/-! ### Arrivals -/

section
variable {s : State} {p : NetPacket}

/-- A packet whose context is cached is processed (R327). -/
theorem netPacketArrival_placed {s1 : State} (ht : p.tagOk = true) (hc : s.net.cache.contains p.conn = true) (h1 : cacheConn s p.conn = some s1) :
    execNetPacketArrival p s = .next (netPlace s1 p) := by
  simp only [execNetPacketArrival, ht, hc, h1, Bool.not_true, Bool.false_eq_true, if_false, if_true, Option.getD_some]

/-- A packet whose context is not cached is parked where the buffer has room (R329). -/
theorem netPacketArrival_parks (ht : p.tagOk = true) (hc : s.net.cache.contains p.conn = false) : execNetPacketArrival p s = .next (netPark s p) := by
  simp only [execNetPacketArrival, ht, hc, Bool.not_true, Bool.false_eq_true, if_false]

/-- The packets parked for a connection are processed, in their order, once its context is cached (R329). -/
theorem netContextFetchDone_cached {s1 : State} {conn : Nat} (hp : s.net.parked.filter (fun p => p.conn == conn) ≠ [])
    (h1 : cacheConn s conn = some s1) : execNetContextFetchDone conn s = .next ((s.net.parked.filter (fun p => p.conn == conn)).foldl netPlace
      { s1 with net := { s1.net with parked := s1.net.parked.filter (fun p => p.conn != conn) } }) := by
  simp only [execNetContextFetchDone, List.isEmpty_iff, if_neg hp, h1]

end

/-! ### Answers -/

section
variable {s : State} {a : NetAnswer}

/-- An answer that matches nothing only marks congestion (R326). -/
theorem netAck_unmatched (h : answered s a = none) : execNetAck a s = .next (heardAnswer s a) := by simp only [execNetAck, h]

theorem netNak_unmatched (h : answered s a = none) : execNetNak a s = .next (heardAnswer s a) := by simp only [execNetNak, h]

section
variable {m : NetMsg} {q : NetPart} (hm : answered s a = some m) (hq : m.parts.find? (fun p => p.off == a.off && p.sent && !p.acked) = some q)
include hm hq

/-- The acknowledgement of a packet of an NPUT (R239). -/
theorem netAck_put (ho : m.op = .put) : execNetAck a s
    = .next (flushAll (modMsg (windowAck (heardAnswer s a) m.conn) m.id (fun _ => ackPart m a.off)) m.conn) := by
  simp only [execNetAck, hm, hq, ho]

/-- The response of an NGET or NATOM (R239). -/
theorem netAck_got (ho : m.op = .get ∨ m.op = .atom) : execNetAck a s = .next (netGot (heardAnswer s a) m q a.data) := by
  rcases ho with ho | ho <;> simp only [execNetAck, hm, hq, ho]

/-- A nak for a packet that is not acknowledged, by its status (R329, R330). -/
theorem netNak_matched : execNetNak a s =
    if a.status = 1 then .next (msgFail (modMsg (heardAnswer s a) m.id (fun x => ackPart x a.off)) m 0x10)
    else .next (modMsg (heardAnswer s a) m.id (fun x => { x with parts := x.parts.map (fun p =>
      if p.off = a.off then { p with wanted := true, last := s.ns } else p) })) := by
  have hopen := List.find?_some hq
  have hany : m.parts.any (fun p => p.off == a.off && p.sent && !p.acked) = true :=
    List.any_eq_true.mpr ⟨q, List.mem_of_find?_eq_some hq, hopen⟩
  simp only [execNetNak, hm, hany, Bool.not_true, Bool.false_eq_true, if_false]

end

end

/-! ### The data of a response -/

section
variable {s : State} {m : NetMsg} {q : NetPart} {data : List Byte}

/-- A response to a host page that is not translated asks for it, and comes again (R307, log 92). -/
theorem netGot_asks (h : ctxAsks s (getCtx s m.ctx) (m.laddr + w64 q.off) q.len true ≠ []) :
    netGot s m q data = askAll s (getCtx s m.ctx) (ctxAsks s (getCtx s m.ctx) (m.laddr + w64 q.off) q.len true) := by
  have hne : (!(ctxAsks s (getCtx s m.ctx) (m.laddr + w64 q.off) q.len true).isEmpty) = true := by simpa using h
  simp only [netGot, hne, if_true]

section
variable (h : ctxAsks s (getCtx s m.ctx) (m.laddr + w64 q.off) q.len true = [])
include h

/-- A response is placed at LADDR, and with the last one its message is done (R239). -/
theorem netGot_placed {s2 : State}
    (hw : ownerWrite (modMsg s m.id (fun _ => ackPart m q.off)) (getCtx s m.ctx) (m.laddr + w64 q.off) (data.take q.len) = some s2) :
    netGot s m q data = flushAll (if (ackPart m q.off).parts.all (·.acked) then msgLocal (windowAck s2 m.conn) (ackPart m q.off) else s2) m.conn := by
  simp only [netGot, h, List.isEmpty_nil, Bool.not_true, Bool.false_eq_true, if_false, hw]

/-- A response that has no place fails its message (R309, log 94). -/
theorem netGot_lost
    (hw : ownerWrite (modMsg s m.id (fun _ => ackPart m q.off)) (getCtx s m.ctx) (m.laddr + w64 q.off) (data.take q.len) = none) :
    netGot s m q data = msgFail (heardAll (modMsg s m.id (fun _ => ackPart m q.off)) (getCtx s m.ctx) (m.laddr + w64 q.off) q.len true)
      (ackPart m q.off) (lostCause (modMsg s m.id (fun _ => ackPart m q.off)) (getCtx s m.ctx) (m.laddr + w64 q.off) q.len true) := by
  simp only [netGot, h, List.isEmpty_nil, Bool.not_true, Bool.false_eq_true, if_false, hw]

end

end

/-! ### Resends -/

section
variable {s : State} {m : NetMsg} {p : NetPart} (hf : findPart s p.id = some (m, p)) (ha : p.acked = false) (hm : m.failure = none)
include hf ha hm

/-- A packet that was turned away is resent when 4 µs have passed (R329). -/
theorem netParkResend_due (hw : p.wanted = true) (ht : p.last + 4000 ≤ s.ns) : execNetParkResend p.id s = .next (resend s m p) := by
  simp only [execNetParkResend, hf, ha, hm, hw, ht, Option.isNone_none, Bool.not_false, Bool.and_self, decide_true, if_true]

/-- A packet without an acknowledgement is resent when 40 µs have passed (R330). -/
theorem netRetransmitTimeout_due (hs : p.sent = true) (ht : p.last + 40000 ≤ s.ns) : execNetRetransmitTimeout p.id s = .next (resend s m p) := by
  simp only [execNetRetransmitTimeout, hf, ha, hm, hs, ht, Option.isNone_none, Bool.not_false, Bool.and_self, decide_true, if_true]

end

/-- After sixteen resends of a packet its connection dies (R330). -/
theorem resend_dead {s : State} {m : NetMsg} {p : NetPart} (h : 16 ≤ p.resent) : resend s m p = connDead s m.conn := if_pos h

/-- A packet of an NPUT is resent with its data read again (R330). -/
theorem resend_put {s : State} {m : NetMsg} {p : NetPart} {l : List Byte} (h : p.resent < 16) (ho : m.op = .put) (hd : partData s m p = .data l) :
    resend s m p = modPart s m.id p.id (fun q => { q with resent := q.resent + 1, wanted := false, last := s.ns, data := l }) := by
  have hop : (m.op != .put) = false := by simp [ho]
  simp only [resend, if_neg (Nat.not_le.2 h), hop, Bool.false_eq_true, if_false, hd]

/-- Settles O57: each clause is one branch of its event, of the placement of a response, or of a resend. Besides the choices that the statement
names, that a message fails whose data has lost its place is the model's (log 94). -/
theorem networkEventsComplete : Obligations.NetworkEventsComplete := by
  unfold Obligations.NetworkEventsComplete
  refine ⟨?arrival, fun s s1 conn => netContextFetchDone_cached, ?answers, ?unmatched, fun s conn => ⟨rfl, rfl⟩, ?resends⟩
  case arrival =>
    intro s p ht
    refine ⟨fun s1 => netPacketArrival_placed ht, fun hc hroom => ?_, fun hc hfull => ?_⟩
    · exact (netPacketArrival_parks ht hc).trans (congrArg _ (if_pos hroom))
    · exact (netPacketArrival_parks ht hc).trans (congrArg _ (if_neg (Nat.not_le.2 hfull)))
  case answers =>
    intro s a m q hm hq s0
    refine ⟨netAck_put hm hq, fun ho => ?_, fun h1 => ?_, fun h1 => ?_⟩
    · intro c b m1
      have hgot := netAck_got hm hq ho
      refine ⟨fun hask => ?_, fun s2 hask hw => ?_, fun hask hw => ?_⟩
      · exact hgot.trans (congrArg _ (netGot_asks hask))
      · exact hgot.trans (congrArg _ (netGot_placed hask hw))
      · exact hgot.trans (congrArg _ (netGot_lost hask hw))
    · exact (netNak_matched hm hq).trans (if_pos h1)
    · exact (netNak_matched hm hq).trans (if_neg h1)
  case unmatched => exact fun s a h => ⟨netAck_unmatched h, netNak_unmatched h, fun ha => if_pos ha⟩
  case resends =>
    intro s m p hf ha hm
    exact ⟨netParkResend_due hf ha hm, netRetransmitTimeout_due hf ha hm, resend_dead, fun l => resend_put⟩

end Sys2Proof.Machine
end

section
/-! PROOFS. COPY, COPYM and CHAIN (R242 to R247, R288 to R296). -/

namespace Sys2Proof.Machine

/-- An operation with room is registered and handed to its unit (R242). -/
theorem engIssue_room {s : State} {v : Wave} {kind : EngKind} {rs : List Range} (i : Instr) (comp : W64) (h : engRoom s v kind rs = true) :
    engIssue i kind comp rs s v = .done (engQueued s v i kind comp rs) := if_pos h

/-! ### COPY -/

section
variable {g : GenW} {s : State} {v : Wave} {src dst : Layout} {idx : Option Layout}

/-- COPY whose records are good is the copy of their layouts (R245, R291). -/
theorem copyBody_records (h : CopyRecords s v g src idx dst) : copyBody g s v = copyGo g s v src idx dst := by
  obtain ⟨⟨ld, hd, hld⟩, ⟨hb, rfl, l, ha, hl⟩ | ⟨hb, l1, l2, x, rfl, ha, hl1, hb2, hl2⟩⟩ := h
  · simp only [copyBody, layoutRec, addrOpd, hb, if_true, ha, hd, hl, hld]
  · simp only [copyBody, layoutRec, addrOpd, if_neg hb, ha, hb2, hd, hl1, hl2, hld, Option.map_some]

/-- No layout of a copy is skewed. -/
theorem copy_aligned (hs : layoutSkew src = false) (hi : ∀ x, idx = some x → layoutSkew x = false) (hd : layoutSkew dst = false) :
    ([some src, idx, some dst].filterMap id).find? layoutSkew = none := by
  rw [List.find?_eq_none]
  intro r hr
  simp only [List.mem_filterMap, List.mem_cons, List.not_mem_nil, or_false, id_eq, exists_eq_right] at hr
  rw [Bool.not_eq_true]
  rcases hr with hr | hr | hr
  · exact Option.some.inj hr ▸ hs
  · exact hi r hr.symm
  · exact Option.some.inj hr ▸ hd

/-- A copy of layouts that pass their checks, whose ranges and completion block are good, is issued (R245). -/
theorem copyGo_issues {r0 r1 r2 : Range} (hok : copyOk src idx dst = true) (hs : layoutSkew src = false)
    (hi : ∀ x, idx = some x → layoutSkew x = false) (hd : layoutSkew dst = false) (h1 : recRange s v (idx.getD src) false = .ok r1)
    (h0 : recRange s v src false = .ok r0) (h2 : recRange s v dst true = .ok r2) (hc : compCheck s v (scalarOp s v g.hdr.lit g.c) = .ok ()) :
    copyGo g s v src idx dst = engIssue (.copy g) (.copy src idx dst) (scalarOp s v g.hdr.lit g.c) [r1, r2] s v := by
  have haligned := copy_aligned hs hi hd
  cases idx with
  | none =>
    obtain rfl : r1 = r0 := Except.ok.inj (h1.symm.trans h0)
    simp only [copyGo, addrOpd, hok, haligned, h0, h2, hc, Bool.not_true, Bool.false_eq_true, if_false]
  | some x =>
    rw [Option.getD_some] at h1
    simp only [copyGo, addrOpd, hok, haligned, h1, h0, h2, hc, Bool.not_true, Bool.false_eq_true, if_false]

end

/-! ### COPYM -/

/-- COPYM of a good record whose range and landings are good is issued (R246). -/
theorem copymBody_issues {g : GenW} {s : State} {v : Wave} {l : List Byte} {src : Layout} {r : Range} {mask off : Nat}
    (hm : (scalarOp s v g.hdr.lit g.b).toNat = mask) (ho : (scalarOp s v g.hdr.lit g.dst).toNat = off)
    (hl : recAt s v (scalarOp s v g.hdr.lit g.a) 64 8 = .ok l) (hsrc : layoutOf l = some src) (hmask : mask < 2 ^ 16)
    (hs : layoutSkew src = false) (hr : recRange s v src false = .ok r)
    (hfit : ∀ q ∈ maskTeams s v mask, off + boxCount src * tySize src.ty ≤ q.2.shelfSize)
    (hc : compCheck s v (scalarOp s v g.hdr.lit g.c) = .ok ()) :
    copymBody g s v = engIssue (.copym g)
      (.multi src off ((maskTeams s v mask).map (·.2.id)) (if bitAt g.opx.toNat 4 then none else some (g.opx.toNat % 16)))
      (scalarOp s v g.hdr.lit g.c)
      (r :: (maskTeams s v mask).map (fun q => (LockKey.shelf q.2.id, off, off + boxCount src * tySize src.ty, true))) s v := by
  have hbad : (maskTeams s v mask).filter (fun p => decide (p.2.shelfSize < off + boxCount src * tySize src.ty)) = [] := by
    simp only [List.filter_eq_nil_iff, decide_eq_true_eq, Nat.not_lt]
    exact hfit
  simp only [copymBody, layoutRec, addrOpd, hm, ho, hl, hsrc, if_neg (Nat.not_le.2 hmask), hs, hr, hbad, hc, List.isEmpty_nil, Bool.not_true,
    Bool.false_eq_true, if_false]

/-! ### CHAIN -/

/-- CHAIN of a good descriptor whose streams and completion block are good is issued (R247, R296). -/
theorem chainBody_issues {g : GenW} {s : State} {v : Wave} {l : List Byte} {c : Chain} {rs : List Range}
    (hl : recAt s v (scalarOp s v g.hdr.lit g.a) 64 8 = .ok l) (hd : chainDesc l = some c)
    (ha : ∀ q ∈ chainStreams c, q.1.toNat % tySize q.2.1 = 0)
    (hr : allRanges ((chainStreams c).map (fun q => streamRange s v q.1 q.2.1 c.count q.2.2)) = .ok rs)
    (hc : compCheck s v (scalarOp s v g.hdr.lit g.c) = .ok ()) :
    chainBody g s v = engIssue (.chain g) (.chain c) (scalarOp s v g.hdr.lit g.c) rs s v := by
  have hnone : (chainStreams c).find? (fun p => p.1.toNat % tySize p.2.1 != 0) = none := by
    rw [List.find?_eq_none]
    exact fun q hq => by simp [ha q hq]
  simp only [chainBody, addrOpd, hl, hd, hnone, hr, hc]

/-- Settles O38: each instruction, its records, ranges and completion block good, is the issue of its operation. -/
theorem engineOperationsComplete : Obligations.EngineOperationsComplete := by
  unfold Obligations.EngineOperationsComplete
  refine ⟨?copy, ?copym, ?chain⟩
  case copy =>
    intro s w v g src idx dst r0 r1 r2 h p comp hrec hok hs hi hd h1 h0 h2 hc hroom
    refine h.finishes none rfl (congrArg (·, none) ?_)
    exact (copyBody_records hrec).trans ((copyGo_issues hok hs hi hd h1 h0 h2 hc).trans (engIssue_room _ _ hroom))
  case copym =>
    intro s w v g l src r h p comp mask off n ts kind rs hl hsrc hmask hs hr hfit hc hroom
    refine h.finishes none rfl (congrArg (·, none) ?_)
    exact (copymBody_issues rfl rfl hl hsrc hmask hs hr hfit hc).trans (engIssue_room _ _ hroom)
  case chain =>
    intro s w v g l c rs h p comp hl hd ha hr hc hroom
    refine h.finishes none rfl (congrArg (·, none) ?_)
    exact (chainBody_issues hl hd ha hr hc).trans (engIssue_room _ _ hroom)

end Sys2Proof.Machine
end

section
/-! PROOFS. CLOSE, WAITB, CADD and TRYW (R248 to R251). -/

namespace Sys2Proof.Machine

/-! ### CLOSE and WAITB -/

/-- A wave whose open batch is closed under the next number, a new one open (R248). -/
def closedBatch (v : Wave) : Wave :=
  { v with batchNo := v.batchNo + 1, batches := v.batches ++ [{ num := v.batchNo + 1 + 1, live := [], failed := false, aborted := false }] }

/-- CLOSE gives the number of the batch that it closes (R248). -/
theorem Issues.close {s : State} {w v : Wave} {g : GenW} (h : Issues s w v (.close g)) :
    Does s (.close g) (wroteS g.hdr.nwb (closedBatch v) (sNum g.dst) ((v.batchNo + 1).setWidth 64)) := by
  have hid : (wroteS g.hdr.nwb (closedBatch v) (sNum g.dst) ((v.batchNo + 1).setWidth 64)).id = v.id := wroteS_id ..
  have hb := writeOut_scalar (putWave s v) (closedBatch v) (sNum g.dst) ((v.batchNo + 1).setWidth 64) g.hdr.nwb
  rw [putWave_putWave _ _ _ hid.symm] at hb
  exact h.does _ rfl hb (hid.trans h.v_id) (congrArg Ctl.st (wroteS_ctl ..)) (wroteS_ctx ..) (wroteS_scope ..)

/-- What WAITB gives of the batches that it covers: bit 1 for a failure among them, bit 0 for an abort (R249). -/
def batchFlags (bs : List Batch) : Nat := (if bs.any (·.failed) then 2 else 0) + (if bs.any (·.aborted) then 1 else 0)

theorem batchFlags_eq (bs : List Batch) : 2 * b2n (bs.any (·.failed)) + b2n (bs.any (·.aborted)) = batchFlags bs := by
  cases hf : bs.any (·.failed) <;> cases ha : bs.any (·.aborted) <;> simp only [batchFlags, b2n, hf, ha] <;> rfl

/-- The effect of WAITB (R249). -/
def waitbBody (g : GenW) : Body := fun s v =>
  let n := w32 (scalarOp s v g.hdr.lit g.a).toNat
  let bs := waitBatches v n
  if bs.any (fun b => !b.live.isEmpty) then (.stay s (.waitb n), none)
  else writeOut s v { s := [(sNum g.dst, w64 (2 * b2n (bs.any (·.failed)) + b2n (bs.any (·.aborted))))] } g.hdr.nwb

theorem execWaitb_eq (g : GenW) (s : State) : Sys2Proof.Machine.exec (.waitb g) s = issueR (.waitb g) s (waitbBody g) := rfl

section
variable {s : State} {v : Wave} {g : GenW} {n : W32} (hn : w32 (scalarOp s v g.hdr.lit g.a).toNat = n)
include hn

/-- WAITB of batches with nothing live gives their flags. -/
theorem waitbBody_ended (h : ∀ b ∈ waitBatches v n, b.live = []) :
    waitbBody g s v = writeOut s v { s := [(sNum g.dst, w64 (batchFlags (waitBatches v n)))] } g.hdr.nwb := by
  have hlive : ¬ (waitBatches v n).any (fun b => !b.live.isEmpty) = true := by
    simp only [List.any_eq_true, not_exists, not_and]
    exact fun b hb => by simp [h b hb]
  simp only [waitbBody, hn, if_neg hlive, batchFlags_eq]

/-- WAITB of a batch with an operation live. -/
theorem waitbBody_live {b : Batch} (hb : b ∈ waitBatches v n) (h : b.live ≠ []) : waitbBody g s v = (.stay s (.waitb n), none) := by
  simp only [waitbBody, hn]
  exact if_pos (List.any_eq_true.2 ⟨b, hb, by simpa using h⟩)

end

/-! ### CADD -/

/-- The effect of CADD is its access (R250). -/
theorem execCadd_eq (g : GenW) (s : State) : Sys2Proof.Machine.exec (.cadd g) s
    = issueR (.cadd g) s (fun s v => (issueAccess s v (opRecOf s v (.cadd g)) (caddAccess s v g) .raw {}, none)) := rfl

/-- CADD of a counter on the device adds to it (R250). -/
theorem Issues.caddLocal {s t : State} {w v : Wave} {g : GenW} (h : Issues s w v (.cadd g))
    (ht : LocalTo (putWave s v) v (caddAccess (putWave s v) v g) .raw t) : Finishes s (.cadd g) v.id t :=
  h.finishes none (execCadd_eq g s) (congrArg (·, none) (issueAccess_performed _ nofun rfl ht))

/-- CADD of a counter beyond the device is sent (R250). -/
theorem Issues.caddFar {s : State} {w v : Wave} {g : GenW} {st : Site} (h : Issues s w v (.cadd g)) :
    let p := putWave s v
    let a := placed p v (caddAccess p v g) .raw
    resolve p v (.atom .add) .raw 8 (scalarOp p v g.hdr.lit g.a) = .ok st → a.elems.any remote = true → mayGo p v a {} →
    Finishes s (.cadd g) v.id (sentFrom p v (.cadd g) a {}) := by
  intro p a hst hr hgo
  refine h.finishes none (execCadd_eq g s) (congrArg (·, none) ?_)
  have hsize : elemSize (caddAccess p v g) = 8 := show tySize .n64 = 8 from rfl
  have hok : ∀ e ∈ (caddAccess p v g).elems, ∃ st, resolve p v (caddAccess p v g).kind .raw (elemSize (caddAccess p v g)) e.addr = .ok st := by
    intro e he
    rw [List.mem_singleton.1 he, hsize]
    exact ⟨st, hst⟩
  refine (issueAccess_ok (a := caddAccess p v g) (via := .raw) (List.cons_ne_nil _ _) hgo.1.1 hgo.1.2.1 hok).trans ?_
  exact (congrArg (commitAccess p v _ a _ · false) hr).trans (sentFrom_eq hgo)

/-! ### TRYW -/

/-- A counter that TRYW can read: it passes its checks at a place on the device or on a link, which neither poison, the crossbar nor the link keeps
from it (R251). -/
structure Readable (s : State) (v : Wave) (a : W64) (sp : Space) (o : Nat) : Prop where
  placed : placeAt s v .load 8 a .acquire = .ok (.loc sp o) ∨ placeAt s v .load 8 a .acquire = .ok (.link sp o)
  clean : isPoison s sp o = false
  permitted : forbidden s v.core sp o = false
  answered : linkRefuses s sp o 8 = false

/-- A read of TRYW that can be made is held against its target. -/
theorem trywRead_seen {s : State} {v : Wave} {a : W64} {sp : Space} {o d : Nat} {l : Option Nat} (target : W64) (h : Readable s v a sp o)
    (hl : l = none ∨ s.clk < d) : trywRead s v a target d l = trywSeen s v (readNat s sp o 8) target d := by
  have hlim : ¬ (l.isSome = true ∧ d ≤ s.clk) := by
    rintro ⟨hs, hd⟩
    rcases hl with rfl | hl
    · cases hs
    · exact absurd hl (Nat.not_lt.2 hd)
  obtain ⟨hp, hc, hf, ha⟩ := h
  rcases hp with hp | hp <;>
    simp only [trywRead, if_neg hlim, hp, hf, hc, ha, Bool.or_self, Bool.false_eq_true, if_false]

section
variable {s : State} {v : Wave} {x d : Nat} {target : W64}

/-- A counter that has reached its target ends TRYW. -/
theorem trywSeen_reached (h : target.toNat ≤ x) : trywSeen s v x target d = trywEnd s v true false := if_pos h

/-- So does the limit. -/
theorem trywSeen_over (h : x < target.toNat) (hd : d ≤ s.clk) : trywSeen s v x target d = trywEnd s v false false :=
  (if_neg (Nat.not_le.2 h)).trans (if_pos hd)

/-- Else TRYW is suspended. -/
theorem trywSeen_waits (h : x < target.toNat) (hd : s.clk < d) : trywSeen s v x target d = .stay s (.tryw target d (some s.clk)) :=
  (if_neg (Nat.not_le.2 h)).trans (if_neg (Nat.not_le.2 hd))

end

/-! ### TRYW at its issue -/

/-- Reads left unanswered change no wave and no context. -/
theorem forgetReads_sameWork (s : State) (id : Nat) : SameWork s (forgetReads s id) := by
  unfold forgetReads
  split <;> exact ⟨rfl, rfl⟩

@[simp] theorem forgetReads_clk (s : State) (id : Nat) : (forgetReads s id).clk = s.clk := by
  unfold forgetReads
  split <;> rfl

@[simp] theorem forgetReads_scalarOp (s : State) (id : Nat) (w : Wave) (lit : Option W64) (o : Operand) :
    scalarOp (forgetReads s id) w lit o = scalarOp s w lit o := by
  unfold forgetReads
  split
  · cases o <;> rfl
  · rfl

/-- TRYW at its issue forgets the reads of earlier ones and makes its first. -/
theorem trywBody_issue {g : GenW} {s : State} {v : Wave} (hw : ∀ a b c, v.ctl.wait ≠ .tryw a b c)
    (hl : (scalarOp s v g.hdr.lit g.c).toNat ≤ 4096) :
    trywBody g s v = trywRead (forgetReads s v.id) v (scalarOp s v g.hdr.lit g.a) (scalarOp s v g.hdr.lit g.b)
      (s.clk + (scalarOp s v g.hdr.lit g.c).toNat) none := by
  unfold trywBody
  split
  · exact absurd ‹_› (hw _ _ _)
  · exact if_neg (Nat.not_lt.2 hl)

section
variable {s : State} {w v : Wave} {g : GenW} {target : W64} {limit : Nat} {sp : Space} {o : Nat} (h : Issues s w v (.tryw g))
include h

/-- The wave of a TRYW, once the reads of earlier ones are forgotten. -/
theorem Issues.trywHere : findWave (forgetReads (putWave s v) v.id) v.id = some v := ((forgetReads_sameWork _ _).findWave _).trans h.v_here

/-- TRYW that ends at its issue, with its flags. -/
theorem Issues.trywEnds {z : Bool} (hb : trywBody g (putWave s v) v
      = .done (putWave (forgetReads (putWave s v) v.id) (withCC v (withFlags v.regs.cc z false false false)))) :
    Makes s (.tryw g) (forgetReads (putWave s v) v.id) (withCC v (withFlags v.regs.cc z false false false)) := by
  have hx : findWave (putWave (forgetReads (putWave s v) v.id) (withCC v (withFlags v.regs.cc z false false false))) v.id
      = some (withCC v (withFlags v.regs.cc z false false false)) := findWave_putWave h.trywHere rfl
  obtain ⟨y, m, hy, hm, he⟩ := h.endsAt none rfl (congrArg (·, none) hb) hx (fun n => (forgetReads_sameWork _ _).getCtx n) rfl rfl rfl
  obtain rfl := Option.some.inj (hx.symm.trans hy)
  exact ⟨m, hm, by rw [he, putWave_putWave _ _ _ (stepPast_id _ _ _).symm]⟩

end

/-! ### TRYW while it is suspended -/

/-- The instruction at a program counter is a legal one. -/
theorem legal_of_insAt {s : State} {v : Wave} {pc : W64} {i : Instr} (h : insAt s v pc = some i) : legal i = true := by
  unfold insAt at h
  split at h
  · obtain ⟨-, h⟩ := Option.ite_none_left_eq_some.1 h
    exact (raw_of_decode h).1
  · cases h

/-- A legal word of the general layout has the operands that its entry permits. -/
theorem okGen_ops {e : GenSpec} {w : GenW} (h : okGen e w = true) : e.dst w.dst = true ∧ e.a w.a = true ∧ e.b w.b = true ∧ e.c w.c = true := by
  simp only [okGen, Bool.and_eq_true] at h
  simp only [h, and_self]

/-- An operand that passes a test which refuses queues is none. -/
theorem ne_queue {p : Operand → Bool} {o : Operand} (hp : ∀ n, p (.q n) = false) (h : p o = true) : ∀ n, o ≠ .q n := by
  rintro n rfl
  rw [hp] at h
  cases h

/-- An instruction none of whose operands is a queue names no queue. -/
theorem qRegs_eq_nil {i : Instr} (h : ∀ o ∈ insOps i, ∀ n, o ≠ .q n) : qRegs i = [] := by
  refine List.flatMap_eq_nil_iff.2 fun o ho => ?_
  cases o with
  | q n => exact absurd rfl (h _ ho n)
  | _ => rfl

/-- A legal TRYW names no queue (R251). -/
theorem qRegs_tryw {g : GenW} (h : legal (.tryw g) = true) : qRegs (.tryw g) = [] := by
  obtain ⟨hd, ha, hb, hc⟩ := okGen_ops (e := specTryw) h
  refine qRegs_eq_nil ?_
  simp only [show insOps (.tryw g) = [g.dst, g.a, g.b, g.c] from rfl, List.forall_mem_cons]
  exact ⟨ne_queue (fun _ => rfl) hd, ne_queue (fun _ => rfl) ha, ne_queue (fun _ => rfl) hb, ne_queue (fun _ => rfl) hc, nofun⟩

/-- A suspended TRYW that stays so. -/
theorem finish_tryw_stay {s : State} {v : Wave} {g : GenW} (wt : Wait) (hv : findWave s v.id = some v) (h : legal (.tryw g) = true) :
    finish v (.tryw g) none (.stay s wt) = stayAt s v.id wt := by
  simp only [finish, keepFault_eq hv rfl, unpop, qRegs_tryw h, List.isEmpty_nil, if_true]

section
variable {s : State} {v : Wave} {g : GenW} {target : W64} {d : Nat} {l : Option Nat} (hw : v.ctl.wait = .tryw target d l)
  (hk : killDue s v = false) (hi : insAt s v v.ctl.pc = some (.tryw g))
include hw hk hi

/-- A suspended TRYW that is returned completes with its flags (R251). -/
theorem trywReturn_completes (z bad : Bool) : trywReturn s v z bad = complete (putWave s (trywFlags v z bad)) v.id (.tryw g) none := by
  simp only [trywReturn, hk, hw, hi, Bool.false_eq_true, if_false]
  rfl

/-- A suspended TRYW reads its counter again (R251). -/
theorem trywTurn_reads (hv : findWave s v.id = some v) :
    trywTurn s v.id = finish v (.tryw g) none (trywRead s v (scalarOp s v g.hdr.lit g.a) target d l) := by
  simp only [trywTurn, hv, hw, hk, trywAgain, hi, trywBody, Bool.false_eq_true, if_false]

end

/-- Settles O39: CLOSE and WAITB by what they write, CADD by its access, and TRYW by what its read sees, at its issue and while it is suspended. -/
theorem batchesAndCountersComplete : Obligations.BatchesAndCountersComplete := by
  unfold Obligations.BatchesAndCountersComplete
  refine ⟨fun s w v g h => h.close, ?waitb, ?cadd, ?tryw, ?again, ?limit⟩
  case waitb =>
    intro s w v g h n bs
    have hn : w32 (scalarOp (putWave s v) v g.hdr.lit g.a).toNat = n := by rw [putWave_scalarOp]
    refine ⟨fun he => ?_, fun b hb hl => ?_⟩
    · exact h.scalarOnly (execWaitb_eq g s) (waitbBody_ended hn he)
    · exact h.waitsHere none (execWaitb_eq g s) (waitbBody_live hn hb hl) h.v_here
  case cadd => exact fun s w v g h => ⟨fun t => h.caddLocal, fun st => h.caddFar⟩
  case tryw =>
    intro s w v g sp o h hw p limit target hlim hp hc hf ha
    have hl : limit = (scalarOp (putWave s v) v g.hdr.lit g.c).toNat := congrArg BitVec.toNat (forgetReads_scalarOp ..)
    have hb : trywBody g (putWave s v) v = trywSeen p v (readNat p sp o 8) target (s.clk + limit) := by
      rw [trywBody_issue hw (hl ▸ hlim), ← hl, ← trywRead_seen (l := none) target ⟨hp, hc, hf, ha⟩ (.inl rfl)]
      simp only [p, target, forgetReads_scalarOp]
      rfl
    have hclk : p.clk = s.clk := forgetReads_clk ..
    refine ⟨fun hx => ?_, fun hx h0 => ?_, fun hx h0 => ?_⟩
    · exact h.trywEnds (hb.trans (trywSeen_reached hx))
    · exact h.trywEnds (hb.trans (trywSeen_over hx (by omega)))
    · refine h.waitsHere none rfl (congrArg (·, none) ?_) h.trywHere
      rw [hb, trywSeen_waits hx (by omega), hclk]
  case again =>
    intro s v g sp o d l target hv hw hk hi hl hp hc hf ha
    have hb : trywTurn s v.id = finish v (.tryw g) none (trywSeen s v (readNat s sp o 8) target d) :=
      (trywTurn_reads hw hk hi hv).trans (congrArg _ (trywRead_seen target ⟨hp, hc, hf, ha⟩ hl))
    refine ⟨fun hx => congrArg Host.Outcome.next ?_, fun hx hd => congrArg Host.Outcome.next ?_⟩
    · exact hb.trans (congrArg _ (trywSeen_reached hx))
    · exact hb.trans ((congrArg _ (trywSeen_waits hx hd)).trans (finish_tryw_stay _ hv (legal_of_insAt hi)))
  case limit =>
    intro s v g d l target hv hw hk hi hd
    simp only [exec, execTrywLimitExpiry, hv, hw, if_pos hd, trywReturn_completes hw hk hi]
    rfl

end Sys2Proof.Machine
end

section
/-! PROOFS. Barriers (R256, R257). -/

namespace Sys2Proof.Machine

/-! ### BARA, BARS and BARW -/

/-- A wave that an instruction has left to wait, if it would go on. -/
def leftWaiting (wt : Wait) (x : Wave) : Wave :=
  match x.ctl.st with
  | .ready => setSt x .waiting wt
  | _ => x

/-- An effect after which its wave, passed on, waits. -/
theorem Issues.leaves {s t : State} {w v : Wave} {i : Instr} {f : Body} {wt : Wait} (h : Issues s w v i) (l : Option Latch)
    (he : Sys2Proof.Machine.exec i s = issueR i s f) (hf : f (putWave s v) v = (.leave t wt, l)) :
    ∃ k, Sys2Proof.Machine.exec i s = .next (spendLatch i (modWave (complete t v.id i k) v.id (leftWaiting wt))) := by
  rw [he, h.issueR_eq, hf]
  exact ⟨_, rfl⟩

/-- A wave that may not arrive at a barrier now: it has arrived in the phase, or its earlier stores are still to be made (R75, R130, R256). -/
def arrivalWaits (s : State) (v : Wave) (n : Nat) : Prop := (barOf s v n).arrived &&& waveBit v.idx ≠ 0 ∨ releaseWaits s v = true

theorem not_arrivalWaits {s : State} {v : Wave} {n : Nat} (ha : (barOf s v n).arrived &&& waveBit v.idx = 0) (hr : releaseWaits s v = false) :
    ¬ arrivalWaits s v n := not_or.2 ⟨not_not.2 ha, Bool.eq_false_iff.1 hr⟩

section
variable {g : GenW} {wait : Bool} {s : State} {v : Wave} {n land : Nat} (hn : (scalarOp s v g.hdr.lit g.a).toNat = n)
include hn

section
variable (hl : (scalarOp s v g.hdr.lit g.b).toNat = land)
include hl

/-- BARA or BARS of a barrier above 15, or of 65,536 landings. -/
theorem barBody_illegal (h : 16 ≤ n ∨ 2 ^ 16 ≤ land) : barBody g wait s v = .trap s (precise 0x01) := by
  simp only [barBody, hn, hl, if_pos h]

variable (h16 : n < 16) (hland : land < 2 ^ 16)
include h16 hland

/-- BARA or BARS of a wave that may not arrive now. -/
theorem barBody_stalls (h : arrivalWaits s v n) : barBody g wait s v = .stay s .stall := by
  simp only [barBody, hn, hl]
  exact (if_neg (by omega)).trans (if_pos h)

/-- BARA or BARS that arrives: BARS waits where its phase goes on (R257). -/
theorem barBody_arrives (h : ¬ arrivalWaits s v n) :
    barBody g wait s v = if wait && (barOf (arrive s v n land) v n).phase == (barOf s v n).phase
      then .leave (arrive s v n land) (.bars n (barOf s v n).phase) else .done (arrive s v n land) := by
  simp only [barBody, hn, hl]
  exact (if_neg (by omega)).trans (if_neg h)

end

/-- BARW of a barrier above 15. -/
theorem barwBody_illegal (h : 16 ≤ n) : barwBody g s v = .trap s (precise 0x01) := by
  simp only [barwBody, hn, if_pos h]

variable (h16 : n < 16)
include h16

/-- BARW of a wave that has not arrived. -/
theorem barwBody_none (h : (v.ctl.barPhase[n]?).getD none = none) : barwBody g s v = .done s := by
  simp only [barwBody, hn, if_neg (Nat.not_le.2 h16), h]

/-- BARW of a wave that arrived in a phase. -/
theorem barwBody_some {ph : W32} (h : (v.ctl.barPhase[n]?).getD none = some ph) :
    barwBody g s v = if (barOf s v n).phase = ph then .stay s (.barw n ph) else .done s := by
  simp only [barwBody, hn, if_neg (Nat.not_le.2 h16), h]

end

/-! ### The arrival -/

/-- A barrier with one more arrival and the landings that it expects. -/
def arrivedBar (b : Barrier) (v : Wave) (land : Nat) : Barrier := { b with arrived := b.arrived ||| waveBit v.idx, bal := b.bal + land }

/-- A barrier whose phase is complete, in its next phase. -/
def nextPhase (b : Barrier) : Barrier := { b with phase := b.phase + 1, arrived := 0, waited := 0, fired := false }

/-- A barrier of a team replaced. -/
def putBar (s : State) (team n : Nat) (b : Barrier) : State := modTeam s team (fun t => { t with bars := setAt t.bars n b })

/-- A barrier of a team as it is found: of a team that is there, with that barrier. -/
def hasBar (s : State) (team n : Nat) (b : Barrier) : Prop :=
  s.teams.find? (fun t => t.id == team) = some (getTeam s team) ∧ (getTeam s team).bars[n]? = some b

/-- A barrier that is replaced is found as it was put. -/
theorem hasBar_putBar {s : State} {team n : Nat} {b : Barrier} (b1 : Barrier) (h : hasBar s team n b) : hasBar (putBar s team n b1) team n b1 := by
  obtain ⟨ht, hb⟩ := h
  have hf : (putBar s team n b1).teams.find? (fun t => t.id == team) = some { getTeam s team with bars := setAt (getTeam s team).bars n b1 } := by
    refine (find_modify Team.id s.teams team team (f := fun t => { t with bars := setAt t.bars n b1 }) (fun _ => rfl)).trans ?_
    rw [ht, Option.map_some, if_pos rfl]
  have hg : getTeam (putBar s team n b1) team = { getTeam s team with bars := setAt (getTeam s team).bars n b1 } := congrArg (·.getD noTeam) hf
  refine ⟨hf.trans (congrArg some hg.symm), ?_⟩
  rw [hg, setAt_eq_set]
  exact List.getElem?_set_self (List.getElem?_eq_some_iff.1 hb).1

/-- A barrier that is checked goes to its next phase where its present one is complete (R256). -/
theorem hasBar_barCheck {s : State} {team n : Nat} {b : Barrier} (h : hasBar s team n b) :
    hasBar (barCheck s team n) team n (if barComplete b then nextPhase b else b) := by
  simp only [barCheck, h.2]
  split
  · exact hasBar_putBar (nextPhase b) h
  · exact h

/-- The barrier after an arrival. -/
theorem hasBar_arrive {s : State} {v : Wave} {n : Nat} (land : Nat) (h : hasBar s v.team n (barOf s v n)) :
    hasBar (arrive s v n land) v.team n
      (if barComplete (arrivedBar (barOf s v n) v land) then nextPhase (arrivedBar (barOf s v n) v land) else arrivedBar (barOf s v n) v land) :=
  hasBar_barCheck (s := modWave (putBar s v.team n (arrivedBar (barOf s v n) v land)) v.id _) (hasBar_putBar _ h)

/-- Settles O41: each instruction by the branches of its effect, and what an arrival makes of its barrier. -/
theorem barriersComplete : Obligations.BarriersComplete := by
  unfold Obligations.BarriersComplete
  refine ⟨?bara, ?bars, ?barw, ?arrival⟩
  case bara =>
    intro s w v g h p n land
    have hn : (scalarOp p v g.hdr.lit g.a).toNat = n := congrArg BitVec.toNat (putWave_scalarOp ..)
    have hl : (scalarOp p v g.hdr.lit g.b).toNat = land := congrArg BitVec.toNat (putWave_scalarOp ..)
    refine ⟨fun h16 hland ha hr => ?_, fun h16 hland hw => ?_, fun hbad => ?_⟩
    · exact h.finishes none rfl (congrArg (·, none) (barBody_arrives hn hl h16 hland (not_arrivalWaits ha hr)))
    · exact h.waitsHere none rfl (congrArg (·, none) (barBody_stalls hn hl h16 hland hw)) h.v_here
    · exact h.traps none rfl (congrArg (·, none) (barBody_illegal hn hl hbad))
  case bars =>
    intro s w v g h p n land t
    have hn : (scalarOp p v g.hdr.lit g.a).toNat = n := congrArg BitVec.toNat (putWave_scalarOp ..)
    have hl : (scalarOp p v g.hdr.lit g.b).toNat = land := congrArg BitVec.toNat (putWave_scalarOp ..)
    refine ⟨fun hbad => ?_, fun h16 hland hw => ?_, fun h16 hland ha hr => ?_⟩
    · exact h.traps none rfl (congrArg (·, none) (barBody_illegal hn hl hbad))
    · exact h.waitsHere none rfl (congrArg (·, none) (barBody_stalls hn hl h16 hland hw)) h.v_here
    have hb : barBody g true p v = if (barOf t v n).phase == (barOf s v n).phase then .leave t (.bars n (barOf s v n).phase) else .done t :=
      barBody_arrives hn hl h16 hland (not_arrivalWaits ha hr)
    refine ⟨fun hph => ?_, fun hph => ?_⟩
    · exact h.finishes none rfl (congrArg (·, none) (hb.trans (if_neg (by simpa using hph))))
    · exact h.leaves none rfl (congrArg (·, none) (hb.trans (if_pos (by simpa using hph))))
  case barw =>
    intro s w v g h p n
    have hn : (scalarOp p v g.hdr.lit g.a).toNat = n := congrArg BitVec.toNat (putWave_scalarOp ..)
    refine ⟨fun hbad => ?_, fun h16 h0 => ?_, fun ph h16 ha hph => ?_, fun ph h16 ha hph => ?_⟩
    · exact h.traps none rfl (congrArg (·, none) (barwBody_illegal hn hbad))
    · exact h.doesNothing none rfl (congrArg (·, none) (barwBody_none hn h16 h0))
    · exact h.doesNothing none rfl (congrArg (·, none) ((barwBody_some hn h16 ha).trans (if_neg hph)))
    · exact h.waitsHere none rfl (congrArg (·, none) ((barwBody_some hn h16 ha).trans (if_pos hph))) h.v_here
  case arrival =>
    intro s v n land _ b hb b1 ht
    exact congrArg (·.getD (newBarrier 0)) (hasBar_arrive land ⟨ht, hb⟩).2

end Sys2Proof.Machine
end

section
/-! PROOFS. The access slice (R262 to R268). -/

namespace Sys2Proof.Machine

section
variable {s : State} {v : Wave} (hc : s.cur = .slice v.id) (hv : findWave s v.id = some v)
include hc hv

/-- An instruction of the access slice whose turn it is has its effect in the slice's wave. -/
theorem sliceOp_eq (i : Instr) (f : State → Wave → State) : sliceOp i s f = .next (f s v) := by
  simp only [sliceOp, hc, hv]

variable (g : GenW)

/-- ALOOP enters a loop of a count from 1 to 2^32 − 1, if its level is one of the four (R265). -/
theorem execAloop_enters (h : (sliceVal v g.hdr.lit g.a).toNat < 2 ^ 32) (h0 : (sliceVal v g.hdr.lit g.a).toNat ≠ 0)
    (hl : v.slice.loops.length < 4) :
    execAloop g s = .next (sliceStep s v (.aloop g) (fun x => { x with
      loops := { start := nextPc v.slice.pc (hasLit (.aloop g)), count := (sliceVal v g.hdr.lit g.a).toNat, index := 0 } :: x.loops })) := by
  refine (sliceOp_eq hc hv _ _).trans (congrArg _ ?_)
  exact (if_neg (Nat.not_le.2 h)).trans ((if_neg h0).trans (if_neg (Nat.not_le.2 hl)))

/-- ALOOP of the count 0 skips its loop (R265). -/
theorem execAloop_skips (h0 : sliceVal v g.hdr.lit g.a = 0) :
    execAloop g s = .next (skipLoop s v 0 (nextPc v.slice.pc (hasLit (.aloop g)))) := by
  have hn : (sliceVal v g.hdr.lit g.a).toNat = 0 := congrArg BitVec.toNat h0
  refine (sliceOp_eq hc hv _ _).trans (congrArg _ ?_)
  exact (if_neg (by omega)).trans (if_pos hn)

/-- ALOOP of a count that is too great, or of a fifth level, is an illegal use (R265). -/
theorem execAloop_illegal (h : 2 ^ 32 ≤ (sliceVal v g.hdr.lit g.a).toNat ∨ (sliceVal v g.hdr.lit g.a ≠ 0 ∧ 4 ≤ v.slice.loops.length)) :
    execAloop g s = .next (sliceIllegal s v.id) := by
  refine (sliceOp_eq hc hv _ _).trans (congrArg _ ?_)
  by_cases hbig : 2 ^ 32 ≤ (sliceVal v g.hdr.lit g.a).toNat
  · exact if_pos hbig
  · obtain ⟨h0, hl⟩ := h.resolve_left hbig
    have hn : (sliceVal v g.hdr.lit g.a).toNat ≠ 0 := fun e => h0 (BitVec.eq_of_toNat_eq e)
    exact (if_neg hbig).trans ((if_neg hn).trans (if_pos hl))

/-- AEND outside a loop is an illegal use (R265). -/
theorem execAend_illegal (hl : v.slice.loops = []) : execAend g s = .next (sliceIllegal s v.id) := by
  refine (sliceOp_eq hc hv _ _).trans (congrArg _ ?_)
  simp only [hl]

/-- AEND of a loop with rounds left goes back to its start (R265). -/
theorem execAend_repeats {l : SliceLoop} {r : List SliceLoop} (hl : v.slice.loops = l :: r) (h : l.index + 1 < l.count) :
    execAend g s = .next (putWave s { v with
      slice := { v.slice with pc := l.start, loops := { l with index := l.index + 1 } :: r } }) := by
  refine (sliceOp_eq hc hv _ _).trans (congrArg _ ?_)
  simp only [hl, if_pos h]

/-- AEND of the last round leaves the loop (R265). -/
theorem execAend_leaves {l : SliceLoop} {r : List SliceLoop} (hl : v.slice.loops = l :: r) (h : l.count ≤ l.index + 1) :
    execAend g s = .next (sliceStep s v (.aend g) (fun x => { x with loops := r })) := by
  refine (sliceOp_eq hc hv _ _).trans (congrArg _ ?_)
  simp only [hl, if_neg (Nat.not_lt.2 h)]

/-- ALD of an entry that a restoration has it discard makes no access (R264). -/
theorem execAld_discards {d : Nat} (hd : (v.slice.discard[qNum g.dst]?).getD 0 = d) (h : 0 < d) :
    execAld g s = .next (sliceStep s v (.ald g) (fun x => { x with discard := setAt x.discard (qNum g.dst) (d - 1) })) := by
  subst hd
  exact (sliceOp_eq hc hv _ _).trans (congrArg _ (if_pos h))

/-- ALD pushes its entry into a queue with room (R266). -/
theorem execAld_pushes (hd : (v.slice.discard[qNum g.dst]?).getD 0 = 0) (hq : ((v.queues[qNum g.dst]?).getD []).length < 8)
    (hl : locksDamaged s = false) (hr : coreOut s v.core < coreReqs) :
    execAld g s = .next (sliceStep (aldEntry s v g).1
      { v with queues := setAt v.queues (qNum g.dst) (((v.queues[qNum g.dst]?).getD []) ++ [(aldEntry s v g).2]) } (.ald g) id) := by
  have hgo : ¬ (8 ≤ ((v.queues[qNum g.dst]?).getD []).length ∨ locksDamaged s = true ∨ coreReqs ≤ coreOut s v.core) := by
    simp only [hl, not_or, Nat.not_le, Bool.false_eq_true, not_false_eq_true, true_and]
    exact ⟨hq, hr⟩
  exact (sliceOp_eq hc hv _ _).trans (congrArg _ ((if_neg (by omega)).trans (if_neg hgo)))

/-- APF changes nothing (R266). -/
theorem execApf_eq : execApf g s = .next (sliceStep s v (.apf g) id) := sliceOp_eq hc hv _ _

/-- AADV of an address register (R267). -/
theorem execAadv_eq {n : BitVec 6} (hn : g.dst = .s n) :
    execAadv g s = .next (sliceStep s v (.aadv g) (fun x => { x with
      a := setAt x.a n.toNat (if g.opx = 0 then (x.a[n.toNat]?).getD 0 + sliceVal v g.hdr.lit g.b else sliceVal v g.hdr.lit g.b) })) := by
  refine (sliceOp_eq hc hv _ _).trans (congrArg _ ?_)
  simp only [hn]

/-- AHALT stops its slice (R268). -/
theorem execAhalt_eq : execAhalt g s = .next (putWave s { v with slice := { v.slice with stopped := true } }) := sliceOp_eq hc hv _ _

end

/-- The skip of a loop whose end is found goes on after it (R265). -/
theorem skipLoop_found {s : State} {v : Wave} {d : Nat} {pc p : W64} (h : afterAend s v 65536 d pc = .found p) :
    skipLoop s v d pc = putWave s { v with slice := { v.slice with pc := p, skip := none } } := by
  simp only [skipLoop, h]

/-- The skip of a loop whose end cannot be read yet is kept at the slot that blocks it (R265). -/
theorem skipLoop_blocked {s : State} {v : Wave} {d k : Nat} {pc p : W64} (h : afterAend s v 65536 d pc = .blocked p k) :
    skipLoop s v d pc = putWave s { v with slice := { v.slice with pc := p, skip := some k } } := by
  simp only [skipLoop, h]

/-- Settles O44: each clause is one branch of its instruction's effect in the slice's wave. That an ALD's discards are counted for each queue by
itself (log 40), and that it waits for room among its core's requests (log 89), are the model's readings. -/
theorem accessSliceCompletes : Obligations.AccessSliceCompletes := by
  unfold Obligations.AccessSliceCompletes
  intro s v g hc hv at_ val
  refine ⟨?enters, ?found, ?blocked, ?repeats, ?leaves, ?illegal, ?discards, ?pushes, ?apf, ?aadv, ?ahalt, ?noLoop⟩
  case enters => exact execAloop_enters hc hv g
  case found => exact fun pc h0 ha => (execAloop_skips hc hv g h0).trans (congrArg _ (skipLoop_found ha))
  case blocked => exact fun pc d h0 ha => (execAloop_skips hc hv g h0).trans (congrArg _ (skipLoop_blocked ha))
  case repeats => exact fun l r => execAend_repeats hc hv g
  case leaves => exact fun l r => execAend_leaves hc hv g
  case illegal => exact execAloop_illegal hc hv g
  case discards => exact fun d => execAld_discards hc hv g
  case pushes => exact execAld_pushes hc hv g
  case apf => exact execApf_eq hc hv g
  case aadv => exact fun n => execAadv_eq hc hv g
  case ahalt => exact execAhalt_eq hc hv g
  case noLoop => exact execAend_illegal hc hv g

end Sys2Proof.Machine
end

section
/-! PROOFS. The state at reset: queues, binderies, classes and peers that stand at their reset value (R94, R273, R313, R324, R341). -/

namespace Sys2Proof.Machine

theorem reset_queue (q : Nat) : getQueue State.reset q = resetQueue := List.getElem?_getD_replicate_default_eq resetQueue 64 q

theorem reset_bindery (d : Nat) : getBindery State.reset d = resetBindery := List.getElem?_getD_replicate_default_eq resetBindery 4 d

/-- FAB_CLASS_j at reset gives class 1 in each of its 16 fields of two bits (R324). -/
theorem reset_classOf (a : Nat) : classOf State.reset a = 1 := by
  have hfield : ∀ k < 16, bits (0x55555555#32).toNat (2 * k) 2 = 1 := by decide
  exact hfield (a % 16) (Nat.mod_lt a (by decide))

/-- Settles O9: the memories list nothing, which is their canonical form (log 1); every queue and bindery is the one at reset; and a class, peer,
partition or bank of which no table holds an entry reads as its default. -/
theorem resetState : Obligations.ResetState := by
  unfold Obligations.ResetState
  refine ⟨reset_canonical, fun q _ => reset_queue q, fun d _ => ?bindery, ?board, ?fabric, ?port, ?rel⟩
  case bindery => exact reset_bindery d ▸ ⟨rfl, rfl⟩
  case board => exact ⟨rfl, rfl, rfl, rfl, rfl, rfl, rfl⟩
  case fabric => exact ⟨rfl, rfl, rfl, rfl, rfl, rfl, rfl, rfl, reset_classOf, fun _ => rfl⟩
  case port => rfl
  case rel => exact ⟨rfl, rfl, rfl, rfl, rfl, rfl, rfl, rfl, rfl, rfl, rfl, rfl, rfl, rfl, rfl, fun _ => rfl, fun _ => rfl⟩

end Sys2Proof.Machine
end

section
/-! PROOFS. What leaves the registers of reliability, security and power as they are: the fault log, the kill of a wave, the halt and the end of a
context (R35, R158, R270). -/

namespace Sys2Proof.Machine

/-- A run of changes each of which leaves these registers. -/
theorem foldl_rel {α : Type} {f : State → α → State} (h : ∀ s x, (f s x).rel = s.rel) (l : List α) (s : State) : (l.foldl f s).rel = s.rel :=
  List.foldlRecOn (motive := fun t => t.rel = s.rel) l f rfl (fun t ht x _ => (h t x).trans ht)

theorem clearPoison_rel (s : State) (sp : Space) (l : List Nat) : (clearPoison s sp l).rel = s.rel := by
  unfold clearPoison
  split <;> rfl

theorem sysWrite_rel (s : State) (a : W64) (l : List Byte) : (sysWrite s a l).rel = s.rel := by
  unfold sysWrite
  split
  · exact (clearPoison_rel ..).trans (writeBytes_rel ..)
  · rfl

theorem setStatus_rel (s : State) (ctx st : Nat) : (setStatus s ctx st).rel = s.rel := sysWrite_rel s _ _

theorem flogWrite_rel (s : State) (ctx : Nat) (l : List Byte) : (flogWrite s ctx l).rel = s.rel := (sysWrite_rel _ _ _).trans (sysWrite_rel s _ _)

theorem logPending_rel (n : Nat) (s : State) (w : Wave) : (logPending n s w).1.rel = s.rel := by
  induction n generalizing s w with
  | zero => rfl
  | succ n ih =>
    rw [logPending]
    cases firstPending w with
    | none => rfl
    | some x => exact (ih _ _).trans (flogWrite_rel ..)

theorem logStopped_rel (s : State) (id : Nat) : (logStopped s id).rel = s.rel := by
  unfold logStopped
  split
  · split
    · exact logPending_rel 128 s _
    · rfl
  · rfl

theorem haltCtx_rel (s : State) (ctx : Nat) (issuer : Option Nat) : (haltCtx s ctx issuer).rel = s.rel :=
  (foldl_rel (fun a (w : Wave) => logStopped_rel a w.id) _ _).trans (setStatus_rel s ctx 1)

theorem barCheck_rel (s : State) (team n : Nat) : (barCheck s team n).rel = s.rel := by
  unfold barCheck
  split
  · split <;> rfl
  · rfl

theorem barLeave_rel (s : State) (w : Wave) : (barLeave s w).rel = s.rel := foldl_rel (fun a n => barCheck_rel a w.team n) _ _

theorem killCore_rel (s : State) (id : Nat) : (killCore s id).rel = s.rel := by
  unfold killCore
  split
  · rfl
  · split
    · rfl
    · exact (barLeave_rel ..).trans (logPending_rel 128 s _)

theorem dropHeld_rel (s : State) (queue : Nat) : (dropHeld s queue).rel = s.rel := by
  unfold dropHeld dropDeps
  dsimp only
  split <;> rfl

theorem dropLaunches_rel (s : State) (ctx : Nat) : (dropLaunches s ctx).rel = s.rel := by
  refine foldl_rel (fun t n => ?_) _ s
  split
  · split
    · exact dropHeld_rel t n
    · rfl
  · rfl

theorem endCtx_rel (s : State) (ctx : Nat) : (endCtx s ctx).rel = s.rel := (dropLaunches_rel ..).trans (foldl_rel killCore_rel _ s)

theorem haltCheck_rel (s : State) (ctx : Nat) : (haltCheck s ctx).rel = s.rel := by
  unfold haltCheck
  dsimp only
  split
  · exact endCtx_rel s ctx
  · rfl

end Sys2Proof.Machine
end

section
/-! PROOFS. The events of the board (R281, R287, R338, R343 to R348): the crossbar's layout, the latency window, alarms and firmware, heat, and
power. -/

namespace Sys2Proof.Machine

/-! ### The crossbar's layout -/

section
variable {s : State}

/-- A write of XBAR_COMMIT with BADSUM 0 leaves BADSUM (R343). -/
theorem xbarCommitPrepare_eq {x : W64} (h : x.getLsbD 2 = false) :
    execXbarCommitPrepare x s = .next { s with rel := { s.rel with
      commit := if x.toNat % 4 = 1 ∧ s.rel.commit = 3 then 3 else x.toNat % 4, seq := w32 (x.toNat / 2 ^ 32) } } := by
  simp only [execXbarCommitPrepare, modRel, h, Bool.not_false, Bool.and_true]

/-- A prepared layout whose checksum matches is swapped in. -/
theorem xbarSwap_matches (h : s.rel.commit = 1 ∧ s.rel.cksum = shadowSum s) : execXbarSwap s = .next (swapMatrix s) := if_pos h

/-- One that is not prepared, or does not match, sets BADSUM. -/
theorem xbarSwap_fails (h : s.rel.commit ≠ 1 ∨ s.rel.cksum ≠ shadowSum s) :
    execXbarSwap s = .next (modRel s (fun r => { r with badSum := true })) := if_neg (not_and_or.2 h)

/-- The boot firmware rolls a prepared layout whose checksum matches forward. -/
theorem mpWatchdogReset_forward (h1 : s.rel.commit = 1) (hc : s.rel.cksum = shadowSum s) : execMpWatchdogReset s = .next (swapMatrix s) :=
  (if_pos h1).trans (if_pos hc)

/-- It rolls one that does not match back, and STATE with it. -/
theorem mpWatchdogReset_back (h1 : s.rel.commit = 1) (hc : s.rel.cksum ≠ shadowSum s) :
    execMpWatchdogReset s = .next (modRel (rollBack s) (fun r => { r with commit := 0 })) := (if_pos h1).trans (if_neg hc)

/-- It rolls one that is not prepared back, whatever its checksum. -/
theorem mpWatchdogReset_unprepared (h1 : s.rel.commit ≠ 1) : execMpWatchdogReset s = .next (rollBack s) := if_neg h1

end

/-! ### The latency window -/

/-- The windows that have ended by now leave no sample, and the present one begins (R344). -/
theorem closeWindows_ended {s : State} (h : s.latWin < latNow s) : (closeWindows s).rel.samples = [] ∧ (closeWindows s).latWin = latNow s := by
  rw [closeWindows, if_neg (Nat.not_le.2 h)]
  split <;> exact ⟨rfl, rfl⟩

/-- Before its end a window goes on. -/
theorem closeWindows_open {s : State} (h : latNow s ≤ s.latWin) : closeWindows s = s := if_pos h

/-! ### Alarms and firmware -/

theorem higherFirst_rel (s : State) (bank cls : Nat) : ∃ l, (higherFirst s bank cls).rel = { s.rel with banks := l } := by
  unfold higherFirst
  dsimp only
  split <;> exact ⟨_, rfl⟩

/-- An error record changes, of these registers, the banks alone (R336). -/
theorem errRecord_rel (s : State) (bank cls src : Nat) (addr synd : Option W64) (misc : W64) :
    ∃ l, (errRecord s bank cls src addr synd misc).rel = { s.rel with banks := l } := by
  obtain ⟨l, hl⟩ := higherFirst_rel { s with free := s.free + 4 } bank cls
  have hput (b : Bank) : ∃ l, (putBank (higherFirst { s with free := s.free + 4 } bank cls) bank b).rel = { s.rel with banks := l } :=
    ⟨_, congrArg (fun r : Rel => { r with banks := assocPut r.banks bank (some b) }) hl⟩
  simp only [errRecord]
  split
  · split <;> exact hput _
  · split <;> exact hput _

/-- The halts and ends of contexts that follow an erasure leave the keys erased (R346). -/
theorem eraseKeys_keys (s : State) : (eraseKeys s).rel.keys = false := by
  have hhalts := foldl_rel (f := fun t c => haltCheck (haltCtx t c none) c) (fun t c => (haltCheck_rel _ c).trans (haltCtx_rel t c none))
  exact congrArg Rel.keys (hhalts _ (modRel s (fun r => { r with keys := false, erased := true })))

/-- Under ERASE an alarm of any kind erases the keys, if they are there (R346). -/
theorem alarm_erases {s : State} (k : Nat) (he : s.rel.erase = true) (hk : s.rel.keys = true) : (alarm s k).rel.keys = false := by
  unfold alarm
  extract_lets s1 s2 s3
  obtain ⟨l, hl⟩ : ∃ l, s3.rel = { s1.rel with banks := l } := errRecord_rel { s1 with free := s1.free + 2 } _ _ _ _ _ _
  have hgo : s3.rel.erase = true ∧ s3.rel.keys = true := by rw [hl]; exact ⟨he, hk⟩
  rw [if_pos hgo]
  exact eraseKeys_keys s3

section
variable {s : State} {i : FirmwareImage}

theorem imageOk_iff : imageOk s i = true ↔ i.rsaOk = true ∧ i.slhOk = true ∧ s.rel.minVersion ≤ i.version := by
  simp only [imageOk, Bool.and_eq_true, decide_eq_true_eq, and_assoc]

/-- An image fails by either signature or by its version (R345). -/
theorem imageOk_eq_false (h : i.rsaOk = false ∨ i.slhOk = false ∨ i.version < s.rel.minVersion) : imageOk s i = false := by
  rw [Bool.eq_false_iff, ne_eq, imageOk_iff]
  rintro ⟨hr, hl, hv⟩
  rcases h with h | h | h
  · exact Bool.false_ne_true (h.symm.trans hr)
  · exact Bool.false_ne_true (h.symm.trans hl)
  · exact Nat.not_le.2 h hv

/-- An image that the boot ROM or the management image that runs verifies: it runs, or SIG is set (R345). -/
theorem firmwareImageVerify_eq (h : i.management = true ∨ s.rel.mpRunning = true) :
    execFirmwareImageVerify i s = if imageOk s i = true then .next (modRel s (fun r => runImage r i)) else .next (alarm s 3) := by
  refine if_neg ?_
  rcases h with h | h <;> simp [h]

end

/-! ### The governor, heat and droops -/

section
variable {s : State} {c t : Nat}

/-- A core above T_HI that is not marked is marked hot (R281). -/
theorem coreHotMark_above (h : s.hiTemp < t) (hc : s.hot.contains c = false) : execCoreHotMark c t s = .next { s with hot := s.hot ++ [c] } := by
  simp only [execCoreHotMark, h, hc, if_true, Bool.false_eq_true, if_false]

/-- Below T_LO its mark is cleared. -/
theorem coreHotMark_below (hi : t ≤ s.hiTemp) (lo : t < lowTemp s) : execCoreHotMark c t s = .next { s with hot := s.hot.filter (· != c) } :=
  (if_neg (Nat.not_lt.2 hi)).trans (if_pos lo)

/-- A droop of one core is reported in its window, and no context has skipped another core more or less for it. -/
theorem coreDroop_reports (s : State) (c : Nat) : ∃ t, execCoreDroop c s = .next t ∧ (c, droopWin s) ∈ t.droops
    ∧ (∀ k, k ≠ c → ((c, k) ∈ t.skipped ↔ (c, k) ∈ s.skipped)) := by
  refine ⟨_, rfl, List.mem_append_right _ (List.mem_singleton.2 rfl), fun k hk => ?_⟩
  rw [List.mem_filter]
  exact and_iff_left (bne_iff_ne.2 hk)

end

/-! ### Power -/

/-- A device without power whose first image verifies comes up (R345, R348). -/
theorem powerOn_comesUp {s : State} {i : FirmwareImage} (rows : List W64) (hp : s.rel.powered = false) (hi : imageOk s i = true) :
    ∃ t, execPowerOn i rows s = .next t ∧ t.rel.powered = true ∧ t.rel.mpRunning = true ∧ t.rel.links = true ∧ t.rel.commit = 2
      ∧ t.rel.act = rows96 rows ∧ t.rel.shd = rows96 rows ∧ t.waves = s.waves ∧ t.hbm = s.hbm := by
  have hgo : ¬ s.rel.powered = true := by simp [hp]
  have hok : ¬ (!imageOk s i) = true := by simp [hi]
  exact ⟨_, (if_neg hgo).trans (if_neg hok), rfl, rfl, rfl, rfl, rfl, rfl, rfl, rfl⟩

/-- Settles O59: each clause is one branch of its event, and an alarm's erasure halts contexts without any change of the keys after it. -/
theorem boardEventsComplete : Obligations.BoardEventsComplete := by
  unfold Obligations.BoardEventsComplete
  refine ⟨?commit, ?swap, ?latency, ?alarm, ?runs, ?fails, ?mode, ?modeDone, ?governor, ?hot, ?droop, ?on, ?loss⟩
  case commit =>
    intro s x hx
    have hw : Sys2Proof.Machine.exec (.xbarCommitPrepare x) s = _ := xbarCommitPrepare_eq hx
    refine ⟨fun h1 h3 => ?_, fun h1 h3 => ?_, fun h1 => ?_⟩
    · rw [hw, if_neg (fun h => h3 h.2), h1]
    · rw [hw, if_pos ⟨h1, h3⟩, ← h3]
    · rw [hw, if_neg (fun h => h1 h.1)]
  case swap =>
    exact fun s => ⟨fun h1 hc => ⟨xbarSwap_matches ⟨h1, hc⟩, mpWatchdogReset_forward h1 hc⟩, xbarSwap_fails, mpWatchdogReset_back,
      mpWatchdogReset_unprepared⟩
  case latency => exact fun s => ⟨fun h => ⟨_, rfl, closeWindows_ended h⟩, fun h => congrArg _ (closeWindows_open h)⟩
  case alarm => exact fun s k => ⟨rfl, alarm_erases k.toNat⟩
  case runs => exact fun s i hr hl hv hm => (firmwareImageVerify_eq hm).trans (if_pos (imageOk_iff.2 ⟨hr, hl, hv⟩))
  case fails => exact fun s i hbad hm => (firmwareImageVerify_eq hm).trans (if_neg (Bool.eq_false_iff.1 (imageOk_eq_false hbad)))
  case mode => exact fun s x => rfl
  case modeDone => exact fun s => rfl
  case governor => exact fun s => ⟨fun h => congrArg _ (if_pos h), fun h => congrArg _ (if_neg (Nat.not_lt.2 h))⟩
  case hot => exact fun s c t => ⟨coreHotMark_above, coreHotMark_below⟩
  case droop => exact coreDroop_reports
  case on => exact fun s i rows hp hr hl hv => powerOn_comesUp rows hp (imageOk_iff.2 ⟨hr, hl, hv⟩)
  case loss => exact fun s => ⟨_, rfl, rfl, rfl, rfl, rfl, rfl, rfl, rfl, rfl⟩

end Sys2Proof.Machine
end

section
/-! PROOFS. The registers of BAR 0 (R273, R336, R340, R349) and the host's window on HBM (R310). -/

namespace Sys2Proof.Machine

/-! ### Who writes -/

section
variable {s : State} {o : Nat} (x : W64) (h8 : o % 8 = 0)
include h8

/-- The host writes a register of its own once the links have trained (R348, R349). -/
theorem registerWrite_host (hl : s.rel.links = true) :
    execRegisterWrite .host o x s = if o < 0x20000 then hostLow s o x else hostHigh s o x :=
  (if_neg (fun h => h h8)).trans (if_pos hl)

/-- The management processor writes one of its own while it runs. -/
theorem registerWrite_mp (hr : s.rel.mpRunning = true) : execRegisterWrite .mp o x s = mpWrite s o x := (if_neg (fun h => h h8)).trans (if_pos hr)

end

/-- No other agent's write changes a register (R349). -/
theorem registerWrite_other (s : State) (o : Nat) (x : W64) : execRegisterWrite .other o x s = .next s := ite_self _

/-! ### A launch queue's registers -/

/-- The registers of a launch queue lie 8 bytes apart, and the queues 32 (R273). -/
theorem hostLow_queue (s : State) (x : W64) {q k : Nat} (hq : q < 64) (hk : k < 4) : hostLow s (0x1000 + 8 * k + 32 * q) x = writeQueue s q k x := by
  have hin : 0x1000 ≤ 0x1000 + 8 * k + 32 * q ∧ 0x1000 + 8 * k + 32 * q < 0x1800 := by omega
  have hqueue : (0x1000 + 8 * k + 32 * q - 0x1000) / 32 = q := by omega
  have hreg : (0x1000 + 8 * k + 32 * q - 0x1000) % 32 / 8 = k := by omega
  rw [hostLow, if_pos hin, hqueue, hreg]

theorem registerWrite_queue {s : State} (x : W64) {q k : Nat} (hq : q < 64) (hk : k < 4) (hl : s.rel.links = true) :
    execRegisterWrite .host (0x1000 + 8 * k + 32 * q) x s = writeQueue s q k x := by
  rw [registerWrite_host x (by omega) hl, if_pos (by omega), hostLow_queue s x hq hk]

/-! ### BAR 2 -/

section
variable {s : State} {a n : Nat}

theorem hostBarAccess_inside (st : Option (List Byte)) (h : a + n ≤ hbmEnd) (hl : s.rel.links = true) :
    execHostBarAccess a n st s = st.elim (.next { s with link := { s.link with barRead := memGets s.hbm a n } })
      (fun l => .next (writeRange s .hbm a (l.take n))) := by
  have hup : ¬ (!s.rel.links) = true := by simp [hl]
  refine (if_neg (Nat.not_lt.2 h)).trans ((if_neg hup).trans ?_)
  cases st <;> rfl

theorem hostBarAccess_outside (st : Option (List Byte)) (h : hbmEnd < a + n) : execHostBarAccess a n st s = .fault .barOutside := if_pos h

end

/-- Settles O60: each register by its offset, among those of the agent that may write it, and an access of the host by whether it lies in HBM.
That the write of WDG_CTL itself fires the phases which it makes due (log 98) is the model's choice. -/
theorem registerAccessCompletes : Obligations.RegisterAccessCompletes := by
  unfold Obligations.RegisterAccessCompletes
  refine ⟨?host, ?mp, registerWrite_other, ?bar, ?outside⟩
  case host =>
    intro s x hl
    have hw {o : Nat} (h8 : o % 8 = 0) : Sys2Proof.Machine.exec (.registerWrite .host o x) s = _ := registerWrite_host x h8 hl
    exact ⟨fun q hq => registerWrite_queue x (k := 0) hq (by decide) hl, fun q hq => registerWrite_queue x (k := 1) hq (by decide) hl,
      hw rfl, hw rfl, hw rfl, hw rfl⟩
  case mp =>
    intro s x hr
    have hw {o : Nat} (h8 : o % 8 = 0) : Sys2Proof.Machine.exec (.registerWrite .mp o x) s = _ := registerWrite_mp x h8 hr
    exact ⟨hw rfl, hw rfl, hw rfl⟩
  case bar =>
    refine fun s a n h hl => ⟨fun l hn => ?_, hostBarAccess_inside none h hl⟩
    have hw : Sys2Proof.Machine.exec (.hostBarAccess a n (some l)) s = .next (writeRange s .hbm a (l.take n)) := hostBarAccess_inside (some l) h hl
    rw [hw, List.take_of_length_le hn.le]
  case outside => exact fun s a n st => hostBarAccess_outside st

end Sys2Proof.Machine
end

section
/-! PROOFS. The events of the host link (R307, R308). -/

namespace Sys2Proof.Machine

/-! ### Translations -/

section
variable {s : State} {pasid : Nat} {page : W64} (h : (pasid, page) ∈ s.link.asked)
include h

theorem page_asked : ¬ (!s.link.asked.contains (pasid, page)) = true := by simpa using h

/-- A translation that the host gives takes the place of those held of its page (R307). -/
theorem atsTranslationResponse_given (e : AtsEntry) :
    execAtsTranslationResponse pasid page (some e) s = .next (retryDues (modLink (dropAts s (fun a p => a == pasid && p == page)) (fun l =>
      { l with asked := l.asked.filter (fun x => x != (pasid, page)), ats := l.ats ++ [(pasid, page, e)] }))) := if_neg (page_asked h)

/-- A refusal is kept for one access (R307, log 92). -/
theorem atsTranslationResponse_refused :
    execAtsTranslationResponse pasid page none s = .next (retryDues (modLink (dropAts s (fun a p => a == pasid && p == page)) (fun l =>
      { l with asked := l.asked.filter (fun x => x != (pasid, page)), refusedPages := (l.refusedPages ++ [(pasid, page)]).eraseDups }))) :=
  if_neg (page_asked h)

end

/-! ### Page requests -/

/-- The next group has no outstanding request (log 63). -/
theorem freeGroup_unused {l : HostLink} {g : Nat} (hg : freeGroup l = some g) : ∀ r ∈ l.requests, r.group ≠ g := by
  simpa using List.find?_some hg

section
variable {s : State} {asid : Nat} {page : W64} (hw : pageWaves s asid page ≠ [])
  (hr : ∀ r ∈ s.link.requests, ¬ (r.asid = asid ∧ r.page = page))
include hw hr

/-- A page that some wave is parked for, and that no outstanding request is for. -/
theorem page_unrequested :
    ¬ ((pageWaves s asid page).isEmpty = true ∨ s.link.requests.any (fun r => r.asid == asid && r.page == page) = true) := by
  simpa [hw] using hr

/-- A PASID whose requests are stopped gets records instead (R308). -/
theorem priPageRequest_stopped (h : asid ∈ s.link.stopped) :
    execPriPageRequest asid page s = .next ((pageWaves s asid page).foldl (pageRecord 0xFF) s) :=
  (if_neg (page_unrequested hw hr)).trans (if_pos (List.contains_iff_mem.2 h))

/-- Within the allowance a request is sent, in a group of its own (R308, log 63). -/
theorem priPageRequest_sent {g : Nat} (h : asid ∉ s.link.stopped) (ha : s.link.requests.length < s.link.allowance) (hg : freeGroup s.link = some g) :
    execPriPageRequest asid page s = .next (modLink s (fun l => { l with
      requests := l.requests ++ [{ asid := asid, page := page, sent := true, group := g }], nextGroup := (g + 1) % 512 })) := by
  have hgo : ¬ s.link.stopped.contains asid = true := mt List.contains_iff_mem.1 h
  simp only [execPriPageRequest, if_neg (page_unrequested hw hr), if_neg hgo, if_neg (Nat.not_le.2 ha), hg]

end

/-! ### Responses to page requests -/

/-- The outstanding requests of a group. -/
def groupRequests (s : State) (group : Nat) : List PageReq := s.link.requests.filter (fun r => r.group == group)

/-- The waves parked for their pages. -/
def groupWaves (s : State) (group : Nat) : List Wave := (groupRequests s group).flatMap (fun r => pageWaves s r.asid r.page)

/-- Whether a page is one of theirs. -/
def groupPage (s : State) (group : Nat) (x : Nat × W64) : Bool := (groupRequests s group).any (fun r => r.asid == x.1 && r.page == x.2)

/-- The group with no request left. -/
def groupOver (s : State) (group : Nat) : State := modLink s (fun l => { l with requests := l.requests.filter (fun r => r.group != group) })

section
variable {s : State} {group : Nat} (h : groupRequests s group ≠ [])
include h

/-- Success replays the waves of the group, which find no translation and no refusal of its pages (R308). -/
theorem priResponse_success :
    execPriResponse group 0 s = .next ((groupWaves s group).foldl (fun x w => replayWave x w)
      (modLink (dropAts (groupOver s group) (fun a p => groupPage s group (a, p)))
        (fun l => { l with refusedPages := l.refusedPages.filter (fun x => !groupPage s group x) }))) :=
  (if_neg (mt List.isEmpty_iff.1 h)).trans (if_pos rfl)

/-- Any other code writes their records, and Response Failure stops the requests of their PASIDs (R308). -/
theorem priResponse_records {code : BitVec 4} (h0 : code ≠ 0) :
    let s2 := (groupWaves s group).foldl (pageRecord code.toNat) (groupOver s group)
    execPriResponse group code s = .next (if code = 15 then modLink s2 (fun l =>
      { l with stopped := (l.stopped ++ (groupRequests s group).map (·.asid)).eraseDups }) else s2) :=
  (if_neg (mt List.isEmpty_iff.1 h)).trans (if_neg h0)

end

/-- Settles O53: an answer to a translation request by whether it gives one, an invalidation by whether an access delays it, a page request by
whether its PASID's are stopped, and a response by its code. -/
theorem hostLinkEventsComplete : Obligations.HostLinkEventsComplete := by
  unfold Obligations.HostLinkEventsComplete
  refine ⟨?answer, ?invalidation, ?request, ?response, fun s n a => rfl⟩
  case answer => exact fun s pasid page h => ⟨atsTranslationResponse_given h, atsTranslationResponse_refused h⟩
  case invalidation => exact fun s pasid len va => ⟨fun h => if_pos h, fun h => if_neg (Bool.eq_false_iff.1 h)⟩
  case request =>
    exact fun s asid page hw hr => ⟨priPageRequest_stopped hw hr, fun g h ha hg => ⟨freeGroup_unused hg, priPageRequest_sent hw hr h ha hg⟩⟩
  case response =>
    intro s group rs gone ws s1 h
    refine ⟨priResponse_success h, fun code h0 h15 => ?_, ?_⟩
    · exact (priResponse_records h h0).trans (congrArg _ (if_neg h15))
    · exact (priResponse_records h (by decide)).trans (congrArg _ (if_pos rfl))

end Sys2Proof.Machine
end

section
/-! PROOFS. The events of the fabric's own state (R312, R313, R315, R316, R321, R323, R324): joins, peers, planes, link retries and sends. -/

namespace Sys2Proof.Machine

/-! ### Joins -/

section
variable {s : State}

/-- EN of a device that is powered and whose links have trained begins a join (R312, R348). -/
theorem fabCtlEn_begins (hp : s.rel.powered = true) (hl : s.rel.links = true) :
    execFabCtlEn s = .next { s with fab := { s.fab with en := true, joining := true, joined := false } } :=
  if_pos (Bool.and_eq_true_iff.2 ⟨hp, hl⟩)

/-- Before that EN does nothing (log 64). -/
theorem fabCtlEn_early (h : s.rel.powered = false ∨ s.rel.links = false) : execFabCtlEn s = .next s :=
  if_neg (Bool.eq_false_iff.1 (Bool.and_eq_false_iff.2 h))

variable {id : BitVec 9} {inc : BitVec 16} (hj : s.fab.joining = true) (hp : s.rel.powered = true) (hl : s.rel.links = true)
include hj hp hl

theorem join_complete : (s.fab.joining && s.rel.powered && s.rel.links) = true := by simp only [hj, hp, hl, Bool.and_self]

/-- The first join takes the id and the incarnation that the manager assigns (R312). -/
theorem fabricJoin_first (he : s.fab.everJoined = false) : execFabricJoin id inc s = .next { s with fab := { s.fab with
    joined := true, joining := false, everJoined := true, id := id, inc := inc } } := by
  simp only [execFabricJoin, join_complete hj hp hl, he, if_true, Bool.false_eq_true, if_false]

/-- A later join keeps the id, takes the next incarnation, fails what is outstanding and begins every sequence space anew (R312, log 61). -/
theorem fabricJoin_again (he : s.fab.everJoined = true) : execFabricJoin id inc s = .next { failAll s with fab := { (failAll s).fab with
    joined := true, joining := false, everJoined := true, id := s.fab.id, inc := s.fab.inc + 1, spacesOut := [], spacesIn := [] } } := by
  simp only [execFabricJoin, join_complete hj hp hl, he, if_true]

end

/-! ### Peers -/

/-- What the manager says of a peer, noted. -/
def peerNoted (s : State) (peer : BitVec 9) (st : BitVec 2) (inc : BitVec 16) : State :=
  { s with fab := { s.fab with peers := assocPut s.fab.peers peer.toNat (some (st, inc)) } }

section
variable {s : State} {peer : BitVec 9} {st : BitVec 2} {inc : BitVec 16}

/-- A new incarnation of a peer fails what is outstanding to it with 0x12 and resets its spaces (R323). -/
theorem fabricPeerUpdate_reborn (h : (assoc s.fab.peers peer.toNat (0, 0)).2 ≠ inc) : execFabricPeerUpdate peer st inc s
    = .next (resetSpaces (failPeer (peerNoted s peer st inc) peer.toNat 0x12 (assoc s.fab.peers peer.toNat (0, 0)).2) peer.toNat) := if_pos h

/-- A peer of the same incarnation that is down or absent fails it with 0x11, and its streams are to be resynchronised (R84, R321). -/
theorem fabricPeerUpdate_down (h : (assoc s.fab.peers peer.toNat (0, 0)).2 = inc) (hst : st ≠ 1) : execFabricPeerUpdate peer st inc s
    = .next (resyncPeer (failPeer (peerNoted s peer st inc) peer.toNat 0x11 (assoc s.fab.peers peer.toNat (0, 0)).2) peer.toNat
      ((s.fab.out.map (·.space)).eraseDups)) := (if_neg (not_not.2 h)).trans (if_pos hst)

/-- One that is up is only noted (R313). -/
theorem fabricPeerUpdate_up (h : (assoc s.fab.peers peer.toNat (0, 0)).2 = inc) (hst : st = 1) :
    execFabricPeerUpdate peer st inc s = .next (peerNoted s peer st inc) := (if_neg (not_not.2 h)).trans (if_neg (not_not.2 hst))

end

/-! ### Planes -/

section
variable {s : State} {k : Nat}

/-- A plane of a powered device comes up (R315). -/
theorem fabricPlaneUp_trained (hp : s.rel.powered = true) (h32 : k < 32) (hk : k ∉ s.fab.planes) : execFabricPlaneUp k s
    = .next { s with fab := { s.fab with planes := s.fab.planes ++ [k], retries := noRetries s.fab.retries k } } :=
  if_pos ⟨hp, h32, by simpa using hk⟩

section
variable {flit : Nat} (hk : k ∈ s.fab.planes) (hf : flit < assoc s.fab.sent k 0)
include hk hf

/-- The nak of a flit that an up plane has sent. -/
theorem flit_sent : ¬ ((!s.fab.planes.contains k) = true ∨ assoc s.fab.sent k 0 ≤ flit) := by
  simpa using And.intro hk hf

/-- Up to the fifteenth time it is sent again, and its retries are counted by its number (R316, log 61). -/
theorem flitLinkRetry_again (h : flitRetries s k flit < 15) : execFlitLinkRetry ⟨k, flit⟩ s = .next { s with fab := { s.fab with
    retries := s.fab.retries.filter (fun r => !(r.1 == k && r.2.1 == flit)) ++ [(k, flit, flitRetries s k flit + 1)] } } :=
  (if_neg (flit_sent hk hf)).trans (if_neg (Nat.not_le.2 (Nat.succ_lt_succ h)))

/-- At the sixteenth its plane is down (R315). -/
theorem flitLinkRetry_last (h : 15 ≤ flitRetries s k flit) : execFlitLinkRetry ⟨k, flit⟩ s = .next (planeGone s k) :=
  (if_neg (flit_sent hk hf)).trans (if_pos (Nat.succ_le_succ h))

end

/-- A port of an up plane of a device that has joined sends what it picks (R312, R324). -/
theorem fabricPacketSend_picked {x : Outgoing} (hj : s.fab.joined = true) (he : s.fab.en = true) (hk : k ∈ s.fab.planes)
    (hx : pickPacket s k = some x) : execFabricPacketSend k s = .next (leaveOn s k x) := by
  have hup : (s.fab.joined && s.fab.en && s.fab.planes.contains k) = true := by simp [hj, he, hk]
  simp only [execFabricPacketSend, hup, hx, if_true]

end

/-- Settles O56: a join by whether it is the first, a peer by its incarnation and state, a retry by how many there were. Besides the choice that
the statement names, that retries are counted for one flit by its number (log 61), and that EN does nothing before power or links (log 64), are the
model's. -/
theorem fabricStateEventsComplete : Obligations.FabricStateEventsComplete := by
  unfold Obligations.FabricStateEventsComplete
  refine ⟨fun s => fabCtlEn_begins, fun s => fabCtlEn_early, ?join, ?peer, fun s k => fabricPlaneUp_trained, fun s k => rfl, ?retry,
    fun s k x => fabricPacketSend_picked⟩
  case join => exact fun s id inc hj hp hl => ⟨fabricJoin_first hj hp hl, fabricJoin_again hj hp hl⟩
  case peer => exact fun s peer st inc => ⟨fabricPeerUpdate_up, fabricPeerUpdate_reborn, fabricPeerUpdate_down⟩
  case retry => exact fun s k flit hk hf => ⟨flitLinkRetry_again hk hf, flitLinkRetry_last hk hf⟩

end Sys2Proof.Machine
end

section
/-! PROOFS. The events of reliability (R331 to R340): self-tests and what they retire, range locks, in-field tests, and the watchdog. -/

namespace Sys2Proof.Machine

/-! ### Self-tests -/

section
variable {s : State} {u : FailUnit} {k n : Nat} {o : TestOutcome}

/-- A row or lane that fails is remapped while a spare is free (R337). -/
theorem testOutcome_spared (hl : spareLimit u = some n) (ho : o ≠ .pass) (h : spareUsed s.rel u k < n) : testOutcome s u k o = .spared := by
  cases o with
  | pass => exact absurd rfl ho
  | spared | noSpare => simp only [testOutcome, hl, if_pos h]

theorem testOutcome_noSpare (hl : spareLimit u = some n) (ho : o ≠ .pass) (h : n ≤ spareUsed s.rel u k) : testOutcome s u k o = .noSpare := by
  cases o with
  | pass => exact absurd rfl ho
  | spared | noSpare => simp only [testOutcome, hl, if_neg (Nat.not_lt.2 h)]

theorem testDone_pass : testDone s u k .pass = markBank s (unitBank u) (fun b => { b with transient := true }) := rfl

theorem testDone_spared (h : testOutcome s u k o = .spared) :
    testDone s u k o = markBank (modRel s (fun r => takeSpare r u k)) (unitBank u) (fun b => { b with spared := true }) := by
  simp only [testDone, h]

theorem testDone_noSpare (h : testOutcome s u k o = .noSpare) :
    testDone s u k o = raiseVec (retireUnit (markBank s (unitBank u) (fun b => { b with retired := true })) u) s.rel.ceVec := by
  simp only [testDone, h]

end

section
variable {s : State} {n row : Nat}

/-- The test of a row of an L2 slice that a record has started ends without the evacuation of a core (R337). -/
theorem selfTestComplete_slice (k : Nat) (o : TestOutcome) (h : (.l2Slice n, row) ∈ s.rel.tests) :
    execSelfTestComplete (.l2Slice n) ⟨k, row, o⟩ s = .next (testOver (testDone s (.l2Slice n) k o) (.l2Slice n) row none) := by
  have hgo : ¬ (!testUnderWay s (.l2Slice n) row) = true := by simpa [testUnderWay] using h
  exact if_neg hgo

/-- One that no record has started changes nothing (R337). -/
theorem selfTestComplete_unstarted {r : TestReport} (h : (.l2Slice n, r.row) ∉ s.rel.tests) : execSelfTestComplete (.l2Slice n) r s = .next s := by
  have hno : (!testUnderWay s (.l2Slice n) r.row) = true := by simpa [testUnderWay] using h
  exact if_pos hno

end

/-! ### Range locks and in-field tests -/

section
variable {s : State}

/-- A damaged entry whose owner can be read aborts that operation alone (R333). -/
theorem rangeLockEntryError_owned {l : Lock} (h : s.locks.find? (fun x => x.die == l.die && x.index == l.index) = some l) :
    execRangeLockEntryError l.die l.index true s = .next (rowRecord { s with
      locks := s.locks.map (fun x => if x.die = l.die ∧ x.index = l.index then { x with damaged := true } else x),
      ops := s.ops.map (fun o => if o.id == l.op then askAbort .lock o else o) }
      (some (.lockTable l.die)) (12 + l.die) 2 1 (some (w64 l.index)) none (miscOf 0 l.index)) := by
  simp only [execRangeLockEntryError, lockDamaged, h, if_true]

variable {c : Nat}

/-- A test that falls due holds its cluster and evacuates the contexts on it (R339). -/
theorem infieldTestDue_begins (h12 : c < 12) (h : s.rel.testing.contains c = false) : execInfieldTestDue c s
    = .next (evacuateCores (modRel s (fun r => { r with testing := r.testing ++ [c] })) (fun x => clusterOf x == c)) := by
  simp only [execInfieldTestDue, if_neg (Nat.not_le.2 h12), h, Bool.false_eq_true, if_false]

/-- A test that finds no unit failing releases its evacuated cluster (R339). -/
theorem infieldTestEnd_passes (h : s.rel.testing.contains c = true) (he : ctxsOn s (fun x => clusterOf x == c) = []) :
    execInfieldTestEnd c [] s = .next (modRel s (fun r => { r with testing := r.testing.filter (· != c) })) := by
  have hgo : ¬ ((!s.rel.testing.contains c) = true ∨ (!(ctxsOn s (fun x => clusterOf x == c)).isEmpty) = true) := by
    simp only [h, he, List.isEmpty_nil, Bool.not_true, Bool.false_eq_true, or_self, not_false_eq_true]
  exact if_neg hgo

/-! ### The watchdog -/

/-- A phase that is due fires, and the waves that wait at it leave their waits (R340). -/
theorem firePhase_due {team bar : Nat} {b : Barrier} (hb : (getTeam s team).bars[bar]? = some b) (h : phaseDue s team b = true) :
    firePhase s team bar = (phaseWaits s team bar).foldl (fireAt bar (barStatus b) b.phase)
      (modTeam s team (fun x => { x with bars := setAt x.bars bar { b with fired := true } })) := by
  simp only [firePhase, hb, h, if_true]

end

/-- Settles O58: an error by its site, a self-test by its outcome and the spares left, and the other events under what their clauses suppose. That a
self-test of core logic evacuates its core first and ends only when no team is left there, and that whole contexts are evacuated for an in-field
test, are the model's choices (log 54). -/
theorem reliabilityEventsComplete : Obligations.ReliabilityEventsComplete := by
  unfold Obligations.ReliabilityEventsComplete
  refine ⟨?error, ?slice, ?unstarted, fun s c k row o => rfl, fun s l => rangeLockEntryError_owned, fun s b => rfl,
    fun s c => infieldTestDue_begins, fun s c => infieldTestEnd_passes, ?watchdog⟩
  case error =>
    rintro s ⟨site, row, synd⟩
    refine ⟨?_, ?_, ?_, ?_⟩
    · rintro sp a h rfl
      exact ⟨rfl, rfl⟩
    · rintro w r m rfl
      exact ⟨rfl, rfl⟩
    · rintro core asid a n rfl
      exact ⟨rfl, rfl⟩
    · rintro (⟨core, asid, base, rfl⟩ | ⟨core, ctx, heap, rfl⟩)
      · exact ⟨rfl, rfl⟩
      · exact ⟨rfl, rfl⟩
  case slice =>
    intro s n k row o h u
    have hover {o : TestOutcome} {t : State} (ht : testDone s u k o = t) :
        Sys2Proof.Machine.exec (.selfTestComplete u ⟨k, row, o⟩) s = .next (testOver t u row none) := ht ▸ selfTestComplete_slice k o h
    exact ⟨hover testDone_pass, fun ho hs => hover (testDone_spared (testOutcome_spared rfl ho hs)),
      fun ho hs => hover (testDone_noSpare (testOutcome_noSpare rfl ho hs))⟩
  case unstarted =>
    rintro s n row r h rfl
    exact selfTestComplete_unstarted h
  case watchdog =>
    intro s team bar b hb he hres hf hc ht
    have hdue : phaseDue s team b = true := by simp only [phaseDue, he, hres, hf, hc, ht, Bool.not_false, Bool.and_self, decide_true]
    exact congrArg _ (firePhase_due hb hdue)

end Sys2Proof.Machine
end

section
/-! SUPPORT. The canonical form of memories (log 1) for what a state is made of: waves with their stacks, teams with their shelves, contexts with their
annexes, and the results that carry a state. A change of anything else keeps it (`keep`), and so does a change of a list by parts that keep it. -/

namespace Sys2Proof.Machine

/-! ### What the canonical form is of each part of a state -/

/-- The stack of a wave is in canonical form. -/
def Wave.memOk (w : Wave) : Prop := w.stack.wf = true

/-- The shelf of a team is in canonical form. -/
def Team.memOk (t : Team) : Prop := t.shelf.wf = true

/-- The annex of a context is in canonical form on every die. -/
def Ctx.memOk (c : Ctx) : Prop := ∀ m ∈ c.annex, Memory.wf m = true

/-- Whatever state the end of an instruction carries has its memories in canonical form. -/
def Out.memOk : Out → Prop
  | .done s | .jump s _ _ | .stay s _ | .leave s _ | .trap s _ | .park s _ _ | .over s => s.memOk

/-- The wave that a pop leaves has its stack in canonical form. -/
def Pop.memOk : Pop → Prop
  | .ok w _ => w.memOk
  | _ => True

/-- A state that is answered has its memories in canonical form. -/
def nextOk : Host.Outcome State Fault Refusal → Prop
  | .next s => s.memOk
  | _ => True

/-- A property of what an option holds. -/
def onSome {α : Type} (P : α → Prop) : Option α → Prop
  | some x => P x
  | none => True

/-- A property of what a computation gives. -/
def onOk {ε α : Type} (P : α → Prop) : Except ε α → Prop
  | .ok x => P x
  | .error _ => True

/-- A property of what a computation stops with. -/
def onError {ε α : Type} (P : ε → Prop) : Except ε α → Prop
  | .ok _ => True
  | .error e => P e

/-! ### From a value to what it was found to be -/

theorem onSome.of_eq {α : Type} {P : α → Prop} {o : Option α} {x : α} (h : onSome P o) (e : o = some x) : P x := by
  subst e
  exact h

theorem onOk.of_eq {ε α : Type} {P : α → Prop} {o : Except ε α} {x : α} (h : onOk P o) (e : o = .ok x) : P x := by
  subst e
  exact h

theorem onError.of_eq {ε α : Type} {P : ε → Prop} {o : Except ε α} {x : ε} (h : onError P o) (e : o = .error x) : P x := by
  subst e
  exact h

/-- What maps the value of a computation leaves what it stops with. -/
theorem onError.map {ε α β : Type} {P : ε → Prop} {f : α → β} {o : Except ε α} (h : onError P o) : onError P (o.map f) := by
  cases o with
  | ok x => trivial
  | error e => exact h

theorem Pop.memOk.of_eq {p p' : Pop} (h : p.memOk) (e : p = p') : p'.memOk := e ▸ h

theorem Out.memOk.of_eq {o o' : Out} (h : o.memOk) (e : o = o') : o'.memOk := e ▸ h

/-! ### The records -/

section
variable {s t : State} {v w : Wave}

/-- What changes anything but the memories and what holds them keeps their form. -/
theorem State.memOk.keep {s : State}
    {poison pending : List (Space × Nat)} {clk ns : Nat} {grids : List Grid} {tasks : List Task} {queues : List LaunchQ} {ops : List EngOp}
    {locks : List Lock} {mmas : List MmaOp} {units : List (Nat × Nat)} {bindery : List Bindery} {colours : List (Nat × Nat × Nat × Nat)}
    {fab : Fabric} {net : Net} {rel : Rel} {link : HostLink} {tlb : List TlbEntry} {icache : List ILine} {hiTemp loTemp : Nat}
    {hot : List Nat} {droops skipped : List (Nat × Nat)} {govEn : Bool} {govBudget govWin latWin : Nat} {dues : List Due}
    {refusals : List (Space × Nat × Nat)} {ctxEnd cxltBase : W64} {cxltSize : Nat} {serials : List (Nat × Nat)} {interrupts : List Nat}
    {mpInterrupts : Nat} {regions : List (W64 × W64 × W64)} {accEnds : List (W64 × W64)} {agenda : List Turn} {cur : Agent}
    {free nextId : Nat}
    (h : s.memOk) : State.memOk ⟨
      s.hbm, s.cxl, s.host, poison, pending, clk, ns, s.waves, s.teams, s.ctxs, grids, tasks, queues, ops, locks, mmas, units, bindery,
      colours, fab, net, rel, link, tlb, icache, hiTemp, loTemp, hot, droops, skipped, govEn, govBudget, govWin, latWin, dues, refusals,
      ctxEnd, cxltBase, cxltSize, serials, interrupts, mpInterrupts, regions, accEnds, agenda, cur, free, nextId⟩ := h

/-- What changes anything of a wave but its stack keeps its form. -/
theorem Wave.memOk.keep {w : Wave}
    {id ctx team idx role core slot width prio depth : Nat} {scope : W64} {fsw : Bool} {opened : List Nat} {regs : Regs} {hz : Horizon}
    {ctl : Ctl} {batchNo : W32} {batches : List Batch} {slice : Slice} {queues : List (List QEntry)} {popped : List (Nat × List W32)}
    {pops : List Nat} {stackTop lastReady issued : Nat}
    (hw : w.memOk) : Wave.memOk ⟨
      id, ctx, team, idx, role, core, slot, width, prio, depth, scope, fsw, opened, regs, hz, ctl, batchNo, batches, slice, queues, popped,
      pops, w.stack, stackTop, lastReady, issued⟩ := hw

/-- What changes anything of a team but its shelf keeps its form. -/
theorem Team.memOk.keep {t : Team}
    {id ctx : Nat} {kind : TeamKind} {index core : Nat} {pair : Bool} {rank prio : Nat} {kernel : Kernel} {shelfSize : Nat}
    {waves pools : List Nat} {claims : List (List Nat)} {bars : List Barrier} {bounds : List Bound} {saved : Option (Nat × Nat)}
    {imageKept : Bool} {order : Nat}
    (ht : t.memOk) : Team.memOk ⟨
      id, ctx, kind, index, core, pair, rank, prio, kernel, shelfSize, t.shelf, waves, pools, claims, bars, bounds, saved, imageKept,
      order⟩ := ht

/-- What changes anything of a context but its annex keeps its form. -/
theorem Ctx.memOk.keep {c : Ctx}
    {id : Nat} {desc : W64} {asid part : Nat} {priv : Bool} {annexSize : Nat} {ptroot heapt flog : W64} {flogn : Nat} {flogw : W32}
    {fswDesc saveAt : W64} {saveSize slice vec prioCap status : Nat} {halted : Bool} {haltWave : Option Nat} {dies : List (Option Nat)}
    {cursor : Nat} {scopes : List ScopeRec} {gens : List (Nat × Nat)} {fswWave : Option Nat} {fswPlaced : Bool} {records : List Nat}
    {since : Option Nat} {images : List Nat} {sealed : Bool}
    (hc : c.memOk) : Ctx.memOk ⟨
      id, desc, asid, part, priv, annexSize, ptroot, heapt, flog, flogn, flogw, fswDesc, saveAt, saveSize, slice, vec, prioCap, status,
      halted, haltWave, dies, c.annex, cursor, scopes, gens, fswWave, fswPlaced, records, since, images, sealed⟩ := hc

/-! ### What the canonical form of a state says of its parts -/

theorem State.memOk.hbm (h : s.memOk) : s.hbm.wf = true :=
  let ⟨x, _⟩ := h
  x

theorem State.memOk.cxl (h : s.memOk) : s.cxl.wf = true :=
  let ⟨_, x, _⟩ := h
  x

theorem State.memOk.host (h : s.memOk) : s.host.wf = true :=
  let ⟨_, _, x, _⟩ := h
  x

theorem State.memOk.teams (h : s.memOk) : ∀ t ∈ s.teams, t.memOk :=
  let ⟨_, _, _, x, _⟩ := h
  x

theorem State.memOk.waves (h : s.memOk) : ∀ w ∈ s.waves, w.memOk :=
  let ⟨_, _, _, _, x, _⟩ := h
  x

theorem State.memOk.ctxs (h : s.memOk) : ∀ c ∈ s.ctxs, c.memOk :=
  let ⟨_, _, _, _, _, x⟩ := h
  x

/-! ### The lists of waves, teams and contexts -/

theorem State.memOk.setWaves (h : s.memOk) {l : List Wave} (hl : ∀ w ∈ l, w.memOk) : { s with waves := l }.memOk :=
  ⟨h.hbm, h.cxl, h.host, h.teams, hl, h.ctxs⟩

theorem State.memOk.setTeams (h : s.memOk) {l : List Team} (hl : ∀ t ∈ l, t.memOk) : { s with teams := l }.memOk :=
  ⟨h.hbm, h.cxl, h.host, hl, h.waves, h.ctxs⟩

theorem State.memOk.setCtxs (h : s.memOk) {l : List Ctx} (hl : ∀ c ∈ l, c.memOk) : { s with ctxs := l }.memOk :=
  ⟨h.hbm, h.cxl, h.host, h.teams, h.waves, hl⟩

/-- Every wave changed, and anything but the memories and what holds them. -/
theorem State.memOk.mapWaves {s : State} {f : Wave → Wave}
    {poison pending : List (Space × Nat)} {clk ns : Nat} {grids : List Grid} {tasks : List Task} {queues : List LaunchQ} {ops : List EngOp}
    {locks : List Lock} {mmas : List MmaOp} {units : List (Nat × Nat)} {bindery : List Bindery} {colours : List (Nat × Nat × Nat × Nat)}
    {fab : Fabric} {net : Net} {rel : Rel} {link : HostLink} {tlb : List TlbEntry} {icache : List ILine} {hiTemp loTemp : Nat}
    {hot : List Nat} {droops skipped : List (Nat × Nat)} {govEn : Bool} {govBudget govWin latWin : Nat} {dues : List Due}
    {refusals : List (Space × Nat × Nat)} {ctxEnd cxltBase : W64} {cxltSize : Nat} {serials : List (Nat × Nat)} {interrupts : List Nat}
    {mpInterrupts : Nat} {regions : List (W64 × W64 × W64)} {accEnds : List (W64 × W64)} {agenda : List Turn} {cur : Agent}
    {free nextId : Nat}
    (h : s.memOk) (hf : ∀ {w}, w.memOk → (f w).memOk) : State.memOk ⟨
      s.hbm, s.cxl, s.host, poison, pending, clk, ns, s.waves.map f, s.teams, s.ctxs, grids, tasks, queues, ops, locks, mmas, units, bindery,
      colours, fab, net, rel, link, tlb, icache, hiTemp, loTemp, hot, droops, skipped, govEn, govBudget, govWin, latWin, dues, refusals,
      ctxEnd, cxltBase, cxltSize, serials, interrupts, mpInterrupts, regions, accEnds, agenda, cur, free, nextId⟩ :=
  ⟨h.hbm, h.cxl, h.host, h.teams, List.forall_mem_map.2 fun w hw => hf (h.waves w hw), h.ctxs⟩

theorem State.memOk.filterWaves (h : s.memOk) {p : Wave → Bool} : { s with waves := s.waves.filter p }.memOk :=
  h.setWaves fun w hw => h.waves w (List.mem_filter.1 hw).1

theorem State.memOk.filterTeams (h : s.memOk) {p : Team → Bool} : { s with teams := s.teams.filter p }.memOk :=
  h.setTeams fun w hw => h.teams w (List.mem_filter.1 hw).1

theorem State.memOk.appendWaves (h : s.memOk) {l : List Wave} (hl : ∀ w ∈ l, w.memOk) : { s with waves := s.waves ++ l }.memOk :=
  h.setWaves (List.forall_mem_append.2 ⟨h.waves, hl⟩)

theorem State.memOk.appendTeams (h : s.memOk) {l : List Team} (hl : ∀ w ∈ l, w.memOk) : { s with teams := s.teams ++ l }.memOk :=
  h.setTeams (List.forall_mem_append.2 ⟨h.teams, hl⟩)

theorem State.memOk.appendCtxs (h : s.memOk) {l : List Ctx} (hl : ∀ w ∈ l, w.memOk) : { s with ctxs := s.ctxs ++ l }.memOk :=
  h.setCtxs (List.forall_mem_append.2 ⟨h.ctxs, hl⟩)

/-- A wave put back. -/
theorem State.memOk.putBack (h : s.memOk) (hw : w.memOk) : (Machine.putWave s w).memOk := h.putWave hw

/-- A wave changed in place. -/
theorem State.memOk.onWave {id : Nat} {f : Wave → Wave} (h : s.memOk) (hf : ∀ {w}, w.memOk → (f w).memOk) : (Machine.modWave s id f).memOk :=
  h.modWave id f fun _ => hf

/-- A team changed in place. -/
theorem State.memOk.onTeam {id : Nat} {f : Team → Team} (h : s.memOk) (hf : ∀ {t}, t.memOk → (f t).memOk) : (Machine.modTeam s id f).memOk :=
  h.modTeam id f fun _ => hf

/-- A context changed in place. -/
theorem State.memOk.onCtx {id : Nat} {f : Ctx → Ctx} (h : s.memOk) (hf : ∀ {c}, c.memOk → (f c).memOk) : (Machine.modCtx s id f).memOk :=
  h.modCtx id f fun _ => hf

theorem State.memOk.findWave {id : Nat} (h : s.memOk) : onSome Wave.memOk (Machine.findWave s id) := by
  cases e : Machine.findWave s id with
  | none => trivial
  | some w => exact h.waves w (List.mem_of_find?_eq_some e)

theorem State.memOk.waves_find? {p : Wave → Bool} (h : s.memOk) : onSome Wave.memOk (s.waves.find? p) := by
  cases e : s.waves.find? p with
  | none => trivial
  | some w => exact h.waves w (List.mem_of_find?_eq_some e)

/-! ### Loops and choices -/

/-- What every turn of a loop keeps, the loop keeps. -/
theorem foldl_keeps {α β : Type} {P : β → Prop} {l : List α} {f : β → α → β} {b : β} (h : P b) (hf : ∀ {b x}, P b → P (f b x)) :
    P (l.foldl f b) :=
  List.foldlRecOn l f h fun _ hb _ _ => hf hb

theorem State.memOk.foldl {α : Type} {l : List α} {f : State → α → State} (h : s.memOk) (hf : ∀ {s x}, State.memOk s → (f s x).memOk) :
    (l.foldl f s).memOk :=
  foldl_keeps h hf

/-- A loop over a state and something beside it. -/
theorem State.memOk.foldlFst {α β : Type} {l : List α} {f : State × β → α → State × β} {p : State × β} (h : p.1.memOk)
    (hf : ∀ {p x}, State.memOk (Prod.fst p) → (f p x).1.memOk) : (l.foldl f p).1.memOk :=
  foldl_keeps (P := fun p : State × β => p.1.memOk) h hf

theorem Wave.memOk.foldl {α : Type} {l : List α} {f : Wave → α → Wave} (hw : w.memOk) (hf : ∀ {w x}, Wave.memOk w → (f w x).memOk) :
    (l.foldl f w).memOk :=
  foldl_keeps hw hf

theorem onSome_map {α β : Type} {P : β → Prop} {f : α → β} {o : Option α} (h : ∀ x, P (f x)) : onSome P (o.map f) := by
  cases o with
  | none => trivial
  | some x => exact h x

theorem onSome_map_of {α β : Type} {P : α → Prop} {Q : β → Prop} {f : α → β} {o : Option α} (ho : onSome P o)
    (h : ∀ {x}, P x → Q (f x)) : onSome Q (o.map f) := by
  cases o with
  | none => trivial
  | some x => exact h ho

theorem getD_keeps {α : Type} {P : α → Prop} {o : Option α} {d : α} (ho : onSome P o) (hd : P d) : P (o.getD d) := by
  cases o with
  | none => exact hd
  | some x => exact ho

/-- A choice keeps what both its branches keep. How the condition is decided is taken from the goal: to find it again could unfold a comparison with
a large number. -/
theorem ite_keeps {α : Type} {P : α → Prop} {c : Prop} {_ : Decidable c} {a b : α} (ha : P a) (hb : P b) : P (if c then a else b) := by
  split
  · exact ha
  · exact hb

end

end Sys2Proof.Machine
end

section
/-! SUPPORT. What each function of the model keeps of the canonical form of memories, in the order of the model. The lemma about a function has the
function's name, so that its proof reads as the function's own chain of calls. -/

namespace Sys2Proof.Machine

/-! ### The operations over the state (Machine/Ops.lean) -/

theorem Wave.memOk.setSt {w : Wave} {st : WState} {wt : Wait} (hw : w.memOk) : (Machine.setSt w st wt).memOk :=
  hw

theorem State.memOk.freeWords {s : State} {n : Nat} (h : s.memOk) : (Machine.freeWords s n).2.memOk :=
  h

theorem State.memOk.putBank {s : State} {b : Nat} {x : Bank} (h : s.memOk) : (Machine.putBank s b x).memOk :=
  h

theorem State.memOk.raiseVec {s : State} {v : Nat} (h : s.memOk) : (Machine.raiseVec s v).memOk :=
  h

theorem State.memOk.higherFirst {s : State} {bank cls : Nat} (h : s.memOk) : (Machine.higherFirst s bank cls).memOk := by
  dsimp only [Machine.higherFirst]
  split
  · exact .putBank h.keep
  · exact h

theorem State.memOk.errRecord {s₀ : State} {bank cls src : Nat} {addr synd : Option W64} {misc : W64} (h : s₀.memOk) :
    (Machine.errRecord s₀ bank cls src addr synd misc).memOk := by
  dsimp only [Machine.errRecord]
  split
  · split
    · exact .raiseVec (.putBank (.higherFirst h.keep))
    · exact .putBank (.higherFirst h.keep)
  · split
    · exact .raiseVec (.putBank (.higherFirst h.keep))
    · exact .keep (.raiseVec (.putBank (.higherFirst h.keep)))

theorem State.memOk.startTest {s : State} {u : FailUnit} {row : Nat} (h : s.memOk) : (Machine.startTest s u row).memOk := by
  dsimp only [Machine.startTest]
  split <;> exact h

theorem State.memOk.rowRecord {s : State} {u : Option FailUnit} {bank cls src : Nat} {addr synd : Option W64} {misc : W64} (h : s.memOk) :
    (Machine.rowRecord s u bank cls src addr synd misc).memOk := by
  dsimp only [Machine.rowRecord]
  split
  · exact h.errRecord.startTest
  · exact h.errRecord

theorem Wave.memOk.dropSlip {w : Wave} {t : W32} (hw : w.memOk) : (Machine.dropSlip w t).memOk :=
  hw

theorem State.memOk.cancelMark {s : State} {ctx slot : Nat} (h : s.memOk) : (Machine.cancelMark s ctx slot).memOk :=
  .keep (.foldl (h.onCtx fun hc => hc) fun h => ite_keeps h (h.onWave fun hw => hw.dropSlip))

theorem Wave.memOk.releaseAt {s : State} {team n : Nat} {ph : W32} {w : Wave} (hw : w.memOk) :
    (Machine.releaseAt s team n ph w).memOk := by
  dsimp only [Machine.releaseAt]
  split
  · split
    · split
      · exact hw.setSt
      · exact hw
    · split
      · exact hw.setSt
      · exact hw
    · exact hw
  · exact hw

theorem State.memOk.barCheck {s : State} {team n : Nat} (h : s.memOk) : (Machine.barCheck s team n).memOk := by
  dsimp only [Machine.barCheck]
  split
  · split
    · exact .mapWaves (h.onTeam fun ht => ht) (fun hw => hw.releaseAt)
    · exact h
  · exact h

theorem State.memOk.barCheckAll {s : State} {team : Nat} (h : s.memOk) : (Machine.barCheckAll s team).memOk :=
  h.foldl fun h => h.barCheck

theorem State.memOk.barLeave {s : State} {w : Wave} (h : s.memOk) : (Machine.barLeave s w).memOk :=
  .barCheckAll (h.onTeam fun ht => ht)

theorem State.memOk.flogWrite {s : State} {ctx : Nat} {l : List Byte} (h : s.memOk) : (Machine.flogWrite s ctx l).memOk :=
  ((h.sysWrite _ _).sysWrite _ _).onCtx fun hc => hc

theorem State.memOk.setStatus {s : State} {ctx st : Nat} (h : s.memOk) : (Machine.setStatus s ctx st).memOk :=
  (h.sysWrite _ _).onCtx fun hc => hc

theorem Wave.memOk.discardHeld {w : Wave} {t : W32} (hw : w.memOk) : (Machine.discardHeld w t).1.memOk :=
  hw

theorem Wave.memOk.discardAllHeld {w : Wave} (hw : w.memOk) : (Machine.discardAllHeld w).memOk :=
  hw

theorem State.memOk.logSlip {s : State} {w : Wave} {x : Slip} (h : s.memOk) (hw : w.memOk) :
    (Machine.logSlip s w x).1.memOk ∧ (Machine.logSlip s w x).2.memOk :=
  ⟨h.flogWrite, hw.discardHeld.dropSlip⟩

theorem State.memOk.logPending {n : Nat} {s : State} {w : Wave} (h : s.memOk) (hw : w.memOk) :
    (Machine.logPending n s w).1.memOk ∧ (Machine.logPending n s w).2.memOk := by
  induction n generalizing s w with
  | zero => exact ⟨h, hw⟩
  | succ n ih =>
    unfold Machine.logPending
    split
    · exact ih (h.logSlip hw).1 (h.logSlip hw).2
    · exact ⟨h, hw⟩

theorem State.memOk.logEvents {s : State} {w : Wave} (h : s.memOk) (hw : w.memOk) :
    (Machine.logEvents s w).1.memOk ∧ (Machine.logEvents s w).2.memOk := by
  dsimp only [Machine.logEvents]
  refine ⟨?_, hw⟩
  split
  · exact .flogWrite (ite_keeps h.flogWrite h)
  · split
    · exact h.flogWrite
    · exact h

theorem State.memOk.claimLeave {s : State} {w : Wave} (h : s.memOk) : (Machine.claimLeave s w).memOk :=
  h.onTeam fun ht => ht

theorem State.memOk.killCore {s : State} {id : Nat} (h : s.memOk) : (Machine.killCore s id).memOk := by
  dsimp only [Machine.killCore]
  split
  · exact h
  · rename_i e
    split
    · exact h
    · obtain ⟨hs, hw⟩ := h.logPending (h.findWave.of_eq e)
      exact .barLeave (.onCtx (.claimLeave (hs.putBack hw.discardAllHeld.keep)) fun hc => hc)

theorem Wave.memOk.stopWave {w : Wave} (hw : w.memOk) : (Machine.stopWave w).memOk := by
  dsimp only [Machine.stopWave]
  split
  · exact hw
  · exact hw
  · exact hw
  · exact hw
  · exact hw
  · exact hw
  · exact .keep hw.setSt

theorem State.memOk.logStopped {s : State} {id : Nat} (h : s.memOk) : (Machine.logStopped s id).memOk := by
  dsimp only [Machine.logStopped]
  split
  · rename_i e
    split
    · obtain ⟨hs, hw⟩ := h.logPending (h.findWave.of_eq e)
      exact hs.putBack hw
    · exact h
  · exact h

theorem State.memOk.haltCtx {s : State} {ctx : Nat} {issuer : Option Nat} (h : s.memOk) : (Machine.haltCtx s ctx issuer).memOk := by
  unfold Machine.haltCtx
  extract_lets s₁ s₂ s₃
  have h₂ : s₂.memOk := h.setStatus.onCtx fun hc => hc
  have h₃ : s₃.memOk := by
    refine ⟨h₂.hbm, h₂.cxl, h₂.host, List.forall_mem_map.2 fun t ht => ?_, List.forall_mem_map.2 fun w hw => ?_, h₂.ctxs⟩
    · exact ite_keeps (P := Team.memOk) (h₂.teams t ht) (h₂.teams t ht)
    · exact ite_keeps (P := Wave.memOk) (h₂.waves w hw).stopWave (h₂.waves w hw)
  exact h₃.foldl fun h => h.logStopped

theorem State.memOk.modQueue {s : State} {q : Nat} {f : LaunchQ → LaunchQ} (h : s.memOk) : (Machine.modQueue s q f).memOk :=
  h

theorem State.memOk.dropDeps {s : State} {queue : Nat} (h : s.memOk) : (Machine.dropDeps s queue).memOk := by
  dsimp only [Machine.dropDeps]
  split
  · exact .keep h.modQueue
  · exact h.modQueue

theorem State.memOk.dropHeld {s : State} {queue : Nat} (h : s.memOk) : (Machine.dropHeld s queue).memOk :=
  h.dropDeps.modQueue

theorem State.memOk.dropLaunches {s : State} {ctx : Nat} (h : s.memOk) : (Machine.dropLaunches s ctx).memOk := by
  dsimp only [Machine.dropLaunches]
  refine h.foldl fun h => ?_
  split
  · split
    · exact h.dropHeld
    · exact h
  · exact h

theorem State.memOk.endCtx {s : State} {ctx : Nat} (h : s.memOk) : (Machine.endCtx s ctx).memOk := by
  unfold Machine.endCtx
  refine .onCtx (.keep (.dropLaunches (h.foldl fun h => h.killCore))) fun _ => ?_
  simp [Ctx.memOk]

theorem State.memOk.haltCheck {s : State} {ctx : Nat} (h : s.memOk) : (Machine.haltCheck s ctx).memOk := by
  dsimp only [Machine.haltCheck]
  split
  · exact h.endCtx
  · exact h

theorem State.memOk.killWave {s : State} {id : Nat} (h : s.memOk) : (Machine.killWave s id).memOk := by
  dsimp only [Machine.killWave]
  split
  · exact h
  · split
    · exact h.killCore.endCtx
    · exact h.killCore.haltCheck

theorem Wave.memOk.takePending {w : Wave} {t : TrapInfo} (hw : w.memOk) : (Machine.takePending w t).memOk := by
  dsimp only [Machine.takePending]
  split
  · exact hw
  · split <;> exact hw
  · exact hw
  · exact hw

theorem Wave.memOk.enterHandler {w : Wave} {pc : W64} {between : Bool} (hw : w.memOk) : (Machine.enterHandler w pc between).memOk :=
  hw

/-- A trap writes its frame to the wave's own stack, or its entry to the fault log. -/
theorem State.memOk.takeTrap {s : State} {id : Nat} {t : TrapInfo} (h : s.memOk) : (Machine.takeTrap s id t).memOk := by
  unfold Machine.takeTrap
  split
  · exact h
  · rename_i w₀ e
    have hw₀ := h.findWave.of_eq e
    split
    rename_i w₁ n e₁
    have hw : w₁.memOk := by
      split at e₁ <;> cases e₁
      · exact hw₀.keep
      · exact hw₀
    extract_lets w₂ frame k s₁ logged c s₂
    clear_value frame
    have hw₂ : w₂.memOk := hw.takePending
    have h₁ : s₁.memOk := .claimLeave (h.putBack hw₂)
    have hl : logged.memOk := by
      refine .flogWrite (.putBack h₁ ?_)
      split
      · exact hw₂.dropSlip
      · exact hw₂
    split
    · exact hl.killWave
    · split
      · exact hl.haltCtx.haltCheck
      · split
        · exact .putBack (h₁.writeRange _ _ _) (.enterHandler (memPuts_wf hw₂ _ _))
        · split
          · exact hl.haltCtx.haltCheck
          · split
            · split
              · exact hl.killWave
              · exact hl.killWave.cancelMark
            · exact hl.killWave

theorem Wave.memOk.returnFromTrap {w : Wave} (hw : w.memOk) : (Machine.returnFromTrap w).memOk :=
  hw

theorem Wave.memOk.noteFault {w : Wave} {cause : Nat} {addr : W64} (hw : w.memOk) : (Machine.noteFault w cause addr).memOk := by
  unfold Machine.noteFault
  split <;> exact hw.keep

theorem Wave.memOk.noteFailure {w : Wave} {cause : Nat} (hw : w.memOk) : (Machine.noteFailure w cause).memOk :=
  hw

theorem State.memOk.allDeadCheck {s : State} {id : Nat} (h : s.memOk) : (Machine.allDeadCheck s id).memOk := by
  dsimp only [Machine.allDeadCheck]
  split
  · exact h
  · rename_i e
    split
    · obtain ⟨h₁, hw₁⟩ := h.logPending (h.findWave.of_eq e)
      obtain ⟨h₂, hw₂⟩ := h₁.logEvents hw₁
      exact .barLeave (.errRecord (.onCtx (.claimLeave (h₂.putBack hw₂.keep)) fun hc => hc))
    · exact h

theorem State.memOk.markDead {s : State} {id : Nat} {m : Mask} (h : s.memOk) : (Machine.markDead s id m).memOk := by
  dsimp only [Machine.markDead]
  split
  · exact h
  · exact .allDeadCheck (h.onWave fun hw => hw)

/-! ### Operands (Machine/Operands.lean) -/

theorem Wave.memOk.setS {w : Wave} {n : Nat} {v : W64} (hw : w.memOk) : (Machine.setS w n v).memOk :=
  hw

theorem Wave.memOk.setK {w : Wave} {n : Nat} {v : Mask} (hw : w.memOk) : (Machine.setK w n v).memOk := by
  dsimp only [Machine.setK]
  split <;> exact hw

theorem Wave.memOk.setH {w : Wave} {n : Nat} {v : Option Handle} (hw : w.memOk) : (Machine.setH w n v).memOk :=
  hw

theorem Wave.memOk.setCC {w : Wave} {v : W32} (hw : w.memOk) : (Machine.setCC w v).memOk :=
  hw

/-! ### Flags and write-back (Machine/Flags.lean) -/

theorem Wave.memOk.poisonReg {w : Wave} {r : Nat} {m : Mask} (hw : w.memOk) : (Machine.poisonReg w r m).memOk :=
  hw

theorem Wave.memOk.putVRegs {w : Wave} {ws : List (Nat × List (Nat × W32))} (hw : w.memOk) : (Machine.putVRegs w ws).memOk :=
  hw

theorem Wave.memOk.noteFlags {w : Wave} {ns : List Nat} (hw : w.memOk) : (Machine.noteFlags w ns).memOk := by
  dsimp only [Machine.noteFlags]
  split <;> exact hw

theorem Wave.memOk.checkedWrite {t : Team} {w : Wave} {ws : List (Nat × List (Nat × W32))} (hw : w.memOk) :
    onOk Wave.memOk (Machine.checkedWrite t w ws) := by
  dsimp only [Machine.checkedWrite]
  split
  · exact hw.putVRegs
  · split
    · exact trivial
    · exact hw.putVRegs.noteFlags

theorem Wave.memOk.writeEff {t : Team} {w : Wave} {e : Eff} {nwb : Bool} (hw : w.memOk) :
    onOk Wave.memOk (Machine.writeEff t w e nwb) := by
  unfold Machine.writeEff
  extract_lets rest
  have hrest : ∀ {w}, w.memOk → (rest w).memOk := by
    intro w hw
    dsimp only [rest]
    generalize e' : List.foldl _ _ e.extra = x
    have hx : x.memOk := by
      subst e'
      exact .foldl (ite_keeps hw (.foldl (.foldl (.foldl hw fun hw => hw.setS) fun hw => hw.setK) fun hw => hw.setH)) fun hw => hw.setS
    split
    · exact hx.keep
    · exact hx
  split
  · exact hrest hw
  · split
    · rename_i e
      exact hrest (hw.checkedWrite.of_eq e)
    · trivial

/-! ### Translation and fetch (Machine/Xlate.lean) -/

theorem State.memOk.cacheXlate {s : State} {e : TlbEntry} (h : s.memOk) : (Machine.cacheXlate s e).memOk := by
  dsimp only [Machine.cacheXlate]
  split <;> exact h

theorem State.memOk.setDirty {s : State} {e : TlbEntry} (h : s.memOk) : (Machine.setDirty s e).memOk := by
  dsimp only [Machine.setDirty]
  split
  · exact h
  · exact (h.writeRange _ _ _).cacheXlate

theorem State.memOk.putLine {s : State} {x : ILine} (h : s.memOk) : (Machine.putLine s x).memOk :=
  h

theorem State.memOk.cacheLine {s : State} {core : Nat} {e : TlbEntry} {pc : W64} {l : List Byte} (h : s.memOk) :
    (Machine.cacheLine s core e pc l).memOk := by
  dsimp only [Machine.cacheLine]
  split
  · exact h.cacheXlate
  · exact h.cacheXlate.putLine

theorem State.memOk.refetch {s : State} {core : Nat} {e : TlbEntry} {pc : W64} (h : s.memOk) : (Machine.refetch s core e pc).memOk := by
  dsimp only [Machine.refetch]
  split
  · exact h
  · split
    · exact h
    · split
      · exact .rowRecord h.keep
      · exact h

theorem State.memOk.refetchAt {s : State} {w : Wave} {pc : W64} (h : s.memOk) : (Machine.refetchAt s w pc).memOk := by
  dsimp only [Machine.refetchAt]
  split
  · exact h.refetch
  · exact h

/-! ### The sending side of the fabric (Machine/Packet.lean) -/

theorem State.memOk.putSpaceOut {s : State} {x : SeqOut} (h : s.memOk) : (Machine.putSpaceOut s x).memOk :=
  h

theorem State.memOk.sendPacket {s : State} {a : Access} {els : List Elem} {sp : SeqSpace} {asid : Nat} {owner : Owner} {hold : Bool}
    (h : s.memOk) : (Machine.sendPacket s a els sp asid owner hold).memOk :=
  .keep (.putSpaceOut h.keep)

theorem State.memOk.sendAll {s : State} {a : Access} {asid : Nat} {stream : Option Nat} {owner : Owner} {hold : Bool} (h : s.memOk) :
    (Machine.sendAll s a asid stream owner hold).memOk :=
  h.foldl fun h => ite_keeps (h.foldl fun h => h.sendPacket) h

/-! ### The managed heap (Machine/Heap.lean) -/

theorem State.memOk.dirtyAt {s : State} {c : Ctx} {a : W64} (h : s.memOk) : (Machine.dirtyAt s c a).memOk := by
  dsimp only [Machine.dirtyAt]
  split
  · split
    · exact h.setDirty
    · exact h
  · exact h

theorem State.memOk.askHost {s : State} {asid : Nat} {page : W64} (h : s.memOk) : (Machine.askHost s asid page).memOk := by
  dsimp only [Machine.askHost]
  split <;> exact h

theorem State.memOk.dropAts {s : State} {go : Nat → W64 → Bool} (h : s.memOk) : (Machine.dropAts s go).memOk :=
  h

theorem State.memOk.heardHost {s : State} {asid : Nat} {page : W64} {write : Bool} (h : s.memOk) :
    (Machine.heardHost s asid page write).memOk := by
  dsimp only [Machine.heardHost]
  split
  · exact .keep h.dropAts
  · exact h

theorem State.memOk.askAll {s : State} {c : Ctx} {ps : List W64} (h : s.memOk) : (Machine.askAll s c ps).memOk :=
  h.foldl fun h => h.askHost

theorem State.memOk.heardAll {s : State} {c : Ctx} {a : W64} {n : Nat} {write : Bool} (h : s.memOk) :
    (Machine.heardAll s c a n write).memOk :=
  h.foldl fun h => h.heardHost

theorem State.memOk.ctxWrite {s : State} {c : Ctx} {a : W64} {l : List Byte} (h : s.memOk) :
    onSome State.memOk (Machine.ctxWrite s c a l) :=
  onSome_map fun _ => (h.writeRange _ _ _).dirtyAt

theorem State.memOk.ctxPut {s : State} {c : Ctx} {a : W64} {l : List Byte} (h : s.memOk) : (Machine.ctxPut s c a l).memOk :=
  getD_keeps h.ctxWrite h

theorem State.memOk.lostIncrement {s : State} {a : W64} (h : s.memOk) : (Machine.lostIncrement s a).memOk :=
  h.errRecord

theorem State.memOk.addOne {s : State} {sp : Space} {o : Nat} (h : s.memOk) : (Machine.addOne s sp o).memOk :=
  h.writeRange _ _ _

theorem State.memOk.bumpGlobal {s : State} {c : Ctx} {a : W64} {loud : Bool} (h : s.memOk) : (Machine.bumpGlobal s c a loud).memOk := by
  dsimp only [Machine.bumpGlobal]
  split
  · split
    · exact h
    · split
      · split
        · exact h.lostIncrement
        · exact h
      · exact h.addOne.dirtyAt
  · split
    · split
      · split
        · split
          · exact h.setDirty.sendAll
          · exact h
        · split
          · exact h.heardAll.lostIncrement
          · exact h.heardAll
      · split
        · exact h.lostIncrement
        · exact h
    · exact .keep h.askAll

theorem State.memOk.putCat {s : State} {c : Ctx} {e : CatEntry} (h : s.memOk) : (Machine.putCat s c e).memOk :=
  h.ctxPut

/-! ### The accesses of a wave (Machine/Mem.lean) -/

theorem State.memOk.cacheAt {s : State} {c : Ctx} {a : W64} (h : s.memOk) : (Machine.cacheAt s c a).memOk := by
  dsimp only [Machine.cacheAt]
  split
  · split
    · exact h.cacheXlate
    · exact h
  · exact h

theorem State.memOk.noteForbidden {s : State} {core o : Nat} (h : s.memOk) : (Machine.noteForbidden s core o).memOk :=
  h.errRecord

theorem State.memOk.dirtyPlace {s : State} {c : Ctx} {a : W64} {sp : Space} {o : Nat} (h : s.memOk) :
    (Machine.dirtyPlace s c a sp o).memOk := by
  dsimp only [Machine.dirtyPlace]
  split
  · split
    · split
      · split
        · exact h.setDirty
        · exact h
      · split
        · exact h.setDirty
        · exact h
      · split
        · exact h.setDirty
        · exact h
      · split
        · exact h.setDirty
        · exact h
    · exact h
  · exact h

theorem State.memOk.doElem {s : State} {core : Nat} {c : Ctx} {k : AccKind} {t : Ty} {e : Elem} {sp : Space} {o : Nat} (h : s.memOk) :
    (Machine.doElem s core c k t e sp o).1.memOk := by
  dsimp only [Machine.doElem]
  split
  · split
    · exact h.noteForbidden
    · exact h.cacheAt
  · split
    · exact h.noteForbidden
    · exact (h.cacheAt.writeBytes _ _ _).dirtyPlace
  · split
    · split
      · exact h.noteForbidden
      · exact h.cacheAt
    · exact .dirtyPlace (.writeBytes (ite_keeps h.noteForbidden h.cacheAt) _ _ _)
  · split
    · split
      · exact h.noteForbidden
      · exact h.cacheAt
    · split
      · exact .dirtyPlace (.writeBytes (ite_keeps h.noteForbidden h.cacheAt) _ _ _)
      · split
        · exact h.noteForbidden
        · exact h.cacheAt

theorem State.memOk.clearStored {s : State} {core : Nat} {a : Access} {link : Bool} (h : s.memOk) :
    (Machine.clearStored s core a link).memOk := by
  dsimp only [Machine.clearStored]
  split
  · exact h
  · split
    · exact h.foldl fun h => h.clearPoison _ _
    · exact h

theorem State.memOk.perform {s : State} {core : Nat} {c : Ctx} {a₀ : Access} {link : Bool} (h : s.memOk) :
    (Machine.perform s core c a₀ link).1.memOk := by
  dsimp only [Machine.perform]
  refine .clearStored (h.foldlFst fun h => ?_)
  split
  · exact h.doElem
  · exact h

theorem State.memOk.healRef {s : State} {core : Nat} {c : Ctx} {e : Elem} {old new : W64} (h : s.memOk) :
    (Machine.healRef s core c e old new).memOk := by
  dsimp only [Machine.healRef]
  split
  · split
    · exact h
    · split
      · exact h
      · split
        · exact (h.writeRange _ _ _).dirtyAt
        · exact h
  · split
    · exact h
    · split
      · exact h
      · split
        · exact (h.writeRange _ _ _).dirtyAt
        · exact h
  · split
    · split
      · exact h.sendAll
      · exact h
    · exact h
  · exact h

theorem State.memOk.retryDues {s : State} (h : s.memOk) : (Machine.retryDues s).memOk := by
  dsimp only [Machine.retryDues]
  split
  · exact h
  · refine .foldl h.keep fun h => ?_
    split
    · exact h.bumpGlobal
    · exact h.healRef

theorem Wave.memOk.snapWrite {t : Team} {w : Wave} {snap : Option Snap} {ws : List (Nat × List (Nat × W32))} (hw : w.memOk) :
    onOk Wave.memOk (Machine.snapWrite t w snap ws) := by
  dsimp only [Machine.snapWrite]
  split
  · exact hw.checkedWrite
  · split
    · rename_i e
      exact .keep ((Wave.memOk.checkedWrite hw.keep).of_eq e)
    · exact trivial

theorem State.memOk.writeGot {s : State} {wid : Nat} {a : Access} {g₀ : List Got} {snap : optParam (Option Snap) none} (h : s.memOk) :
    onOk State.memOk (Machine.writeGot s wid a g₀ snap) := by
  dsimp only [Machine.writeGot]
  split
  · exact h
  · rename_i e₁
    split
    · exact h
    · split
      · exact h.putBack (.setS (h.findWave.of_eq e₁))
      · exact h
    · split
      · split
        · split
          · exact .healRef (h.putBack (.setH (h.findWave.of_eq e₁)))
          · exact h.putBack (.setH (h.findWave.of_eq e₁))
        · exact trivial
      · exact h
    · split
      · rename_i e₂
        exact h.putBack ((Wave.memOk.snapWrite (h.findWave.of_eq e₁)).of_eq e₂)
      · exact trivial

theorem State.memOk.consume {s : State} {wid : Nat} {a : Access} {m : Mask} (h : s.memOk) : (Machine.consume s wid a m).memOk := by
  dsimp only [Machine.consume]
  split
  · exact h
  · split
    · exact h.markDead
    · exact h.onWave fun hw => hw

theorem Wave.memOk.putSlip {w : Wave} {x : Slip} (hw : w.memOk) : (Machine.putSlip w x).memOk :=
  hw

theorem State.memOk.modSlip {s : State} {wid : Nat} {t : W32} {f : Slip → Slip} (h : s.memOk) : (Machine.modSlip s wid t f).memOk :=
  h.onWave fun hw => hw

theorem State.memOk.failSlip {s : State} {wid : Nat} {x : Slip} (h : s.memOk) : (Machine.failSlip s wid x).memOk := by
  unfold Machine.failSlip
  split
  · exact h
  · rename_i w e
    extract_lets _ w₁
    have hw : w.memOk := h.findWave.of_eq e
    have hw₁ : w₁.memOk := ite_keeps hw.noteFailure hw
    split
    · exact (h.logSlip hw₁).1.putBack (h.logSlip hw₁).2
    · split
      · exact h.putBack hw₁.noteFault.dropSlip
      · exact h.putBack hw₁.putSlip

theorem State.memOk.endMem {s : State} {wid : Nat} {x : Slip} {a : Access} {got : List Got} (h : s.memOk) :
    (Machine.endMem s wid x a got).memOk := by
  unfold Machine.endMem
  extract_lets bad pm x₁ good fix snap
  split
  · rename_i s₁ e
    have h₁ : s₁.memOk := h.writeGot.of_eq e
    extract_lets s₂
    have h₂ : s₂.memOk := ite_keeps h₁ h₁.consume
    split
    · exact h₂.failSlip
    · exact h₂.onWave fun hw => hw.dropSlip
  · extract_lets y s₁ s₂
    have h₁ : s₁.memOk := by
      refine ite_keeps ?_ h
      split
      · rename_i e
        exact h.writeGot.of_eq e
      · exact h
    have h₂ : s₂.memOk := ite_keeps h₁ h₁.consume
    exact h₂.failSlip

theorem State.memOk.dirtyPeer {s : State} {c : Ctx} {e : Elem} (h : s.memOk) : (Machine.dirtyPeer s c e).memOk := by
  dsimp only [Machine.dirtyPeer]
  split
  · split
    · split
      · exact h.setDirty
      · exact h
    · exact h
  · exact h

theorem State.memOk.dirtyFar {s : State} {wid : Nat} {tag : W32} {els : List Elem} (h : s.memOk) :
    (Machine.dirtyFar s wid tag els).memOk := by
  dsimp only [Machine.dirtyFar]
  split
  · split
    · exact h
    · exact h.foldl fun h => h.dirtyPeer
  · exact h

theorem State.memOk.sendSlip {s : State} {wid core : Nat} {tag : W32} {a : Access} {asid : Nat} {stream : Option Nat} {hold : Bool}
    (h : s.memOk) : (Machine.sendSlip s wid core tag a asid stream hold).memOk := by
  dsimp only [Machine.sendSlip]
  split
  · refine h.foldl fun h => ?_
    split
    · exact h.noteForbidden
    · exact h
  · exact .sendAll (ite_keeps h.dirtyFar h)

theorem State.memOk.releaseOne {s : State} {w : Wave} {y : Held} (h : s.memOk) (hw : w.memOk) : (Machine.releaseOne s w y).memOk := by
  dsimp only [Machine.releaseOne]
  split
  · exact .sendSlip (.modSlip (.perform (h.putBack hw.keep)))
  · exact .perform (h.putBack hw.keep)

theorem State.memOk.mkPark {s : State} {w : Wave} {pc : W64} {kind level access nlanes cause : Nat} {va entry eaddr : W64}
    {page : Option W64} (h : s.memOk) : (Machine.mkPark s w pc kind level access nlanes cause va entry eaddr page).1.memOk :=
  h

theorem State.memOk.settle_settleHeld {s : State} {w : Wave} (h : s.memOk) (hw : w.memOk) : (Machine.settle.settleHeld s w).memOk := by
  dsimp only [Machine.settle.settleHeld]
  split
  · exact h.releaseOne hw
  · exact h

theorem State.memOk.settle {n : Nat} {s : State} {wid : Nat} (h : s.memOk) : (Machine.settle n s wid).memOk := by
  induction n generalizing s with
  | zero => exact h
  | succ n ih =>
    unfold Machine.settle
    split
    · exact h
    · rename_i e
      have hw := h.findWave.of_eq e
      split
      · split
        · exact ih h.endMem
        · exact h.settle_settleHeld hw
      · exact h.settle_settleHeld hw

theorem State.memOk.settleAll {s : State} {wid : Nat} (h : s.memOk) : (Machine.settleAll s wid).memOk :=
  h.foldl fun h => h.settle

theorem State.memOk.withSlip {s : State} {w : Wave} {rcd : OpRec} {a : Access} {md : StoreMode} {parks : Bool} (h : s.memOk) :
    (Machine.withSlip s w rcd a md parks).memOk := by
  dsimp only [Machine.withSlip]
  split
  · exact h.modSlip
  · exact h.onWave fun hw => hw

theorem State.memOk.addLazy {s : State} {id : Nat} {z : Option LazyRead} {target : LazyTarget} (h : s.memOk) :
    (Machine.addLazy s id z target).memOk := by
  dsimp only [Machine.addLazy]
  split
  · exact h.onWave fun hw => hw
  · exact h

theorem State.memOk.keepHeld {s : State} {id : Nat} {y : Held} (h : s.memOk) : (Machine.keepHeld s id y).memOk :=
  h.onWave fun hw => hw

theorem State.memOk.sendPart {s : State} {w : Wave} {a : Access} {stream : Option Nat} {tag : W32} {deferred : Bool} (h : s.memOk) :
    (Machine.sendPart s w a stream tag deferred).memOk := by
  dsimp only [Machine.sendPart]
  refine .settleAll (.sendSlip (.modSlip ?_))
  split
  · exact h
  · exact h.perform

theorem State.memOk.localPart {s : State} {w : Wave} {a : Access} (h : s.memOk) : (Machine.localPart s w a).memOk := by
  dsimp only [Machine.localPart]
  split
  · rename_i e₁
    exact .consume (h.perform.writeGot.of_eq e₁)
  · split
    · split
      · rename_i e₂
        exact .consume ((State.memOk.writeGot (h.perform.onWave fun hw => hw.noteFault)).of_eq e₂)
      · exact h.perform.onWave fun hw => hw.noteFault
    · exact h.perform

theorem State.memOk.commitAccess {s : State} {w : Wave} {rcd : OpRec} {a : Access} {md : StoreMode} {failable parks : Bool}
    (h : s.memOk) : (Machine.commitAccess s w rcd a md failable parks).memOk := by
  dsimp only [Machine.commitAccess]
  split
  · exact h
  · split
    · exact h
    · split
      · exact .addLazy (.keepHeld (ite_keeps h.withSlip h))
      · split
        · exact h.withSlip.addLazy.sendPart
        · split
          · split
            · exact h.addLazy
            · exact h.localPart
          · split
            · exact h.addLazy
            · exact h.localPart

theorem State.memOk.heardBy {s : State} {w : Wave} {write : Bool} {els : List Elem} (h : s.memOk) :
    (Machine.heardBy s w write els).memOk := by
  dsimp only [Machine.heardBy]
  split
  · exact h
  · exact h.foldl fun h => h.heardAll

theorem State.memOk.issueAccess_go {rcd : OpRec} {a : Access} {md : StoreMode} {s : State} {w : Wave} {met : List Met} (h : s.memOk) :
    (Machine.issueAccess.go rcd a md s w met).memOk := by
  dsimp only [Machine.issueAccess.go]
  split
  · exact h.askAll
  · split
    · exact h.commitAccess
    · split
      · rename_i e
        have hr := (ite_keeps (P := Out.memOk) (a := .done s) h h.commitAccess).of_eq e
        split
        · exact .mkPark (.heardBy hr)
        · exact hr
      · split
        · exact h
        · exact h.commitAccess

theorem State.memOk.issueAccess {s : State} {w : Wave} {rcd : OpRec} {a : Access} {via : Via} {md : StoreMode} (h : s.memOk)
    (hw : w.memOk) : (Machine.issueAccess s w rcd a via md).memOk := by
  dsimp only [Machine.issueAccess]
  split
  · exact h
  · split
    · exact h
    · split
      · split
        · split
          · exact (h.putBack hw.noteFault).heardBy
          · exact (h.putBack hw.noteFault).heardBy.issueAccess_go
        · exact h.heardBy
      · exact h.issueAccess_go

theorem State.memOk.placeAt {s : State} {w : Wave} {k : AccKind} {n : Nat} {a : W64} {order : optParam Order Order.relaxed}
    (h : s.memOk) : onError Out.memOk (Machine.placeAt s w k n a order) := by
  dsimp only [Machine.placeAt]
  split
  · exact h
  · split
    · split
      · exact h
      · exact trivial
    · exact h.heardAll
    · exact h.askHost
    · exact h.heardAll.mkPark

theorem State.memOk.lazyStoreDone {s : State} {w : Wave} {z : LazyRead} {newV : List (Nat × Mask)} {newS : List Nat} (h : s.memOk)
    (hw : w.memOk) : (Machine.lazyStoreDone s w z newV newS).memOk := by
  dsimp only [Machine.lazyStoreDone]
  split
  · exact .perform (h.putBack hw.keep)
  · exact .settleAll (.putBack (h.putBack hw.keep) hw.keep)
  · split
    · split
      · exact .settleAll (.keep (.modSlip (.perform (h.putBack hw.keep))))
      · exact h.putBack hw.keep
    · exact h.putBack hw.keep
  · exact h.putBack hw.keep

/-! ### Issue (Machine/Issue.lean) -/

theorem Wave.memOk.freezeLatches {w : Wave} (hw : w.memOk) : (Machine.freezeLatches w).memOk :=
  hw

theorem Wave.memOk.pushLatch {w : Wave} {l : Latch} (hw : w.memOk) : (Machine.pushLatch w l).memOk :=
  hw

theorem Wave.memOk.loopEnds {n : Nat} {w : Wave} {pc : W64} (hw : w.memOk) : (Machine.loopEnds n w pc).1.memOk := by
  induction n generalizing w pc with
  | zero => exact hw
  | succ n ih =>
    unfold Machine.loopEnds
    split
    · split
      · split
        · exact ih (.keep hw.setS)
        · exact hw.setS
      · exact hw
    · exact hw

theorem Wave.memOk.recipeStep {w : Wave} (hw : w.memOk) : (Machine.recipeStep w).memOk := by
  dsimp only [Machine.recipeStep]
  split
  · exact hw
  · split
    · split <;> exact hw
    · exact hw

theorem Wave.memOk.stepPast {w : Wave} {i : Instr} {l : Latch} (hw : w.memOk) : (Machine.stepPast w i l).memOk := by
  unfold Machine.stepPast
  split
  rename_i w₁ pc back e
  extract_lets _ w₂ w₃
  have hw₁ : w₁.memOk := by
    have hl := (hw.pushLatch (l := l)).loopEnds (n := 5) (pc := nextPc w.ctl.pc (hasLit i))
    rw [e] at hl
    exact hl
  have hw₃ : w₃.memOk := Wave.memOk.recipeStep hw₁.keep
  exact ite_keeps hw₃.setSt hw₃

theorem State.memOk.complete {s : State} {id : Nat} {i : Instr} {nwb : Option Latch} (h : s.memOk) :
    (Machine.complete s id i nwb).memOk := by
  dsimp only [Machine.complete]
  split
  · exact h
  · rename_i e
    split
    · exact h
    · split
      · exact .killWave (h.putBack (.stepPast (h.findWave.of_eq e)))
      · exact h.putBack (.stepPast (h.findWave.of_eq e))

theorem Wave.memOk.jumped {w : Wave} {pc : W64} {pops : Bool} (hw : w.memOk) : (Machine.jumped w pc pops).memOk := by
  dsimp only [Machine.jumped]
  split
  · exact .setSt hw.keep
  · exact hw

theorem State.memOk.jumpTo {s : State} {id : Nat} {pc : W64} {pops : Bool} (h : s.memOk) : (Machine.jumpTo s id pc pops).memOk :=
  h.onWave fun hw => hw.jumped

theorem State.memOk.owesTgt {s : State} {w : Wave} {pc : W64} (h : s.memOk) : (Machine.owesTgt s w pc).memOk := by
  dsimp only [Machine.owesTgt]
  split
  · exact h.onWave fun hw => hw
  · exact h

theorem State.memOk.branchTo {s : State} {w : Wave} {pc : W64} {pops : Bool} (h : s.memOk) : (Machine.branchTo s w pc pops).memOk := by
  dsimp only [Machine.branchTo]
  split
  · exact h.owesTgt
  · exact h

theorem Wave.memOk.takeHead {w : Wave} {q : Nat} {e : QEntry} (hw : w.memOk) : (Machine.takeHead w q e).memOk :=
  hw

theorem popEmpty_memOk {s : State} {w : Wave} : (popEmpty s w).memOk := by
  dsimp only [Machine.popEmpty]
  split
  · exact trivial
  · split <;> exact trivial

theorem Wave.memOk.popOne {s : State} {w : Wave} {q : Nat} {act : Mask} (hw : w.memOk) : (Machine.popOne s w q act).memOk := by
  dsimp only [Machine.popOne]
  split
  · exact popEmpty_memOk
  · split
    · split
      · exact .keep hw.noteFault
      · exact trivial
    · split
      · exact trivial
      · exact hw.takeHead

theorem Wave.memOk.popSoft {w : Wave} {q : Nat} {act : Mask} (hw : w.memOk) : (Machine.popSoft w q act).memOk := by
  dsimp only [Machine.popSoft]
  split
  · split
    · exact hw
    · exact trivial
  · split
    · exact hw
    · exact hw.takeHead

theorem Wave.memOk.popAll {s : State} {w : Wave} {i : Instr} (hw : w.memOk) : (Machine.popAll s w i).memOk := by
  unfold Machine.popAll
  refine foldl_keeps (P := Pop.memOk) hw fun {b q} hb => ?_
  split
  · rename_i x d
    have hx : x.memOk := hb
    split
    · rename_i y m e
      have hy : (Pop.ok y m).memOk := (ite_keeps (P := Pop.memOk) hx.popSoft hx.popOne).of_eq e
      exact hy
    · exact ite_keeps (P := Pop.memOk) hx.popSoft hx.popOne
  · exact hb

theorem Wave.memOk.discardPops {w : Wave} {qs : List Nat} (hw : w.memOk) : onSome Wave.memOk (Machine.discardPops w qs) := by
  dsimp only [Machine.discardPops]
  refine foldl_keeps hw fun h => ?_
  split
  · exact trivial
  · split
    · split
      · exact h
      · exact trivial
    · exact .keep (.takeHead h)

theorem State.memOk.fetchPark {s : State} {w : Wave} {en ea : W64} {level cause : Nat} (h : s.memOk) :
    (Machine.fetchPark s w en ea level cause).1.memOk :=
  h.mkPark

theorem State.memOk.stayAt {s : State} {id : Nat} {wt : Wait} (h : s.memOk) : (Machine.stayAt s id wt).memOk :=
  h.onWave fun hw => .keep hw.setSt

theorem State.memOk.unpop {i : Instr} {w₀ : Wave} {s : State} (h : s.memOk) : (Machine.unpop i w₀ s).memOk := by
  dsimp only [Machine.unpop]
  split
  · exact h
  · exact h.onWave fun hw => hw

theorem State.memOk.precisely {s : State} {w₀ : Wave} {i : Instr} {t : PTrap} (h : s.memOk) : (Machine.precisely s w₀ i t).memOk := by
  dsimp only [Machine.precisely]
  split
  · exact .complete (.onWave (h.onWave fun hw => hw) fun hw => hw.noteFault)
  · exact .takeTrap (h.onWave fun hw => hw)

theorem State.memOk.parkWave {s : State} {id : Nat} {p : Park} {m : Mask} (h : s.memOk) : (Machine.parkWave s id p m).memOk := by
  dsimp only [Machine.parkWave]
  split
  · exact h
  · rename_i e
    split
    · exact h.putBack (.keep (h.findWave.of_eq e))
    · exact .onCtx (h.putBack (.keep (h.findWave.of_eq e))) fun hc => hc

theorem State.memOk.keepFault {s : State} {w₀ : Wave} (h : s.memOk) : (Machine.keepFault s w₀).memOk := by
  dsimp only [Machine.keepFault]
  split
  · rename_i e
    split
    · exact h
    · exact h.putBack (.keep (h.findWave.of_eq e))
  · exact h

/-- However an instruction ends, the state that it carries goes on in canonical form. -/
theorem Out.memOk.finish {w₀ : Wave} {i : Instr} {nwb : Option Latch} {o : Out} (ho : o.memOk) : (Machine.finish w₀ i nwb o).memOk := by
  dsimp only [Machine.finish]
  split
  · exact .complete ho
  · exact .jumpTo ho
  · exact .stayAt (.unpop (.keepFault ho))
  · refine .onWave (.complete ho) fun hw => ?_
    split
    · exact hw.setSt
    · exact hw
  · exact .precisely ho
  · exact .parkWave (.unpop ho)
  · exact ho

theorem State.memOk.popPark {s : State} {w : Wave} {a : Access} {f : Stopped} {m : Mask} (h : s.memOk) :
    (Machine.popPark s w a f m).memOk := by
  dsimp only [Machine.popPark]
  exact h.mkPark

theorem State.memOk.spendLatch {i : Instr} {s : State} (h : s.memOk) : (Machine.spendLatch i s).memOk := by
  dsimp only [Machine.spendLatch]
  split <;> exact h

theorem State.memOk.runBody {s : State} {w : Wave} {i : Instr} {f : Body} (h : s.memOk) (hw : w.memOk)
    (hf : ∀ {s : State} {w : Wave}, s.memOk → w.memOk → (f s w).1.memOk) : (Machine.runBody s w i f).memOk := by
  unfold Machine.runBody
  split
  · exact h.stayAt
  · exact h.precisely
  · dsimp only
    exact h.fetchPark.parkWave
  · exact h.popPark.finish
  · rename_i w₁ dead e
    extract_lets s₁
    have h₁ : s₁.memOk := (h.putBack (hw.popAll.of_eq e)).markDead
    split
    · exact h₁
    · rename_i w₂ e₂
      split
      · exact h₁
      · exact (hf h₁ (h₁.findWave.of_eq e₂)).finish.spendLatch

theorem State.memOk.issueWave {s : State} {w : Wave} {i : Instr} {f : Body} (h : s.memOk) (hw : w.memOk)
    (hf : ∀ {s : State} {w : Wave}, s.memOk → w.memOk → (f s w).1.memOk) : (Machine.issueWave s w i f).memOk := by
  unfold Machine.issueWave
  split
  · exact h.precisely
  · split
    · exact h.stayAt
    · extract_lets w₁ s₁
      have hw₁ : w₁.memOk := hw.freezeLatches
      have h₁ : s₁.memOk := h.putBack hw₁
      split
      · split
        · exact h₁.stayAt
        · split
          · rename_i e
            exact (h₁.putBack (hw₁.discardPops.of_eq e)).complete
          · exact h₁.stayAt
      · split
        · exact h₁.killWave
        · split
          · exact h₁.onWave fun hw => hw.setSt
          · split
            · exact h₁.stayAt
            · exact h₁.runBody hw₁ hf

theorem State.memOk.sliceEnd {s : State} {id cause : Nat} (h : s.memOk) : (Machine.sliceEnd s id cause).memOk :=
  h.onWave fun hw => ite_keeps hw hw

theorem State.memOk.sliceIllegal {s : State} {id : Nat} (h : s.memOk) : (Machine.sliceIllegal s id).memOk :=
  h.sliceEnd

/-- An instruction of a wave keeps the memories if its effect on a state and a wave in canonical form does. -/
theorem State.memOk.issueR {i : Instr} {s : State} {f : Body} (h : s.memOk)
    (hf : ∀ {s : State} {w : Wave}, s.memOk → w.memOk → (f s w).1.memOk) : nextOk (Machine.issueR i s f) := by
  dsimp only [Machine.issueR]
  split
  · exact trivial
  · exact h.sliceIllegal
  · split
    · rename_i e
      exact h.issueWave (h.findWave.of_eq e) hf
    · exact trivial

theorem State.memOk.issue {i : Instr} {s : State} {f : State → Wave → Out} (h : s.memOk)
    (hf : ∀ {s : State} {w : Wave}, s.memOk → w.memOk → (f s w).memOk) : nextOk (Machine.issue i s f) :=
  h.issueR hf

theorem State.memOk.writeOut {s : State} {w : Wave} {e₀ : Eff} {nwb : Bool} (h : s.memOk) (hw : w.memOk) :
    (Machine.writeOut s w e₀ nwb).1.memOk := by
  dsimp only [Machine.writeOut]
  split
  · rename_i e₁
    exact .markDead (h.putBack (hw.writeEff.of_eq e₁))
  · split
    · split
      · rename_i e₂
        exact .markDead (h.putBack (hw.noteFault.writeEff.of_eq e₂))
      · exact h
    · exact h

theorem State.memOk.issueEff {i : Instr} {s : State} {f : State → Wave → Eff} (h : s.memOk) : nextOk (Machine.issueEff i s f) :=
  h.issueR fun h hw => h.writeOut hw

/-! ### Control and system instructions (Machine/Control.lean) -/

theorem State.memOk.sliceNext {s : State} {id : Nat} {i : Instr} (h : s.memOk) : (Machine.sliceNext s id i).memOk :=
  h.onWave fun hw => hw

theorem State.memOk.execBkz {w : BrW} {s : State} (h : s.memOk) : nextOk (Machine.execBkz w s) :=
  h.issue fun h _ => ite_keeps h.branchTo h

theorem State.memOk.execBknz {w : BrW} {s : State} (h : s.memOk) : nextOk (Machine.execBknz w s) :=
  h.issue fun h _ => ite_keeps h h.branchTo

theorem State.memOk.execBhz {w : BrW} {s : State} (h : s.memOk) : nextOk (Machine.execBhz w s) :=
  h.issue fun h _ => ite_keeps h.branchTo h

theorem Wave.memOk.putScalar {w : Wave} {h : Hdr} {d : Operand} {v : W64} (hw : w.memOk) : (Machine.putScalar w h d v).memOk := by
  dsimp only [Machine.putScalar]
  split
  · exact hw
  · exact hw.setS

theorem State.memOk.issueScalar {i : Instr} {y : Hdr} {d : Operand} {s : State} {f : State → Wave → Out × W64} (h : s.memOk)
    (hf : ∀ {s : State} {w : Wave}, s.memOk → w.memOk → (f s w).1.memOk) : nextOk (Machine.issueScalar i y d s f) := by
  refine h.issueR fun {s v} h hw => ?_
  have hv := hf h hw
  split
  · rename_i t x e
    have ht : t.memOk := by rw [e] at hv; exact hv
    exact ht.onWave fun hw => hw.putScalar
  · rename_i o x e
    rw [e] at hv; exact hv

theorem State.memOk.execCall {w : BrW} {s : State} (h : s.memOk) : nextOk (Machine.execCall w s) := by
  dsimp only [Machine.execCall]
  refine h.issue fun h hw => ?_
  split
  · exact (h.putBack hw.loopEnds.putScalar).owesTgt
  · exact h.branchTo

theorem State.memOk.loopBody {w : BrW} {s : State} {v : Wave} (h : s.memOk) (hw : v.memOk) : (Machine.loopBody w s v).memOk := by
  dsimp only [Machine.loopBody]
  split
  · exact h
  · split
    · exact h
    · split
      · exact h
      · split
        · exact (h.putBack hw.putScalar).owesTgt
        · exact h.putBack (.keep hw.putScalar)

theorem State.memOk.execLoop {w : BrW} {s : State} (h : s.memOk) : nextOk (Machine.execLoop w s) :=
  h.issueR fun h hw => h.loopBody hw

theorem State.memOk.leaveHandler {s : State} {v : Wave} (h : s.memOk) (hw : v.memOk) :
    (Machine.leaveHandler s v).1.memOk ∧ (Machine.leaveHandler s v).2.memOk := by
  dsimp only [Machine.leaveHandler]
  obtain ⟨h₁, hw₁⟩ := h.logPending hw.keep
  obtain ⟨h₂, hw₂⟩ := h₁.logEvents hw₁
  exact ⟨h₂, hw₂.keep⟩

theorem State.memOk.noteExit {s : State} {v : Wave} (h : s.memOk) : (Machine.noteExit s v).memOk :=
  h.onTeam fun ht => ht

theorem State.memOk.endpBody {s : State} {v : Wave} (h : s.memOk) (hw : v.memOk) : (Machine.endpBody s v).memOk := by
  dsimp only [Machine.endpBody]
  refine .putBack ?_ (.keep ?_)
  · split
    · exact (h.noteExit.leaveHandler hw).1
    · exact h.noteExit
  · split
    · exact (h.noteExit.leaveHandler hw).2
    · exact hw

theorem State.memOk.execTrap {w : GenW} {s : State} (h : s.memOk) : nextOk (Machine.execTrap w s) := by
  dsimp only [Machine.execTrap]
  exact h.issue fun h hw => h.putBack hw.loopEnds

theorem State.memOk.rftBody {s : State} {v : Wave} (h : s.memOk) (hw : v.memOk) : (Machine.rftBody s v).memOk := by
  dsimp only [Machine.rftBody]
  split
  · exact h
  · split
    · exact h
    · exact .settleAll (h.putBack (ite_keeps (.setSt (.keep hw.returnFromTrap)) (.keep hw.returnFromTrap)))

theorem State.memOk.execYield {w : GenW} {s : State} (h : s.memOk) : nextOk (Machine.execYield w s) :=
  h.issue fun h _ => h.complete.onWave fun hw₁ => ite_keeps hw₁.setSt hw₁

theorem State.memOk.execYieldExpiry {wave : Nat} {s : State} (h : s.memOk) : nextOk (Machine.execYieldExpiry wave s) := by
  dsimp only [Machine.execYieldExpiry]
  refine h.onWave fun hw => ?_
  split
  · split
    · exact hw.setSt
    · exact hw
  · exact hw

theorem State.memOk.execSrd {w : GenW} {s : State} (h : s.memOk) : nextOk (Machine.execSrd w s) := by
  dsimp only [Machine.execSrd]
  refine h.issueR fun h hw => ?_
  split
  · exact h.writeOut hw
  · exact h

theorem Wave.memOk.swrTo {v : Wave} {d : Operand} {x : W64} (hw : v.memOk) : (Machine.swrTo v d x).memOk := by
  dsimp only [Machine.swrTo]
  split
  · exact hw.setCC
  · exact hw
  · exact hw
  · exact hw
  · exact hw

theorem State.memOk.execSwr {w : GenW} {s : State} (h : s.memOk) : nextOk (Machine.execSwr w s) := by
  dsimp only [Machine.execSwr]
  refine h.issueR fun h hw => ?_
  split
  · exact h
  · exact h.putBack hw.swrTo

theorem State.memOk.haltReturn {s : State} {v : Wave} (h : s.memOk) : (Machine.haltReturn s v).1.memOk := by
  dsimp only [Machine.haltReturn]
  split <;> exact h

theorem State.memOk.haltBody {s : State} {v : Wave} (h : s.memOk) : (Machine.haltBody s v).1.memOk := by
  dsimp only [Machine.haltBody]
  split
  · exact h.haltReturn
  · split
    · exact h
    · exact h.haltCtx.haltReturn

theorem State.memOk.execHaltctx {w : GenW} {s : State} (h : s.memOk) : nextOk (Machine.execHaltctx w s) :=
  h.issueScalar fun h _ => h.haltBody

theorem State.memOk.drainBody {w : GenW} {s : State} {v : Wave} (h : s.memOk) : (Machine.drainBody w s v).1.memOk := by
  dsimp only [Machine.drainBody]
  split
  · exact h
  · exact h
  · split
    · exact h
    · split <;> exact h

theorem State.memOk.execDrain {w : GenW} {s : State} (h : s.memOk) : nextOk (Machine.execDrain w s) :=
  h.issueScalar fun h _ => h.drainBody

theorem State.memOk.invalidate {s : State} {r : InvRange} (h : s.memOk) : (Machine.invalidate s r).memOk :=
  .keep h.dropAts

theorem State.memOk.tlbinvBody {w : GenW} {s : State} {v : Wave} (h : s.memOk) : (Machine.tlbinvBody w s v).memOk := by
  dsimp only [Machine.tlbinvBody]
  split
  · split <;> exact h
  · split <;> exact h.invalidate

theorem State.memOk.replayWave {s : State} {v : Wave} (h : s.memOk) (hw : v.memOk) : (Machine.replayWave s v).memOk := by
  dsimp only [Machine.replayWave]
  split
  · exact h
  · exact .onCtx (h.putBack hw.keep) fun hc => hc

theorem State.memOk.replayBody {w : GenW} {s : State} {v : Wave} (h : s.memOk) : (Machine.replayBody w s v).1.memOk := by
  dsimp only [Machine.replayBody]
  split
  · rename_i e
    exact h.replayWave (h.waves_find?.of_eq e)
  · exact h

theorem State.memOk.execReplay {w : GenW} {s : State} (h : s.memOk) : nextOk (Machine.execReplay w s) :=
  h.issueScalar fun h _ => h.replayBody

theorem State.memOk.execNopre {w : GenW} {s : State} (h : s.memOk) : nextOk (Machine.execNopre w s) :=
  h.issue fun h hw => h.putBack hw.keep

theorem State.memOk.execPre {w : GenW} {s : State} (h : s.memOk) : nextOk (Machine.execPre w s) :=
  h.issue fun h hw => h.putBack hw.keep

theorem State.memOk.readRec {s : State} {v : Wave} {sp : Space} {o : Nat} (h : s.memOk) :
    onError Out.memOk (Machine.readRec s v sp o) := by
  dsimp only [Machine.readRec]
  split
  · exact .onWave (ite_keeps h.noteForbidden h) fun hw => hw
  · exact trivial

theorem State.memOk.recPart {s : State} {v : Wave} {a : W64} (h : s.memOk) : onError Out.memOk (Machine.recPart s v a) := by
  dsimp only [Machine.recPart]
  split
  · exact h
  · split
    · rename_i e
      exact h.placeAt.of_eq e
    · exact h.readRec
    · exact h

theorem State.memOk.recParts {s : State} {v : Wave} {a : W64} {n : Nat} (h : s.memOk) : onError Out.memOk (Machine.recParts s v a n) := by
  induction n generalizing a with
  | zero => trivial
  | succ n ih =>
    unfold Machine.recParts
    split
    · rename_i e
      exact h.recPart.of_eq e
    · split
      · rename_i e
        exact ih.of_eq e
      · trivial

theorem State.memOk.recAt {s : State} {v : Wave} {a : W64} {align n : Nat} (h : s.memOk) :
    onError Out.memOk (Machine.recAt s v a align n) := by
  dsimp only [Machine.recAt]
  split
  · exact h
  · exact h.recParts

theorem State.memOk.peerRecAt {s : State} {v : Wave} {p : BitVec 9} {a : W64} {n : Nat} (h : s.memOk) :
    onError Out.memOk (Machine.peerRecAt s v p a n) := by
  dsimp only [Machine.peerRecAt]
  split
  · exact h
  · exact trivial
  · exact h
  · split
    · exact h.noteForbidden.onWave fun hw => hw
    · split
      · exact h
      · split
        · exact .sendAll (h.onWave fun hw => hw)
        · exact h

theorem State.memOk.anyRecAt {s : State} {v : Wave} {a : W64} {align n : Nat} (h : s.memOk) :
    onError Out.memOk (Machine.anyRecAt s v a align n) := by
  dsimp only [Machine.anyRecAt]
  split
  · exact h
  · refine foldl_keeps (P := onError Out.memOk) trivial fun {b i} hb => ?_
    split
    · exact hb
    · split
      · rename_i e
        exact h.placeAt.of_eq e
      · split
        · exact h
        · exact h.readRec.map
      · split
        · exact h
        · exact h.readRec.map
      · split
        · exact h.peerRecAt
        · trivial
      · exact h

theorem State.memOk.markBody {w : GenW} {s : State} {v : Wave} (h : s.memOk) (hw : v.memOk) : (Machine.markBody w s v).memOk := by
  dsimp only [Machine.markBody]
  split
  · exact h
  · split
    · exact h
    · split
      · rename_i e
        exact h.recAt.of_eq e
      · split
        · exact h
        · exact h.putBack hw.keep

/-! ### The access slice (Machine/Access.lean) -/

theorem State.memOk.sliceOp {i : Instr} {s : State} {f : State → Wave → State} (h : s.memOk)
    (hf : ∀ {s : State} {w : Wave}, s.memOk → w.memOk → (f s w).memOk) : nextOk (Machine.sliceOp i s f) := by
  dsimp only [Machine.sliceOp]
  split
  · split
    · rename_i e
      exact hf h (h.findWave.of_eq e)
    · exact trivial
  · exact h.issue fun h _ => h

theorem State.memOk.sliceStep {s : State} {v : Wave} {i : Instr} {f : Slice → Slice} (h : s.memOk) (hw : v.memOk) :
    (Machine.sliceStep s v i f).memOk :=
  h.putBack hw.keep

theorem State.memOk.skipLoop {s : State} {v : Wave} {depth : Nat} {pc : W64} (h : s.memOk) (hw : v.memOk) :
    (Machine.skipLoop s v depth pc).memOk := by
  dsimp only [Machine.skipLoop]
  split <;> exact h.putBack hw.keep

theorem State.memOk.execAloop {w : GenW} {s : State} (h : s.memOk) : nextOk (Machine.execAloop w s) :=
  h.sliceOp fun h hw => ite_keeps h.sliceIllegal (ite_keeps (h.skipLoop hw) (ite_keeps h.sliceIllegal (h.sliceStep hw)))

theorem State.memOk.execAend {w : GenW} {s : State} (h : s.memOk) : nextOk (Machine.execAend w s) := by
  dsimp only [Machine.execAend]
  refine h.sliceOp fun h hw => ?_
  split
  · exact h.sliceIllegal
  · split
    · exact h.putBack hw.keep
    · exact h.sliceStep hw

theorem State.memOk.aldEntry {s : State} {v : Wave} {w : GenW} (h : s.memOk) : (Machine.aldEntry s v w).1.memOk := by
  dsimp only [Machine.aldEntry]
  split
  · exact h
  · dsimp only
    exact h.perform

theorem State.memOk.execAld {w : GenW} {s : State} (h : s.memOk) : nextOk (Machine.execAld w s) :=
  h.sliceOp fun h hw => ite_keeps (h.sliceStep hw) (ite_keeps h (h.aldEntry.sliceStep hw.keep))

theorem State.memOk.execApf {w : GenW} {s : State} (h : s.memOk) : nextOk (Machine.execApf w s) :=
  h.sliceOp fun h hw => h.sliceStep hw

theorem State.memOk.execAadv {w : GenW} {s : State} (h : s.memOk) : nextOk (Machine.execAadv w s) :=
  h.sliceOp fun h hw => h.sliceStep hw

theorem State.memOk.execAhalt {w : GenW} {s : State} (h : s.memOk) : nextOk (Machine.execAhalt w s) :=
  h.sliceOp fun h hw => h.putBack hw.keep

/-! ### Scalar instructions (Machine/Scalar.lean) -/

theorem State.memOk.scalarZN {i : Instr} {w : GenW} {s : State} {f : Nat → Nat → Nat × Bool} (h : s.memOk) :
    nextOk (Machine.scalarZN i w s f) :=
  h.issueEff

theorem State.memOk.execSmov {w : GenW} {s : State} (h : s.memOk) : nextOk (Machine.execSmov w s) := by
  dsimp only [Machine.execSmov]
  refine h.issueR fun h hw => ?_
  split
  · split
    · exact h
    · exact h.putBack hw.setCC
  · exact h.writeOut hw

theorem State.memOk.execSmul {w : GenW} {s : State} (h : s.memOk) : nextOk (Machine.execSmul w s) :=
  h.scalarZN

theorem State.memOk.execSmulh {w : GenW} {s : State} (h : s.memOk) : nextOk (Machine.execSmulh w s) :=
  h.scalarZN

theorem State.memOk.execSdiv {w : GenW} {s : State} (h : s.memOk) : nextOk (Machine.execSdiv w s) :=
  h.scalarZN

theorem State.memOk.execSrem {w : GenW} {s : State} (h : s.memOk) : nextOk (Machine.execSrem w s) :=
  h.scalarZN

theorem State.memOk.execSand {w : GenW} {s : State} (h : s.memOk) : nextOk (Machine.execSand w s) :=
  h.scalarZN

theorem State.memOk.execSor {w : GenW} {s : State} (h : s.memOk) : nextOk (Machine.execSor w s) :=
  h.scalarZN

theorem State.memOk.execSxor {w : GenW} {s : State} (h : s.memOk) : nextOk (Machine.execSxor w s) :=
  h.scalarZN

theorem State.memOk.execSshl {w : GenW} {s : State} (h : s.memOk) : nextOk (Machine.execSshl w s) :=
  h.scalarZN

theorem State.memOk.execSshr {w : GenW} {s : State} (h : s.memOk) : nextOk (Machine.execSshr w s) :=
  h.scalarZN

theorem State.memOk.execSmin {w : GenW} {s : State} (h : s.memOk) : nextOk (Machine.execSmin w s) :=
  h.scalarZN

theorem State.memOk.execSmax {w : GenW} {s : State} (h : s.memOk) : nextOk (Machine.execSmax w s) :=
  h.scalarZN

theorem State.memOk.execSbfe {w : GenW} {s : State} (h : s.memOk) : nextOk (Machine.execSbfe w s) :=
  h.scalarZN

/-! ### Vector integer instructions (Machine/VecInt.lean) -/

theorem State.memOk.vecLanes {i : Instr} {w : GenW} {s : State} {f : State → Wave → Nat → Nat} (h : s.memOk) :
    nextOk (Machine.vecLanes i w s f) :=
  h.issueEff

theorem State.memOk.vec1 {i : Instr} {w : GenW} {s : State} {f : Nat → Nat} (h : s.memOk) : nextOk (Machine.vec1 i w s f) :=
  h.vecLanes

theorem State.memOk.vec2 {i : Instr} {w : GenW} {s : State} {f : Nat → Nat → Nat} (h : s.memOk) : nextOk (Machine.vec2 i w s f) :=
  h.vecLanes

theorem State.memOk.vec3 {i : Instr} {w : GenW} {s : State} {f : Nat → Nat → Nat → Nat} (h : s.memOk) : nextOk (Machine.vec3 i w s f) :=
  h.vecLanes

theorem State.memOk.execVmov {w : GenW} {s : State} (h : s.memOk) : nextOk (Machine.execVmov w s) :=
  h.vec1

theorem State.memOk.execVadd {w : GenW} {s : State} (h : s.memOk) : nextOk (Machine.execVadd w s) :=
  h.vec2

theorem State.memOk.execVsub {w : GenW} {s : State} (h : s.memOk) : nextOk (Machine.execVsub w s) :=
  h.vec2

theorem State.memOk.execVmul {w : GenW} {s : State} (h : s.memOk) : nextOk (Machine.execVmul w s) :=
  h.vec2

theorem State.memOk.execVmulh {w : GenW} {s : State} (h : s.memOk) : nextOk (Machine.execVmulh w s) :=
  h.vec2

theorem State.memOk.execVmad {w : GenW} {s : State} (h : s.memOk) : nextOk (Machine.execVmad w s) :=
  h.vec3

theorem State.memOk.execVand {w : GenW} {s : State} (h : s.memOk) : nextOk (Machine.execVand w s) :=
  h.vec2

theorem State.memOk.execVor {w : GenW} {s : State} (h : s.memOk) : nextOk (Machine.execVor w s) :=
  h.vec2

theorem State.memOk.execVxor {w : GenW} {s : State} (h : s.memOk) : nextOk (Machine.execVxor w s) :=
  h.vec2

theorem State.memOk.execVshl {w : GenW} {s : State} (h : s.memOk) : nextOk (Machine.execVshl w s) :=
  h.vecLanes

theorem State.memOk.execVshr {w : GenW} {s : State} (h : s.memOk) : nextOk (Machine.execVshr w s) :=
  h.vecLanes

theorem State.memOk.execVmin {w : GenW} {s : State} (h : s.memOk) : nextOk (Machine.execVmin w s) :=
  h.vec2

theorem State.memOk.execVmax {w : GenW} {s : State} (h : s.memOk) : nextOk (Machine.execVmax w s) :=
  h.vec2

theorem State.memOk.execVabs {w : GenW} {s : State} (h : s.memOk) : nextOk (Machine.execVabs w s) :=
  h.vec1

theorem State.memOk.execVclz {w : GenW} {s : State} (h : s.memOk) : nextOk (Machine.execVclz w s) :=
  h.vec1

theorem State.memOk.execVpopc {w : GenW} {s : State} (h : s.memOk) : nextOk (Machine.execVpopc w s) :=
  h.vec1

theorem State.memOk.execVbfe {w : GenW} {s : State} (h : s.memOk) : nextOk (Machine.execVbfe w s) :=
  h.vec2

theorem State.memOk.execVbfi {w : GenW} {s : State} (h : s.memOk) : nextOk (Machine.execVbfi w s) :=
  h.vec3

theorem State.memOk.execVsel {w : GenW} {s : State} (h : s.memOk) : nextOk (Machine.execVsel w s) :=
  h.vecLanes

/-! ### Vector float instructions (Machine/VecFloat.lean) -/

theorem State.memOk.vecF1 {i : Instr} {w : GenW} {s : State} {f : FVal → Nat} (h : s.memOk) : nextOk (Machine.vecF1 i w s f) :=
  h.vec1

theorem State.memOk.vecF2 {i : Instr} {w : GenW} {s : State} {f : FVal → FVal → Nat} (h : s.memOk) : nextOk (Machine.vecF2 i w s f) :=
  h.vec2

theorem State.memOk.execVfadd {w : GenW} {s : State} (h : s.memOk) : nextOk (Machine.execVfadd w s) :=
  h.vecF2

theorem State.memOk.execVfsub {w : GenW} {s : State} (h : s.memOk) : nextOk (Machine.execVfsub w s) :=
  h.vecF2

theorem State.memOk.execVfmul {w : GenW} {s : State} (h : s.memOk) : nextOk (Machine.execVfmul w s) :=
  h.vecF2

theorem State.memOk.execVfma {w : GenW} {s : State} (h : s.memOk) : nextOk (Machine.execVfma w s) :=
  h.vec3

theorem State.memOk.execVfmin {w : GenW} {s : State} (h : s.memOk) : nextOk (Machine.execVfmin w s) :=
  h.vecF2

theorem State.memOk.execVfmax {w : GenW} {s : State} (h : s.memOk) : nextOk (Machine.execVfmax w s) :=
  h.vecF2

theorem State.memOk.execVfclass {w : GenW} {s : State} (h : s.memOk) : nextOk (Machine.execVfclass w s) :=
  h.vec1

theorem State.memOk.execVrcp {w : GenW} {s : State} (h : s.memOk) : nextOk (Machine.execVrcp w s) :=
  h.vecF1

theorem State.memOk.execVrsq {w : GenW} {s : State} (h : s.memOk) : nextOk (Machine.execVrsq w s) :=
  h.vecF1

theorem State.memOk.execVsqrt {w : GenW} {s : State} (h : s.memOk) : nextOk (Machine.execVsqrt w s) :=
  h.vecF1

theorem State.memOk.execVdiv {w : GenW} {s : State} (h : s.memOk) : nextOk (Machine.execVdiv w s) :=
  h.vecF2

theorem State.memOk.execVexp2 {w : GenW} {s : State} (h : s.memOk) : nextOk (Machine.execVexp2 w s) :=
  h.vecF1

theorem State.memOk.execVlog2 {w : GenW} {s : State} (h : s.memOk) : nextOk (Machine.execVlog2 w s) :=
  h.vecF1

theorem State.memOk.execVfrnd {w : GenW} {s : State} (h : s.memOk) : nextOk (Machine.execVfrnd w s) :=
  h.vecF1

/-! ### Cross-lane instructions and bound registers (Machine/Cross.lean) -/

theorem State.memOk.shuffle {i : Instr} {w : GenW} {s : State} {from_ : State → Wave → Nat → Option Nat} (h : s.memOk) :
    nextOk (Machine.shuffle i w s from_) :=
  h.issueEff

theorem State.memOk.execVshuf {w : GenW} {s : State} (h : s.memOk) : nextOk (Machine.execVshuf w s) :=
  h.shuffle

theorem State.memOk.execVxsh {w : GenW} {s : State} (h : s.memOk) : nextOk (Machine.execVxsh w s) :=
  h.shuffle

theorem State.memOk.execVbcast {w : GenW} {s : State} (h : s.memOk) : nextOk (Machine.execVbcast w s) :=
  h.shuffle

theorem State.memOk.execVexpd {w : GenW} {s : State} (h : s.memOk) : nextOk (Machine.execVexpd w s) :=
  h.vecLanes

theorem State.memOk.apndGo {w : GenW} {s : State} {v : Wave} {sel : List Nat} (h : s.memOk) : (Machine.apndGo w s v sel).1.memOk := by
  unfold Machine.apndGo
  extract_lets a acc shelf
  clear_value shelf
  split
  · exact h
  · split
    · exact h
    · split
      · rename_i e
        exact h.placeAt.of_eq e
      · split
        · exact h
        · split
          · rename_i s₁ _ _ _ e
            have h₁ : s₁.memOk := h.commitAccess.of_eq e
            dsimp only
            split
            · exact h₁
            · rename_i e₂
              split
              · exact h₁
              · exact h₁.writeOut (h₁.findWave.of_eq e₂)
          · dsimp only
            exact h.commitAccess

theorem State.memOk.execVapnd {w : GenW} {s : State} (h : s.memOk) : nextOk (Machine.execVapnd w s) := by
  dsimp only [Machine.execVapnd]
  refine h.issueR fun h hw => ?_
  split
  · exact h.writeOut hw
  · exact h.apndGo

theorem State.memOk.execVrand {w : GenW} {s : State} (h : s.memOk) : nextOk (Machine.execVrand w s) :=
  h.issueR fun h hw => h.writeOut hw.keep

theorem State.memOk.execVrseed {w : GenW} {s : State} (h : s.memOk) : nextOk (Machine.execVrseed w s) :=
  h.issue fun h hw => h.putBack hw.keep

theorem State.memOk.execBset {w : GenW} {s : State} (h : s.memOk) : nextOk (Machine.execBset w s) :=
  h.issue fun h _ => ite_keeps h (h.onTeam fun ht => ht)

theorem State.memOk.execBmap {w : GenW} {s : State} (h : s.memOk) : nextOk (Machine.execBmap w s) :=
  h.issue fun h hw => ite_keeps h (h.putBack hw.keep)

/-! ### Memory instructions (Machine/Memory.lean) -/

theorem Out.memOk.keepHandle {id r : Nat} {upd : Option Handle} {o : Out} (ho : o.memOk) : (Machine.keepHandle id r upd o).memOk := by
  dsimp only [Machine.keepHandle]
  split
  · exact ho
  · split
    · exact .onWave ho fun hw => hw.setH
    · exact .onWave ho fun hw => hw.setH
    · exact ho

theorem State.memOk.withBase {s : State} {v : Wave} {y : Hdr} {a : Operand} {store : Bool} {k : W64 → Via → Out} (h : s.memOk)
    (hf : ∀ {x : W64} {x₁ : Via}, (k x x₁).memOk) : (Machine.withBase s v y a store k).memOk := by
  dsimp only [Machine.withBase]
  split
  · split
    · exact h
    · exact hf
    · exact hf
    · exact hf.keepHandle
  · exact hf

theorem State.memOk.memBody {i : Instr} {m : MemOp} {s : State} {v : Wave} (h : s.memOk) (hw : v.memOk) :
    (Machine.memBody i m s v).memOk :=
  h.withBase (h.issueAccess hw)

theorem Wave.memOk.fenced {v : Wave} (hw : v.memOk) : (Machine.fenced v).memOk :=
  hw

theorem State.memOk.fenceBody {w : MemW} {s : State} {v : Wave} (h : s.memOk) (hw : v.memOk) : (Machine.fenceBody w s v).memOk := by
  dsimp only [Machine.fenceBody]
  split
  · exact h.putBack (.fenced (.keep hw.setS))
  · exact h

theorem State.memOk.execHmov {w : GenW} {s : State} (h : s.memOk) : nextOk (Machine.execHmov w s) := by
  dsimp only [Machine.execHmov]
  refine h.issueR fun h hw => ?_
  split
  · exact h.writeOut hw
  · exact h.writeOut hw
  · split
    · exact h.writeOut hw
    · exact h

theorem State.memOk.setPinned {s : State} {c : Ctx} {d : HeapDesc} {page : Nat} (h : s.memOk) : (Machine.setPinned s c d page).memOk := by
  dsimp only [Machine.setPinned]
  split
  · exact .keep (ite_keeps h (h.writeRange _ _ _))
  · exact h

theorem State.memOk.countPages {s : State} {c : Ctx} {d : HeapDesc} {pages : List Nat} {up : Bool} (h : s.memOk) :
    (Machine.countPages s c d pages up).memOk :=
  h.foldl fun h => h.ctxPut.setPinned

theorem State.memOk.unknownSize {s : State} (h : s.memOk) : (Machine.unknownSize s).2.memOk :=
  h.freeWords

theorem State.memOk.pinGo {w : GenW} {s : State} {v : Wave} {y : Handle} (h : s.memOk) : (Machine.pinGo w s v y).1.memOk := by
  dsimp only [Machine.pinGo]
  split
  · exact h
  · split
    · split
      · exact h
      · split
        · exact h
        · split
          · exact h.putCat.countPages
          · rename_i e₁
            refine h.putCat.countPages.writeOut ?_
            split
            · exact .setH (h.putCat.countPages.findWave.of_eq e₁)
            · exact h.putCat.countPages.findWave.of_eq e₁
    · split
      · exact h
      · split
        · split
          · exact h
          · split
            · exact h.putCat.countPages
            · rename_i e₂
              refine h.putCat.countPages.writeOut ?_
              split
              · exact .setH (h.putCat.countPages.findWave.of_eq e₂)
              · exact h.putCat.countPages.findWave.of_eq e₂
        · split
          · exact h
          · split
            · exact h.unknownSize.putCat.countPages
            · rename_i e₃
              refine h.unknownSize.putCat.countPages.writeOut ?_
              split
              · exact .setH (h.unknownSize.putCat.countPages.findWave.of_eq e₃)
              · exact h.unknownSize.putCat.countPages.findWave.of_eq e₃
  · exact h

theorem State.memOk.execPin {w : GenW} {s : State} (h : s.memOk) : nextOk (Machine.execPin w s) := by
  dsimp only [Machine.execPin]
  refine h.issueR fun h hw => ?_
  split
  · exact h
  · exact h.pinGo

theorem State.memOk.unpinGo {s : State} {v : Wave} {y : Handle} (h : s.memOk) : (Machine.unpinGo s v y).memOk := by
  dsimp only [Machine.unpinGo]
  split
  · split
    · split
      · exact h
      · exact h.putCat.countPages
    · exact h
  · exact h

theorem State.memOk.execUnpin {w : GenW} {s : State} (h : s.memOk) : nextOk (Machine.execUnpin w s) := by
  dsimp only [Machine.execUnpin]
  refine h.issue fun h hw => ?_
  split
  · exact h
  · exact h.unpinGo

/-! ### Operations that fail later (Machine/Async.lean) -/

theorem State.memOk.newSlip {s : State} {v : Wave} {i : Instr} {op : SlipOp} (h : s.memOk) : (Machine.newSlip s v i op).memOk :=
  h.onWave fun hw => hw

theorem State.memOk.slipOk {s : State} {wid : Nat} {t : W32} (h : s.memOk) : (Machine.slipOk s wid t).memOk :=
  .settleAll (h.onWave fun hw => hw.dropSlip)

theorem State.memOk.slipFail {s : State} {wid : Nat} {t : W32} {cause : Nat} {a : W64} {lanesOf : Mask} {peer : W32} (h : s.memOk) :
    (Machine.slipFail s wid t cause a lanesOf peer).memOk := by
  dsimp only [Machine.slipFail]
  split
  · split
    · exact h
    · exact h.failSlip.settleAll
  · exact h

theorem State.memOk.addAt {s : State} {c : Ctx} {a : W64} {sp : Space} {o x : Nat} (h : s.memOk) : (Machine.addAt s c a sp o x).memOk :=
  (h.writeRange _ _ _).dirtyAt

theorem State.memOk.bumpCounter {s : State} {v : Wave} {a : W64} (h : s.memOk) : (Machine.bumpCounter s v a).memOk := by
  dsimp only [Machine.bumpCounter]
  split
  · exact h.bumpGlobal
  · split
    · exact h.addAt
    · exact h

/-! ### Engine operations at issue (Machine/Engine.lean) -/

theorem State.memOk.addLocks {s : State} {die op : Nat} {rs : List Range} (h : s.memOk) : (Machine.addLocks s die op rs).memOk :=
  h

theorem State.memOk.compCheck {s : State} {v : Wave} {a : W64} (h : s.memOk) : onError Out.memOk (Machine.compCheck s v a) := by
  dsimp only [Machine.compCheck]
  split
  · exact trivial
  · split
    · exact h
    · split
      · rename_i e₁
        exact h.placeAt.of_eq e₁
      · split
        · rename_i e₂
          exact h.placeAt.of_eq e₂
        · exact trivial

theorem Wave.memOk.joinBatch {v : Wave} {op : Nat} (hw : v.memOk) : (Machine.joinBatch v op).memOk :=
  hw

theorem State.memOk.engQueued {s : State} {v : Wave} {i : Instr} {kind : EngKind} {comp : W64} {rs : List Range} (h : s.memOk) :
    (Machine.engQueued s v i kind comp rs).memOk :=
  .onWave (.addLocks (.newSlip h.keep)) fun hw => hw.joinBatch

theorem State.memOk.engIssue {i : Instr} {kind : EngKind} {comp : W64} {rs : List Range} {s : State} {v : Wave} (h : s.memOk) :
    (Machine.engIssue i kind comp rs s v).memOk := by
  dsimp only [Machine.engIssue]
  split
  · exact h.engQueued
  · exact h

theorem State.memOk.layoutRec {s : State} {v : Wave} {a : W64} (h : s.memOk) : onError Out.memOk (Machine.layoutRec s v a) :=
  h.recAt

theorem State.memOk.recRange {s : State} {v : Wave} {r : Layout} {both : Bool} (h : s.memOk) :
    onError Out.memOk (Machine.recRange s v r both) := by
  dsimp only [Machine.recRange]
  split
  · exact trivial
  · exact h

theorem State.memOk.copyGo {w : GenW} {s : State} {v : Wave} {src : Layout} {idx : Option Layout} {dst : Layout} (h : s.memOk) :
    (Machine.copyGo w s v src idx dst).memOk := by
  dsimp only [Machine.copyGo]
  split
  · exact h
  · split
    · exact h
    · split
      · rename_i e₁
        exact h.recRange.of_eq e₁
      · rename_i e₂ _
        exact h.recRange.of_eq e₂
      · rename_i e₃ _ _
        exact h.recRange.of_eq e₃
      · rename_i e₄ _ _ _
        exact h.compCheck.of_eq e₄
      · exact h.engIssue

theorem State.memOk.copyBody {w : GenW} {s : State} {v : Wave} (h : s.memOk) : (Machine.copyBody w s v).memOk := by
  dsimp only [Machine.copyBody]
  split
  · rename_i e₁
    exact h.layoutRec.of_eq e₁
  · rename_i e₂ _
    exact (ite_keeps trivial h.layoutRec).of_eq e₂
  · rename_i e₃ _ _
    exact h.layoutRec.of_eq e₃
  · split
    · exact h.copyGo
    · exact h.copyGo
    · exact h

theorem State.memOk.copymBody {w : GenW} {s : State} {v : Wave} (h : s.memOk) : (Machine.copymBody w s v).memOk := by
  dsimp only [Machine.copymBody]
  split
  · rename_i e₁
    exact h.layoutRec.of_eq e₁
  · split
    · exact h
    · split
      · exact h
      · split
        · exact h
        · split
          · rename_i e₂
            exact h.recRange.of_eq e₂
          · split
            · exact h
            · split
              · rename_i e₃
                exact h.compCheck.of_eq e₃
              · exact h.engIssue

theorem State.memOk.streamRange {s : State} {v : Wave} {a : W64} {t : Ty} {count : Nat} {both : Bool} (h : s.memOk) :
    onError Out.memOk (Machine.streamRange s v a t count both) := by
  dsimp only [Machine.streamRange]
  split
  · exact trivial
  · exact h

theorem allRanges_memOk {l : List (Except Out Range)} (h : ∀ x ∈ l, onError Out.memOk x) : onError Out.memOk (allRanges l) := by
  induction l with
  | nil => trivial
  | cons x r ih =>
    obtain ⟨hx, hr⟩ := List.forall_mem_cons.1 h
    unfold allRanges
    split
    · rename_i e
      cases e
    · rename_i e
      cases e
      exact hx
    · rename_i e
      cases e
      split
      · rename_i e
        exact (ih hr).of_eq e
      · trivial

theorem State.memOk.chainBody {w : GenW} {s : State} {v : Wave} (h : s.memOk) : (Machine.chainBody w s v).memOk := by
  dsimp only [Machine.chainBody]
  split
  · rename_i e
    exact h.recAt.of_eq e
  · split
    · exact h
    · split
      · exact h
      · split
        · rename_i e
          exact (allRanges_memOk (List.forall_mem_map.2 fun _ _ => h.streamRange)).of_eq e
        · rename_i e _
          exact h.compCheck.of_eq e
        · exact h.engIssue

theorem State.memOk.execClose {w : GenW} {s : State} (h : s.memOk) : nextOk (Machine.execClose w s) :=
  h.issueR fun h hw => h.writeOut hw.keep

theorem State.memOk.execWaitb {w : GenW} {s : State} (h : s.memOk) : nextOk (Machine.execWaitb w s) := by
  dsimp only [Machine.execWaitb]
  refine h.issueR fun h hw => ?_
  split
  · exact h
  · exact h.writeOut hw

theorem Wave.memOk.trywFlags {v : Wave} {z bad : Bool} (hw : v.memOk) : (Machine.trywFlags v z bad).memOk :=
  hw

theorem State.memOk.trywEnd {s : State} {v : Wave} {z bad : Bool} (h : s.memOk) (hw : v.memOk) : (Machine.trywEnd s v z bad).memOk :=
  h.putBack hw.trywFlags

theorem State.memOk.trywSeen {s : State} {v : Wave} {x : Nat} {target : W64} {deadline : Nat} (h : s.memOk) (hw : v.memOk) :
    (Machine.trywSeen s v x target deadline).memOk := by
  dsimp only [Machine.trywSeen]
  split
  · exact h.trywEnd hw
  · split
    · exact h.trywEnd hw
    · exact h

theorem State.memOk.forgetReads {s : State} {id : Nat} (h : s.memOk) : (Machine.forgetReads s id).memOk := by
  dsimp only [Machine.forgetReads]
  split <;> exact h

theorem State.memOk.trywPeer {s : State} {v : Wave} {a : W64} {p : BitVec 9} {target : W64} {deadline : Nat} {last : Option Nat}
    (h : s.memOk) (hw : v.memOk) : (Machine.trywPeer s v a p target deadline last).memOk := by
  dsimp only [Machine.trywPeer]
  split
  · exact h.noteForbidden.trywEnd hw
  · split
    · exact h.trywEnd hw
    · split
      · split
        · exact h
        · split
          · exact h.sendAll
          · exact h
      · split
        · exact h
        · split
          · exact h.sendAll
          · exact h

theorem State.memOk.trywRead {s : State} {v : Wave} {a target : W64} {deadline : Nat} {last : Option Nat} (h : s.memOk) (hw : v.memOk) :
    (Machine.trywRead s v a target deadline last).memOk := by
  dsimp only [Machine.trywRead]
  split
  · exact h.trywEnd hw
  · split
    · rename_i e
      have hs := h.placeAt.of_eq e
      exact hs
    · rename_i e
      exact h.placeAt.of_eq e
    · exact h.trywEnd hw
    · exact h.trywPeer hw
    all_goals
      split
      · exact h.noteForbidden.trywEnd hw
      · split
        · exact h.trywEnd hw
        · exact h.trywSeen hw

theorem State.memOk.trywBody {w : GenW} {s : State} {v : Wave} (h : s.memOk) (hw : v.memOk) : (Machine.trywBody w s v).memOk := by
  dsimp only [Machine.trywBody]
  split
  · exact h.trywRead hw
  · split
    · exact h
    · exact h.forgetReads.trywRead hw

theorem State.memOk.trywAgain {s : State} {v : Wave} (h : s.memOk) (hw : v.memOk) : (Machine.trywAgain s v).memOk := by
  dsimp only [Machine.trywAgain]
  split
  · exact (h.trywBody hw).finish
  · exact h

theorem State.memOk.trywTurn {s : State} {id : Nat} (h : s.memOk) : (Machine.trywTurn s id).memOk := by
  dsimp only [Machine.trywTurn]
  split
  · rename_i e
    split
    · split
      · exact h.killWave
      · exact h.trywAgain (h.findWave.of_eq e)
    · exact h
  · exact h

theorem State.memOk.trywAll {s : State} (h : s.memOk) : (Machine.trywAll s).memOk :=
  h.foldl fun h => h.trywTurn

theorem State.memOk.execTrywPeriodicRead {wave : Nat} {s : State} (h : s.memOk) : nextOk (Machine.execTrywPeriodicRead wave s) :=
  h.trywTurn

theorem State.memOk.trywReturn {s : State} {v : Wave} {z bad : Bool} (h : s.memOk) (hw : v.memOk) :
    (Machine.trywReturn s v z bad).memOk := by
  dsimp only [Machine.trywReturn]
  split
  · exact h.killWave
  · split
    · exact (h.trywEnd hw).finish
    · exact h

theorem State.memOk.execTrywLimitExpiry {wave : Nat} {s : State} (h : s.memOk) : nextOk (Machine.execTrywLimitExpiry wave s) := by
  dsimp only [Machine.execTrywLimitExpiry]
  split
  · rename_i e
    split
    · split
      · exact h.trywReturn (h.findWave.of_eq e)
      · exact h
    · exact h
  · exact h

/-! ### The network (Machine/Net.lean) -/

theorem State.memOk.connPut {s : State} {conn off n x : Nat} (h : s.memOk) : (Machine.connPut s conn off n x).memOk :=
  h.writeRange _ _ _

theorem State.memOk.connSerial {s : State} {conn : Nat} (h : s.memOk) : (Machine.connSerial s conn).1.memOk := by
  dsimp only [Machine.connSerial]
  split
  · dsimp only
    exact .connPut h.keep
  · exact h

theorem State.memOk.congested {s : State} {conn : Nat} {ce : Bool} (h : s.memOk) : (Machine.congested s conn ce).memOk := by
  dsimp only [Machine.congested]
  split
  · exact h.connPut.connPut
  · exact h

theorem State.memOk.windowAck {s : State} {conn : Nat} (h : s.memOk) : (Machine.windowAck s conn).memOk := by
  dsimp only [Machine.windowAck]
  split
  · exact h
  · split
    · exact h.connPut.connPut
    · exact h.connPut

theorem State.memOk.cacheConn {s : State} {conn : Nat} (h : s.memOk) : onSome State.memOk (Machine.cacheConn s conn) := by
  dsimp only [Machine.cacheConn]
  split
  · exact h
  · split
    · exact h
    · split
      · exact h
      · exact trivial

theorem State.memOk.addMsg {s : State} {m : NetMsg} (h : s.memOk) : (Machine.addMsg s m).memOk :=
  h

theorem State.memOk.modMsg {s : State} {id : Nat} {f : NetMsg → NetMsg} (h : s.memOk) : (Machine.modMsg s id f).memOk :=
  h

theorem State.memOk.getLeaving {s : State} {m : NetMsg} (h : s.memOk) : (Machine.getLeaving s m).1.memOk := by
  dsimp only [Machine.getLeaving]
  split
  · exact h
  · rename_i e
    exact (ite_keeps (P := onSome State.memOk) (a := some s) h h.cacheConn).of_eq e

theorem State.memOk.getLeaves {s : State} {m : NetMsg} (h : s.memOk) : (Machine.getLeaves s m).memOk :=
  h.getLeaving.modMsg

theorem State.memOk.sendMsg {s : State} {v : Wave} {i : Instr} {op : NetOp} {l : List Byte} (h : s.memOk) :
    (Machine.sendMsg s v i op l).memOk := by
  unfold Machine.sendMsg
  extract_lets conn parts s₁
  have h₁ : s₁.memOk := State.memOk.newSlip h.keep
  split
  · exact State.memOk.slipFail h₁.addMsg
  · dsimp only
    generalize e : Machine.connPut _ conn 0x20 4 _ = s₃
    have h₃ : s₃.memOk := e ▸ h₁.connSerial.connPut
    split
    · exact State.memOk.addMsg (getD_keeps h₃.cacheConn h₃)
    · exact h₃.getLeaving.addMsg

theorem State.memOk.netBody {i : Instr} {w : GenW} {op : NetOp} {s : State} {v : Wave} (h : s.memOk) :
    (Machine.netBody i w op s v).memOk := by
  dsimp only [Machine.netBody]
  split
  · rename_i e
    exact h.anyRecAt.of_eq e
  · split
    · exact h
    · split
      · exact h
      · split
        · exact h
        · exact h.sendMsg

theorem State.memOk.ownerWrite {s : State} {c : Ctx} {a : W64} {l : List Byte} {raw : Bool} (h : s.memOk) :
    onSome State.memOk (Machine.ownerWrite s c a l raw) :=
  onSome_map fun _ => .foldl (.foldl (h.foldl fun h => h.writeBytes _ _ _) fun h => h.clearPoison _ _) fun h => h.dirtyAt

theorem State.memOk.flushCheck {n : Nat} {s : State} {conn : Nat} (h : s.memOk) : (Machine.flushCheck n s conn).memOk := by
  induction n generalizing s with
  | zero => exact h
  | succ n ih =>
    unfold Machine.flushCheck
    dsimp only
    split
    · exact ih h.slipOk
    · exact ih h.slipFail
    · exact h

theorem State.memOk.flushAll {s : State} {conn : Nat} (h : s.memOk) : (Machine.flushAll s conn).memOk :=
  h.flushCheck

theorem State.memOk.msgLocal {s : State} {m : NetMsg} (h : s.memOk) : (Machine.msgLocal s m).memOk := by
  dsimp only [Machine.msgLocal]
  split
  · exact h
  · exact .slipOk (ite_keeps h h.bumpCounter)

theorem State.memOk.msgFail {s : State} {m : NetMsg} {cause : Nat} (h : s.memOk) : (Machine.msgFail s m cause).memOk :=
  h.modMsg.slipFail.flushAll

theorem State.memOk.modPart {s : State} {msg part : Nat} {f : NetPart → NetPart} (h : s.memOk) : (Machine.modPart s msg part f).memOk :=
  h.modMsg

theorem State.memOk.putPart {s : State} {msg : Nat} {p : NetPart} (h : s.memOk) : (Machine.putPart s msg p).memOk := by
  dsimp only [Machine.putPart]
  split
  · exact h
  · split
    · exact h
    · split
      · exact h.askAll
      · exact h.heardAll.msgFail
      · exact h.modPart

theorem State.memOk.putLeaves {s : State} {m : NetMsg} (h : s.memOk) : (Machine.putLeaves s m).memOk := by
  dsimp only [Machine.putLeaves]
  split
  · exact h
  · rename_i s₁ e
    have h₁ : s₁.memOk := (ite_keeps (P := onSome State.memOk) (a := some s) h h.cacheConn).of_eq e
    split
    · split
      · exact .msgLocal (.foldl h₁.modMsg fun h => h.putPart)
      · exact .foldl h₁.modMsg fun h => h.putPart
    · exact .foldl h₁.modMsg fun h => h.putPart

theorem State.memOk.execNflush {w : GenW} {s : State} (h : s.memOk) : nextOk (Machine.execNflush w s) :=
  h.issue fun h _ => ite_keeps h (ite_keeps h.newSlip.slipFail h.newSlip.flushAll)

theorem State.memOk.execWrev {w : GenW} {s : State} (h : s.memOk) : nextOk (Machine.execWrev w s) := by
  dsimp only [Machine.execWrev]
  refine h.issueR fun h hw => ?_
  split
  · exact h.writeOut hw
  · exact (h.writeRange _ _ _).writeOut hw

theorem State.memOk.putRecv {s : State} {r : NetRecv} (h : s.memOk) : (Machine.putRecv s r).memOk :=
  h

theorem State.memOk.netReply {s : State} {p : NetPacket} {off status : Nat} {data : List Byte} (h : s.memOk) :
    (Machine.netReply s p off status data).memOk :=
  h

theorem State.memOk.netPark {s : State} {p : NetPacket} (h : s.memOk) : (Machine.netPark s p).memOk := by
  dsimp only [Machine.netPark]
  split
  · exact h
  · exact h.netReply

theorem State.memOk.netDo {s : State} {p : NetPacket} {r : NetRecv} {c : Ctx} {a : W64} (h : s.memOk) :
    (Machine.netDo s p r c a).memOk := by
  dsimp only [Machine.netDo]
  split
  · split
    · rename_i e
      exact .netReply (.putRecv (h.ownerWrite.of_eq e))
    · exact h.netReply
  · split
    · exact h.foldl fun h => h.netReply
    · exact h.netReply
  · split
    · split
      · exact h.netReply
      · exact (h.writeRange _ _ _).dirtyAt.putRecv.netReply
    · exact h.netReply
  · exact h

theorem State.memOk.netPlace {s : State} {p : NetPacket} (h : s.memOk) : (Machine.netPlace s p).memOk := by
  dsimp only [Machine.netPlace]
  split
  · exact h
  · split
    · exact h.congested.connSerial.netReply
    · split
      · exact h.congested.connSerial.netReply
      · split
        · exact h.congested.connSerial.netReply
        · split
          · exact h.congested.connSerial.askAll.netPark
          · split
            · exact h.congested.connSerial.netPark
            · exact h.congested.connSerial.netDo.heardAll

theorem State.memOk.execNetPacketArrival {pkt : NetPacket} {s : State} (h : s.memOk) : nextOk (Machine.execNetPacketArrival pkt s) := by
  dsimp only [Machine.execNetPacketArrival]
  split
  · exact h
  · split
    · exact .netPlace (getD_keeps h.cacheConn h)
    · exact h.netPark

theorem State.memOk.execNetContextFetchDone {conn : Nat} {s : State} (h : s.memOk) : nextOk (Machine.execNetContextFetchDone conn s) := by
  dsimp only [Machine.execNetContextFetchDone]
  split
  · exact h
  · split
    · exact h
    · rename_i e
      exact .foldl (.keep (h.cacheConn.of_eq e)) fun h => h.netPlace

theorem State.memOk.heardAnswer {s : State} {a : NetAnswer} (h : s.memOk) : (Machine.heardAnswer s a).memOk := by
  dsimp only [Machine.heardAnswer]
  split
  · exact h.congested
  · exact h

theorem State.memOk.netGot {s : State} {m : NetMsg} {q : NetPart} {data : List Byte} (h : s.memOk) :
    (Machine.netGot s m q data).memOk := by
  dsimp only [Machine.netGot]
  split
  · exact h.askAll
  · split
    · rename_i e
      have h₁ := h.modMsg.ownerWrite.of_eq e
      exact .flushAll (ite_keeps h₁.windowAck.msgLocal h₁)
    · exact h.modMsg.heardAll.msgFail

theorem State.memOk.execNetAck {ans : NetAnswer} {s : State} (h : s.memOk) : nextOk (Machine.execNetAck ans s) := by
  dsimp only [Machine.execNetAck]
  split
  · exact h.heardAnswer
  · split
    · exact h.heardAnswer
    · split
      · exact h.heardAnswer.windowAck.modMsg.flushAll
      · exact h.heardAnswer.windowAck.modMsg.flushAll
      · exact h.heardAnswer.netGot
      · exact h.heardAnswer.netGot

theorem State.memOk.execNetNak {ans : NetAnswer} {s : State} (h : s.memOk) : nextOk (Machine.execNetNak ans s) := by
  dsimp only [Machine.execNetNak]
  split
  · exact h.heardAnswer
  · split
    · exact h.heardAnswer
    · split
      · exact h.heardAnswer.modMsg.msgFail
      · exact h.heardAnswer.modMsg

theorem State.memOk.connDead {s : State} {conn : Nat} (h : s.memOk) : (Machine.connDead s conn).memOk :=
  .flushAll (.foldl (ite_keeps h (h.writeRange _ _ _)) fun h => h.msgFail)

theorem State.memOk.resend {s : State} {m : NetMsg} {p : NetPart} (h : s.memOk) : (Machine.resend s m p).memOk := by
  dsimp only [Machine.resend]
  split
  · exact h.connDead
  · split
    · exact h.modPart
    · split
      · exact h.askAll
      · exact h.heardAll.msgFail
      · exact h.modPart

theorem State.memOk.execNetParkResend {pkt : Nat} {s : State} (h : s.memOk) : nextOk (Machine.execNetParkResend pkt s) := by
  dsimp only [Machine.execNetParkResend]
  split
  · split
    · exact h.resend
    · exact h
  · exact h

theorem State.memOk.execNetRetransmitTimeout {pkt : Nat} {s : State} (h : s.memOk) : nextOk (Machine.execNetRetransmitTimeout pkt s) := by
  dsimp only [Machine.execNetRetransmitTimeout]
  split
  · split
    · exact h.resend
    · exact h
  · exact h

/-! ### The binderies (Machine/EvBindery.lean) -/

theorem State.memOk.modBindery {s : State} {die : Nat} {f : Bindery → Bindery} (h : s.memOk) : (Machine.modBindery s die f).memOk :=
  h

theorem State.memOk.execBdyDoorbell {die : Nat} {value : W64} {s : State} (h : s.memOk) :
    nextOk (Machine.execBdyDoorbell die value s) := by
  dsimp only [Machine.execBdyDoorbell]
  split
  · exact h
  · split
    · split
      · exact h.modBindery
      · exact h
    · split
      · split <;> exact h.modBindery.modBindery
      · split <;> exact h.modBindery

theorem State.memOk.bindBump {s : State} {c : Ctx} {a : W64} (h : s.memOk) : (Machine.bindBump s c a).memOk :=
  h.bumpGlobal

theorem State.memOk.putResult {s : State} {c : Ctx} {a : W64} {i r : Nat} (h : s.memOk) : (Machine.putResult s c a i r).memOk :=
  h.ctxPut

theorem State.memOk.markEnt {c : Ctx} {d : HeapDesc} {a : W64} {x : State × List (Nat × W64) × List BatchEnt} {i : Nat} (hf : x.1.memOk) :
    (Machine.markEnt c d a x i).1.memOk := by
  dsimp only [Machine.markEnt]
  split
  · dsimp only
    exact hf.putResult
  · split
    · split
      · dsimp only
        exact hf.putResult
      · split
        · dsimp only
          exact hf.putCat
        · dsimp only
          exact hf.putResult
    · split
      · dsimp only
        exact hf.putCat
      · dsimp only
        exact hf.putResult

theorem State.memOk.freeMoved {s : State} {c : Ctx} {d : HeapDesc} {colour : BitVec 2} (h : s.memOk) :
    (Machine.freeMoved s c d colour).memOk :=
  h.foldl fun h => ite_keeps h.putCat h

theorem State.memOk.advanceColour {s : State} {c : Ctx} {heap : Nat} {d : HeapDesc} (h : s.memOk) :
    (Machine.advanceColour s c heap d).memOk :=
  .freeMoved (.keep h.ctxPut)

theorem State.memOk.rejectBatch {s : State} {c : Ctx} {a : W64} {y : BatchHead} (h : s.memOk) : (Machine.rejectBatch s c a y).memOk := by
  dsimp only [Machine.rejectBatch]
  split
  · exact h.ctxPut.bindBump
  · exact h.ctxPut

theorem State.memOk.execBinderyBatchStart {die : Nat} {s : State} (h : s.memOk) : nextOk (Machine.execBinderyBatchStart die s) := by
  dsimp only [Machine.execBinderyBatchStart]
  split
  · split
    · exact h.modBindery
    · split
      · exact .modBindery (.advanceColour (h.modBindery.foldlFst fun h => h.markEnt))
      · exact h.modBindery.rejectBatch
  · exact h

theorem State.memOk.execBinderyDrainDone {die : Nat} {s : State} (h : s.memOk) : nextOk (Machine.execBinderyDrainDone die s) := by
  dsimp only [Machine.execBinderyDrainDone]
  split
  · exact h
  · split
    · exact h.modBindery
    · split
      · exact h
      · exact h.modBindery

theorem State.memOk.moveObject {s : State} {c : Ctx} {e : BatchEnt} (h : s.memOk) : onSome State.memOk (Machine.moveObject s c e) := by
  unfold Machine.moveObject
  split
  · trivial
  · refine onSome_map_of h.ownerWrite fun h₁ => h₁.foldl fun h₂ => ?_
    split
    · split
      · exact h₂.addPoison _ _
      · exact h₂
    · exact h₂

theorem State.memOk.moveEnt {c : Ctx} {batch : W64} {col : Nat} {s : State} {p : W64 × BatchEnt} (h : s.memOk) :
    (Machine.moveEnt c batch col s p).memOk := by
  dsimp only [Machine.moveEnt]
  split
  · rename_i e
    exact .putResult (.putCat (h.moveObject.of_eq e))
  · exact h.putCat.putResult

theorem State.memOk.execBinderyBatchDone {die : Nat} {s : State} (h : s.memOk) : nextOk (Machine.execBinderyBatchDone die s) := by
  dsimp only [Machine.execBinderyBatchDone]
  split
  · exact h
  · split
    · exact h.modBindery
    · split
      · exact h
      · exact .modBindery (.bindBump (.ctxPut (h.foldl fun h => h.moveEnt)))

/-! ### Waves as they start (Machine/Wave.lean) -/

theorem newWave_memOk {id ctx team idx role core slot cnt prio depth : Nat} {scope : W64} {fsw : Bool} {k : Kernel} {free clk : Nat} :
    (newWave id ctx team idx role core slot cnt prio depth scope fsw k free clk).memOk :=
  rfl

/-! ### Room for work (Machine/Place.lean) -/

theorem State.memOk.mapSlot {s : State} {ctx die slot : Nat} (h : s.memOk) : (Machine.mapSlot s ctx die slot).memOk :=
  h.onCtx fun hc => hc

theorem State.memOk.allocAnnex {s : State} {ctx die : Nat} {slot : Option Nat} (h : s.memOk) :
    (Machine.allocAnnex s ctx die slot).memOk := by
  dsimp only [Machine.allocAnnex]
  split
  · exact h
  · exact h.mapSlot
  · exact .keep (h.setMem _ rfl).mapSlot
  · exact h

theorem State.memOk.moveCursor {s : State} {ctx core : Nat} {pair : Bool} (h : s.memOk) : (Machine.moveCursor s ctx core pair).memOk :=
  .onCtx h.keep fun hc => hc

/-- A team is placed with an empty shelf, its waves with empty stacks. -/
theorem State.memOk.placeTeam {s : State} {c : Ctx} {kind : TeamKind} {index : Nat} {t : Shape} {roles : List Role} {k : Kernel}
    {prio depth : Nat} {scope : W64} {fsw : Bool} {core : Nat} (h : s.memOk) :
    (Machine.placeTeam s c kind index t roles k prio depth scope fsw core).memOk := by
  unfold Machine.placeTeam
  extract_lets s₁ id n slots waves team s₂
  have h₁ : s₁.memOk := h.allocAnnex.moveCursor
  have hteam : team.memOk := rfl
  have hwaves : ∀ w ∈ waves, w.memOk := List.forall_mem_map.2 fun _ _ => newWave_memOk
  have h₂ : s₂.memOk := ((h₁.appendTeams (List.forall_mem_singleton.2 hteam)).appendWaves hwaves).keep
  exact h₂.onCtx Ctx.memOk.keep

/-! ### Tasks, scopes and barriers (Machine/Task.lean) -/

theorem State.memOk.spawnTask {s : State} {v : Wave} {i : Instr} {d : TaskDesc} {scope : W64} (h : s.memOk) :
    (Machine.spawnTask s v i d scope).memOk :=
  .newSlip h.keep

theorem State.memOk.spawnBody {w : GenW} {s : State} {v : Wave} (h : s.memOk) : (Machine.spawnBody w s v).1.memOk := by
  dsimp only [Machine.spawnBody]
  split
  · rename_i e₁
    dsimp only
    exact h.recAt.of_eq e₁
  · split
    · exact h
    · split
      · split
        · split
          · rename_i e₂
            exact h.writeOut (h.findWave.of_eq e₂)
          · exact h
        · split
          · exact h
          · split
            · rename_i e₃
              exact h.spawnTask.writeOut (h.spawnTask.findWave.of_eq e₃)
            · dsimp only
              exact h.spawnTask
      · split
        · split
          · rename_i e₄
            exact h.writeOut (h.findWave.of_eq e₄)
          · exact h
        · split
          · exact h
          · split
            · rename_i e₅
              exact h.spawnTask.writeOut (h.spawnTask.findWave.of_eq e₅)
            · dsimp only
              exact h.spawnTask

theorem State.memOk.execSpawn {w : GenW} {s : State} (h : s.memOk) : nextOk (Machine.execSpawn w s) :=
  h.issueR fun h _ => h.spawnBody

theorem State.memOk.dropScope {s : State} {ctx slot : Nat} (h : s.memOk) : (Machine.dropScope s ctx slot).memOk :=
  h.onCtx fun hc => hc

theorem State.memOk.freeScopes {n : Nat} {s : State} {ctx : Nat} (h : s.memOk) : (Machine.freeScopes n s ctx).memOk := by
  induction n generalizing s with
  | zero => exact h
  | succ n ih =>
    unfold Machine.freeScopes
    dsimp only
    split
    · exact ih h.dropScope
    · exact h

theorem State.memOk.freeAll {s : State} {ctx : Nat} (h : s.memOk) : (Machine.freeAll s ctx).memOk :=
  h.freeScopes

theorem State.memOk.execTaskAccept {task : Nat} {s : State} (h : s.memOk) : nextOk (Machine.execTaskAccept task s) := by
  dsimp only [Machine.execTaskAccept]
  split
  · exact h
  · split
    · exact h
    · split
      · exact .freeAll (.slipFail h.keep)
      · exact .slipOk h.keep

theorem State.memOk.openScope {s : State} {ctx slot depth : Nat} {parent : Option Nat} {counter : W64} {opener grid : Option Nat}
    (h : s.memOk) : (Machine.openScope s ctx slot depth parent counter opener grid).1.memOk :=
  h.onCtx fun hc => hc

theorem State.memOk.cscopeBody {w : GenW} {s : State} {v : Wave} (h : s.memOk) (hw : v.memOk) : (Machine.cscopeBody w s v).1.memOk := by
  dsimp only [Machine.cscopeBody]
  split
  · exact h
  · split
    · split
      · exact h.writeOut hw
      · split
        · exact h.writeOut hw
        · exact h.openScope.writeOut hw
    · split
      · exact h.writeOut hw
      · split
        · exact h.writeOut hw
        · exact h.openScope.writeOut hw

theorem State.memOk.execCscope {w : GenW} {s : State} (h : s.memOk) : nextOk (Machine.execCscope w s) :=
  h.issueR fun h hw => h.cscopeBody hw

theorem State.memOk.cancelBody {w : GenW} {s : State} {v : Wave} (h : s.memOk) : (Machine.cancelBody w s v).1.memOk := by
  dsimp only [Machine.cancelBody]
  split
  · split
    · rename_i e₁
      exact h.writeOut (h.findWave.of_eq e₁)
    · exact h
  · split
    · split
      · rename_i e₂
        exact h.writeOut (h.findWave.of_eq e₂)
      · exact h
    · split
      · rename_i e₃
        exact h.cancelMark.writeOut (h.cancelMark.findWave.of_eq e₃)
      · dsimp only
        exact h.cancelMark

theorem State.memOk.execCancel {w : GenW} {s : State} (h : s.memOk) : nextOk (Machine.execCancel w s) :=
  h.issueR fun h _ => h.cancelBody

theorem State.memOk.arrive {s : State} {v : Wave} {n land : Nat} (h : s.memOk) : (Machine.arrive s v n land).memOk :=
  .barCheck (.onWave (h.onTeam fun ht => ht) fun hw => hw)

theorem State.memOk.barBody {w : GenW} {wait : Bool} {s : State} {v : Wave} (h : s.memOk) : (Machine.barBody w wait s v).memOk := by
  dsimp only [Machine.barBody]
  split
  · exact h
  · split
    · exact h
    · split <;> exact h.arrive

theorem State.memOk.barwBody {w : GenW} {s : State} {v : Wave} (h : s.memOk) : (Machine.barwBody w s v).memOk := by
  dsimp only [Machine.barwBody]
  split
  · exact h
  · split
    · exact h
    · split <;> exact h

theorem Wave.memOk.setCount {v : Wave} {c : Nat} (hw : v.memOk) : (Machine.setCount v c).memOk :=
  hw

theorem State.memOk.modPool {s : State} {v : Wave} {f : Nat → Nat} (h : s.memOk) : (Machine.modPool s v f).memOk :=
  h.onTeam fun ht => ht

theorem State.memOk.takeRegs {s : State} {v : Wave} {n : Nat} (h : s.memOk) : (Machine.takeRegs s v n).memOk :=
  h.modPool.claimLeave.onWave fun hw => hw.setCount

theorem State.memOk.serveClaims {n : Nat} {s : State} {v : Wave} (h : s.memOk) : (Machine.serveClaims n s v).memOk := by
  induction n generalizing s with
  | zero => exact h
  | succ n ih =>
    unfold Machine.serveClaims
    split
    · exact h
    · split
      · exact h
      · split
        · split
          · split
            · refine ih (Out.memOk.finish ?_)
              exact h.takeRegs
            · exact h
          · exact h
        · exact h

theorem State.memOk.giveBody {w : GenW} {s : State} {v : Wave} (h : s.memOk) : (Machine.giveBody w s v).memOk := by
  dsimp only [Machine.giveBody]
  split
  · exact h
  · split
    · exact h
    · split
      · exact h
      · exact .serveClaims (.modPool (h.onWave fun hw => hw.setCount))

theorem State.memOk.execGiveRelease {wave : Nat} {s : State} (h : s.memOk) : nextOk (Machine.execGiveRelease wave s) := by
  dsimp only [Machine.execGiveRelease]
  split
  · exact h
  · split
    · exact h.giveBody.finish
    · exact h

theorem State.memOk.claimBody {w : GenW} {s : State} {v : Wave} (h : s.memOk) : (Machine.claimBody w s v).memOk := by
  dsimp only [Machine.claimBody]
  split
  · exact h
  · split
    · exact h
    · split
      · exact h.takeRegs
      · split
        · exact h
        · exact h.onTeam fun ht => ht

theorem State.memOk.hwaitBody {w : GenW} {s : State} {v : Wave} (h : s.memOk) : (Machine.hwaitBody w s v).memOk := by
  dsimp only [Machine.hwaitBody]
  split <;> split <;> exact h

theorem State.memOk.waittBody {w : GenW} {s : State} {v : Wave} (h : s.memOk) : (Machine.waittBody w s v).memOk := by
  dsimp only [Machine.waittBody]
  split
  · exact h
  · split <;> exact h

/-! ### Events of waves (Machine/EvWave.lean) -/

theorem State.memOk.bumpFor {s : State} {c : Ctx} {opener : Option Nat} {a : W64} (h : s.memOk) :
    (Machine.bumpFor s c opener a).memOk := by
  dsimp only [Machine.bumpFor]
  split
  · exact h.bumpGlobal
  · split
    · exact h.bumpCounter
    · exact h.lostIncrement

theorem State.memOk.execScopeQuiesceAck {ctx slot : Nat} {s : State} (h : s.memOk) : nextOk (Machine.execScopeQuiesceAck ctx slot s) := by
  dsimp only [Machine.execScopeQuiesceAck]
  split
  · exact h
  · split
    · refine .freeAll ?_
      split
      · exact .keep (.dropScope (ite_keeps h h.bumpFor))
      · exact .dropScope (ite_keeps h h.bumpFor)
    · exact h

theorem State.memOk.execWaveKill {wave : Nat} {s : State} (h : s.memOk) : nextOk (Machine.execWaveKill wave s) := by
  dsimp only [Machine.execWaveKill]
  split
  · exact h
  · split
    · split
      · exact h.killWave
      · exact h
    · split
      · exact h.killWave
      · exact h
    · split
      · exact h.killWave
      · exact h
    · split
      · exact h.killWave
      · exact h
    · split
      · exact h.killWave
      · exact h

theorem State.memOk.endTeam {s : State} {team : Nat} (h : s.memOk) : (Machine.endTeam s team).memOk := by
  dsimp only [Machine.endTeam]
  split
  · exact h
  · exact (h.filterTeams.filterWaves (p := fun w => w.team != team)).keep.onCtx Ctx.memOk.keep

theorem State.memOk.retireWave {s : State} {w : Wave} (h : s.memOk) : (Machine.retireWave s w).memOk := by
  unfold Machine.retireWave
  extract_lets _ _ _ w₁ s₁ s₂ s₃ s₄
  have hw₁ : w₁.memOk := rfl
  have h₁ : s₁.memOk := (h.putBack hw₁).modPool
  have h₂ : s₂.memOk := ite_keeps (h₁.onCtx Ctx.memOk.keep) h₁
  have h₃ : s₃.memOk := h₂.serveClaims
  have h₄ : s₄.memOk := ite_keeps h₃.endCtx h₃.haltCheck
  exact h₄.endTeam.freeAll

theorem State.memOk.execWaveRetire {wave : Nat} {s : State} (h : s.memOk) : nextOk (Machine.execWaveRetire wave s) := by
  dsimp only [Machine.execWaveRetire]
  split
  · split
    · exact h.settleAll.retireWave
    · exact h.settleAll
  · exact h

theorem State.memOk.execWaveStateMachineCheck {wave : Nat} {s : State} (h : s.memOk) :
    nextOk (Machine.execWaveStateMachineCheck wave s) := by
  dsimp only [Machine.execWaveStateMachineCheck]
  split
  · exact h
  · split
    · exact h
    · exact h
    · exact h
    · exact h.rowRecord.onWave fun hw => hw

theorem State.memOk.linkEnds {s : State} {w : Wave} {x : Slip} {a : Access} {got : List Got} {r : Reply} (h : s.memOk) :
    (Machine.linkEnds s w x a got r).memOk :=
  h.perform.modSlip.settleAll

theorem State.memOk.execSlipResolve {wave : Nat} {tag : W32} {reply : Reply} {s : State} (h : s.memOk) :
    nextOk (Machine.execSlipResolve wave tag reply s) := by
  dsimp only [Machine.execSlipResolve]
  split
  · split
    · exact h
    · split
      · split
        · exact h
        · exact h.linkEnds
      · exact h.settleAll
      · split
        · split
          · exact h
          · split
            · split
              · exact h.msgFail
              · exact h.putLeaves
            · exact h.getLeaves
        · exact h
      · exact h.flushAll
      · exact h
      · exact h
  · exact h

theorem State.memOk.execTrapDelivery {wave : Nat} {s : State} (h : s.memOk) : nextOk (Machine.execTrapDelivery wave s) := by
  dsimp only [Machine.execTrapDelivery]
  split
  · split
    · exact h.killWave
    · split
      · split
        · exact h.takeTrap
        · exact h
      · exact h
  · exact h

theorem State.memOk.execFaultRecordWrite {wave : Nat} {s : State} (h : s.memOk) : nextOk (Machine.execFaultRecordWrite wave s) := by
  dsimp only [Machine.execFaultRecordWrite]
  split
  · exact h
  · split
    · split
      · exact h
      · split
        · exact h.askAll
        · split
          · split
            · exact h.askAll
            · split
              · exact .onCtx (h.ctxPut.ctxPut.onWave fun hw => hw) fun hc => hc
              · exact h
          · exact h.heardAll.heardAll
    · exact h

theorem State.memOk.execNopreOverrun {wave : Nat} {s : State} (h : s.memOk) : nextOk (Machine.execNopreOverrun wave s) := by
  dsimp only [Machine.execNopreOverrun]
  split
  · rename_i e
    split
    · split
      · exact h.putBack (.keep (h.findWave.of_eq e))
      · exact h
    · exact h
  · exact h

/-! ### The engines at work (Machine/EvEngine.lean) -/

theorem State.memOk.modOp {s : State} {id : Nat} {f : EngOp → EngOp} (h : s.memOk) : (Machine.modOp s id f).memOk :=
  h

theorem State.memOk.dirtyOp {s : State} {o : EngOp} {a : Option W64} (h : s.memOk) : (Machine.dirtyOp s o a).memOk := by
  dsimp only [Machine.dirtyOp]
  split
  · exact h.dirtyAt
  · exact h

theorem State.memOk.sendFetches {s : State} {o : EngOp} {els : List Elem} (h : s.memOk) : (Machine.sendFetches s o els).memOk :=
  h.foldl fun h => ite_keeps h h.sendAll

theorem State.memOk.signalLandings {s : State} {o : EngOp} (h : s.memOk) : (Machine.signalLandings s o).memOk := by
  dsimp only [Machine.signalLandings]
  split
  · exact h.foldl fun h => .barCheck (h.onTeam fun ht => ht)
  · exact h

/-- What a chunk leaves has its memories in canonical form. -/
def ChunkAcc.memOk (b : ChunkAcc) : Prop := b.s.memOk

theorem ChunkAcc.memOk.putElem1 {b : ChunkAcc} {o : EngOp} {n off x : Nat} {sp : Space} {a : Option W64} {pois : Bool} (h : b.memOk) :
    (Machine.putElem1 b o n sp off a x pois).memOk := by
  unfold Machine.putElem1
  split
  · exact State.memOk.noteForbidden h
  · exact (State.memOk.writeBytes h _ _ _).dirtyOp

theorem ChunkAcc.memOk.chunkPut {b : ChunkAcc} {o : EngOp} {k x : Nat} {pois stop : Bool} (h : b.memOk) :
    (Machine.chunkPut o b k x pois stop).memOk := by
  unfold Machine.chunkPut
  dsimp only
  split
  · exact foldl_keeps h ChunkAcc.memOk.putElem1
  · split
    · split
      · exact h
      · exact h.putElem1
    · split
      · exact State.memOk.noteForbidden h
      · split <;> exact h
    · exact h

theorem ChunkAcc.memOk.chunkElem {s₀ : State} {b : ChunkAcc} {o : EngOp} {refused : Option Nat} {k : Nat} (h : b.memOk) :
    (Machine.chunkElem s₀ o refused b k).memOk := by
  unfold Machine.chunkElem
  dsimp only
  split
  · exact h
  · split
    · rename_i forb _ _
      have h₁ : (forb.foldl (fun s i => noteForbidden s o.core i) b.s).memOk := State.memOk.foldl h fun h => h.noteForbidden
      split
      · exact h₁
      · exact ChunkAcc.memOk.chunkPut h₁
    · exact h
    · exact h

theorem ChunkAcc.memOk.chunkPoison {b : ChunkAcc} (h : b.memOk) : (Machine.chunkPoison b).memOk :=
  (State.memOk.foldl h fun h => h.clearPoison _ _).foldl fun h => h.addPoison _ _

theorem State.memOk.markPoison {s₀ s : State} {lines : List Nat} (h₁ : s.memOk) : (Machine.markPoison s₀ s lines).memOk := by
  dsimp only [Machine.markPoison]
  split <;> exact h₁

theorem State.memOk.sendFar {s₀ : State} {o₀ : EngOp} (h : s₀.memOk) : (Machine.sendFar s₀ o₀).memOk := by
  dsimp only [Machine.sendFar]
  refine .modOp (h.modOp.foldlFst fun h => ?_)
  split
  · dsimp only
    exact .markPoison (.sendAll (h.foldl fun h => h.dirtyPeer))
  · exact h

theorem State.memOk.heardFault {s : State} {o : EngOp} {f : Option EngFault} (h : s.memOk) : (Machine.heardFault s o f).memOk := by
  dsimp only [Machine.heardFault]
  split
  · exact h.heardAll.heardAll
  · exact h

theorem State.memOk.runChunk {s : State} {o : EngOp} {refused : Option Nat} (h : s.memOk) : (Machine.runChunk s o refused).memOk := by
  unfold Machine.runChunk
  extract_lets b _ s₁ s₂
  have hb : b.memOk := foldl_keeps (P := ChunkAcc.memOk) h ChunkAcc.memOk.chunkElem
  have h₁ : s₁.memOk := hb.chunkPoison.heardFault.modOp
  have h₂ : s₂.memOk := ite_keeps h₁ h₁.sendFar
  split
  · exact h₂.signalLandings
  · exact h₂

theorem State.memOk.execEngineChunk {c : ChunkMove} {s : State} (h : s.memOk) : nextOk (Machine.execEngineChunk c s) := by
  dsimp only [Machine.execEngineChunk]
  split
  · exact h
  · split
    · exact h.sendFar
    · split
      · exact h
      · split
        · exact h.runChunk
        · exact h.sendFetches
        · exact h.foldl fun h => h.askHost

theorem State.memOk.execEngineOpStart {op : Nat} {s : State} (h : s.memOk) : nextOk (Machine.execEngineOpStart op s) := by
  dsimp only [Machine.execEngineOpStart]
  split
  · exact h
  · split
    · split
      · split
        · exact h
        · exact h.modOp
      · split
        · exact h
        · exact h.modOp
    · split
      · split
        · exact h
        · exact h.modOp
      · split
        · exact h
        · exact h.modOp

theorem Wave.memOk.countDrain {op code : Nat} {w : Wave} (hw : w.memOk) : (Machine.countDrain op code w).memOk := by
  dsimp only [Machine.countDrain]
  split
  · split <;> exact hw
  · exact hw

theorem State.memOk.dropLocks {s : State} {op : Nat} (h : s.memOk) : (Machine.dropLocks s op).memOk :=
  h

theorem State.memOk.endOp {s : State} {o : EngOp} {code : Nat} {e : OpEnd} (h : s.memOk) : (Machine.endOp s o code e).memOk := by
  unfold Machine.endOp
  extract_lets s₁ s₂
  have h₂ : s₂.memOk := (State.memOk.dropLocks h).mapWaves fun hw => ite_keeps (P := Wave.memOk) hw.countDrain.keep hw.countDrain
  split
  · exact h₂.slipFail
  · exact h₂.slipOk

/-- What a completion block's write leaves has its memories in canonical form. -/
def BlockRes.memOk : BlockRes → Prop
  | .done s | .wait s | .bad s => s.memOk

theorem State.memOk.blockLocal {s : State} {o : EngOp} {status : W64} {credit : Bool} {sp : Space} {off : Nat} (h : s.memOk) :
    (Machine.blockLocal s o status credit sp off).memOk := by
  unfold Machine.blockLocal
  split
  · exact ite_keeps (P := State.memOk) h.noteForbidden.noteForbidden h.noteForbidden
  · split
    · exact h
    · split
      · exact h
      · dsimp only
        generalize e : Machine.writeRange s sp (off + 8) _ = s₁
        have hs : s₁.memOk := e ▸ h.writeRange _ _ _
        exact State.memOk.dirtyOp
          (s := if credit then Machine.addOne s₁ sp off else s₁) (ite_keeps hs.addOne hs)

theorem State.memOk.blockPeer {s : State} {o : EngOp} {status : W64} {credit : Bool} {id : BitVec 9} {base : Nat} (h : s.memOk) :
    (Machine.blockPeer s o status credit id base).memOk := by
  unfold Machine.blockPeer
  extract_lets put
  have hput : ∀ kind a d stage, (put kind a d stage).memOk := by
    intro kind a d stage
    dsimp only [put]
    generalize engAccess kind _ _ = acc
    generalize e : Machine.sendAll _ acc _ _ _ _ = s₁
    have h₁ : s₁.memOk := e ▸ State.memOk.sendAll h.dirtyAt.modOp
    generalize packetRoom s acc _ _ = room
    exact ite_keeps (P := BlockRes.memOk) h (ite_keeps (P := BlockRes.memOk) h₁ h)
  split
  · exact ite_keeps (P := State.memOk) h.noteForbidden.noteForbidden h.noteForbidden
  · split
    · exact h
    · split
      · exact hput _ _ _ _
      · split
        · exact hput _ _ _ _
        · exact h

theorem State.memOk.blockWrite {s : State} {o : EngOp} {status : W64} {credit : Bool} {base : Nat} (h : s.memOk) :
    (Machine.blockWrite s o status credit base).memOk := by
  unfold Machine.blockWrite
  split
  · exact h
  · split
    · split
      · exact h.blockLocal
      · exact h
    · exact h.blockPeer
    · exact State.memOk.askHost h
    · exact State.memOk.heardAll h

theorem BlockRes.memOk.of_eq {r r' : BlockRes} (h : r.memOk) (e : r = r') : r'.memOk := e ▸ h

theorem State.memOk.finishOp {s : State} {o : EngOp} {offset code base : Nat} {e : OpEnd} (h : s.memOk) :
    (Machine.finishOp s o offset code e base).memOk := by
  unfold Machine.finishOp
  have hb := (h.dropLocks (op := o.id)).blockWrite (o := o) (status := statusOf offset code) (credit := code < 2) (base := base)
  split <;> rename_i e
  · exact State.memOk.endOp (hb.of_eq e)
  · exact State.memOk.endOp (hb.of_eq e)
  · exact hb.of_eq e

theorem State.memOk.poisonRecord {s : State} {o : EngOp} (h : s.memOk) : (Machine.poisonRecord s o).memOk := by
  dsimp only [Machine.poisonRecord]
  split
  · split
    · exact h.errRecord
    · exact h
  · exact h

theorem State.memOk.execEngineOpComplete {op : Nat} {s : State} (h : s.memOk) : nextOk (Machine.execEngineOpComplete op s) := by
  dsimp only [Machine.execEngineOpComplete]
  split
  · exact h
  · split
    · exact h
    · split <;> exact h.poisonRecord.finishOp

theorem State.memOk.loseRest {s : State} {o : EngOp} (h : s.memOk) : (Machine.loseRest s o).memOk := by
  dsimp only [Machine.loseRest]
  refine h.foldl fun h => ?_
  split
  · split
    · split
      · exact h
      · exact .dirtyOp (.keep (h.writeBytes _ _ _))
    · exact h
  · exact h.foldl fun h => ite_keeps h (.dirtyOp (.keep (h.writeBytes _ _ _)))

theorem State.memOk.execEngineOpAbort {op : Nat} {s : State} (h : s.memOk) : nextOk (Machine.execEngineOpAbort op s) := by
  dsimp only [Machine.execEngineOpAbort]
  split
  · exact h
  · split
    · exact h
    · split
      · exact h
      · split <;> exact .finishOp (.poisonRecord (ite_keeps h.loseRest h))

/-! ### Pre-emption and restoration (Machine/Save.lean) -/

theorem Wave.memOk.saveWave {s : State} {w : Wave} (hw : w.memOk) : (Machine.saveWave s w).memOk := by
  dsimp only [Machine.saveWave]
  split <;> exact hw

theorem State.memOk.saveTeam {s : State} {team : Nat} (h : s.memOk) : (Machine.saveTeam s team).memOk := by
  unfold Machine.saveTeam
  extract_lets t c idem s₁ s₂
  have h₁ : s₁.memOk := by
    refine ⟨h.hbm, h.cxl, h.host, List.forall_mem_map.2 fun x hx => ?_, List.forall_mem_map.2 fun w hw => ?_, h.ctxs⟩
    · exact ite_keeps (P := Team.memOk) (h.teams x hx) (h.teams x hx)
    · exact ite_keeps (P := Wave.memOk) (h.waves w hw).saveWave (h.waves w hw)
  have h₂ : s₂.memOk := h₁.onCtx Ctx.memOk.keep
  exact h₂.foldl State.memOk.settleAll

theorem Wave.memOk.dropPark {w : Wave} (hw : w.memOk) : (Machine.dropPark w).memOk :=
  hw

theorem State.memOk.deliverOne {s : State} {id : Nat} (h : s.memOk) : (Machine.deliverOne s id).memOk := by
  dsimp only [Machine.deliverOne]
  split
  · exact h
  · rename_i e
    split
    · exact h
    · split
      · exact h.killWave
      · split
        · exact .takeTrap (.onCtx (h.putBack (.dropPark (h.findWave.of_eq e))) fun hc => hc)
        · exact h

theorem State.memOk.deliverHeld {s : State} {t : Team} (h : s.memOk) : (Machine.deliverHeld s t).memOk :=
  h.foldl fun h => h.deliverOne

theorem State.memOk.releaseAnnex {s : State} {ctx : Nat} (h : s.memOk) : (Machine.releaseAnnex s ctx).memOk := by
  dsimp only [Machine.releaseAnnex]
  split
  · exact h
  · exact h.onCtx fun hc => hc

theorem State.memOk.stopIssue {s : State} {t : Team} (h : s.memOk) : (Machine.stopIssue s t).memOk := by
  dsimp only [Machine.stopIssue]
  split
  · exact h
  · exact h.mapWaves (fun hw => ite_keeps hw hw)

theorem State.memOk.saveTeams {s : State} {ctx : Nat} {evac : Bool} (h : s.memOk) : (Machine.saveTeams s ctx evac).memOk := by
  unfold Machine.saveTeams
  extract_lets alone s₀ s₁ go ts s₂ last svc s₃
  have hgo {a : State} {l : List Team} (ha : a.memOk) : (go a l).memOk := ite_keeps (ha.foldl State.memOk.saveTeam) ha
  have h₁ : s₁.memOk := (h.foldl State.memOk.stopIssue).foldl State.memOk.deliverHeld
  have h₂ : s₂.memOk := h₁.foldl hgo
  have h₃ : s₃.memOk := ite_keeps (hgo (h₂.foldl State.memOk.stopIssue)) h₂
  exact h₃.releaseAnnex

theorem Wave.memOk.backAtEntry {k : Kernel} {w : Wave} {free : Nat} (hw : w.memOk) : (Machine.backAtEntry k w free).memOk :=
  hw

theorem Wave.memOk.backAtFlash {s : State} {c : Ctx} {k : Kernel} {w : Wave} {f : Flash} {free : Nat} (hw : w.memOk) :
    (Machine.backAtFlash s c k w f free).memOk :=
  .keep (.foldl hw.keep fun hw₁ => hw₁.setS)

theorem Wave.memOk.backWave {s : State} {c : Ctx} {k : Kernel} {w : Wave} {free : Nat} (hw : w.memOk) :
    (Machine.backWave s c k w free).memOk := by
  unfold Machine.backWave
  split
  · exact hw
  · extract_lets x
    have hx : x.memOk := by
      dsimp only [x]
      split
      · exact hw.backAtFlash
      · exact hw.backAtEntry
    exact ite_keeps (P := Wave.memOk) hx hx

theorem Wave.memOk.idemPoint {region : Option W64} {w : Wave} (hw : w.memOk) : (Machine.idemPoint region w).memOk := by
  dsimp only [Machine.idemPoint]
  split <;> exact hw

theorem State.memOk.killSaved {s : State} {team : Nat} (h : s.memOk) : (Machine.killSaved s team).memOk := by
  dsimp only [Machine.killSaved]
  refine h.foldl fun h => ?_
  split
  · split
    · exact h.killWave
    · exact h
  · exact h

/-- A restored team has the shelf that was saved, or an empty one. -/
theorem State.memOk.restoreTeam {s₀ : State} {team core : Nat} (h : s₀.memOk) : (Machine.restoreTeam s₀ team core).memOk := by
  unfold Machine.restoreTeam
  extract_lets s t s₁ c slots order s₂ s₃
  have hs : s.memOk := h.killSaved
  have h₁ : s₁.memOk := hs.allocAnnex.moveCursor
  have h₂ : s₂.memOk := by
    refine h₁.foldl fun ha => ?_
    split
    · split
      · rename_i e
        have hw := ha.findWave.of_eq e
        exact (ha.putBack (Wave.memOk.backWave (ite_keeps hw hw.idemPoint)).keep).keep
      · exact ha
    · exact ha
  have h₃ : s₃.memOk := h₂.onTeam fun hx => ite_keeps (P := fun m => Memory.wf m = true) hx rfl
  exact (h₃.onCtx Ctx.memOk.keep).barCheckAll

theorem State.memOk.restoreAll {cluster : Nat} {l : List Team} {s : State} (h : s.memOk) :
    onSome State.memOk (Machine.restoreAll cluster l s) := by
  induction l generalizing s with
  | nil => exact h
  | cons t r ih =>
    unfold Machine.restoreAll
    split
    · exact ih h.restoreTeam
    · trivial

theorem State.memOk.restoreGroup {s : State} {t : Team} {core : Nat} (h : s.memOk) : onSome State.memOk (Machine.restoreGroup s t core) :=
  h.restoreTeam.restoreAll

theorem State.memOk.execPreemption {ctx : Nat} {s : State} (h : s.memOk) : nextOk (Machine.execPreemption ctx s) := by
  dsimp only [Machine.execPreemption]
  split
  · exact h
  · split
    · exact h.saveTeams
    · split
      · split
        · exact h.saveTeams
        · exact h
      · exact h

theorem State.memOk.evacuate {s : State} {ctx : Nat} (h : s.memOk) : (Machine.evacuate s ctx).memOk := by
  dsimp only [Machine.evacuate]
  split
  · exact h
  · split
    · exact h.saveTeams
    · exact h.flogWrite.haltCtx.haltCheck

theorem State.memOk.restoreService {s : State} {ctx : Nat} (h : s.memOk) : (Machine.restoreService s ctx).memOk := by
  dsimp only [Machine.restoreService]
  split
  · split
    · exact h.restoreTeam
    · exact h
  · exact h

theorem State.memOk.bringBack {s : State} {t : Team} {core : Nat} (h : s.memOk) : (Machine.bringBack s t core).memOk := by
  dsimp only [Machine.bringBack]
  split
  · exact h.haltCtx.haltCheck
  · split
    · exact getD_keeps h.restoreGroup h
    · exact .restoreService (getD_keeps h.restoreGroup h)

theorem State.memOk.execTeamRestore {team core : Nat} {s : State} (h : s.memOk) : nextOk (Machine.execTeamRestore team core s) := by
  dsimp only [Machine.execTeamRestore]
  split
  · split
    · split
      · exact h.bringBack
      · exact h
    · exact h
  · exact h

/-! ### Contexts and launches (Machine/Launch.lean) -/

theorem State.memOk.overrun {s : State} {q : Nat} (h : s.memOk) : (Machine.overrun s q).memOk :=
  h.modQueue

theorem State.memOk.execLqDoorbell {queue : Nat} {value : W32} {s : State} (h : s.memOk) :
    nextOk (Machine.execLqDoorbell queue value s) := by
  dsimp only [Machine.execLqDoorbell]
  split
  · exact h
  · split
    · exact h.modQueue.overrun
    · exact h.modQueue

theorem ctxOf_memOk {id : Nat} {desc : W64} {l : List Byte} : (ctxOf id desc l).memOk := by
  simp [Ctx.memOk, ctxOf, noCtx]

/-- A context held for a launch has the annex that it had, or empty ones. -/
theorem State.memOk.holdCtx {s : State} {c : Ctx} (h : s.memOk) (hc : c.memOk) : (Machine.holdCtx s c).1.memOk := by
  unfold Machine.holdCtx
  split
  · rename_i x e
    have hx : x.memOk := h.ctxs x (List.mem_of_find?_eq_some e)
    split
    · exact h
    · exact h.onCtx fun _ => hx.keep
  · exact (h.appendCtxs (List.forall_mem_singleton.2 hc.keep)).keep

theorem State.memOk.askPeer {s : State} {queue asid : Nat} {x : W64 × Nat} (h : s.memOk) : (Machine.askPeer s queue asid x).memOk := by
  dsimp only [Machine.askPeer]
  split
  · exact h
  · exact h.sendAll

theorem State.memOk.depAsk {s : State} {queue : Nat} {c : Ctx} {r : DepRead} (h : s.memOk) : (Machine.depAsk s queue c r).memOk :=
  h.askAll.foldl fun h => h.askPeer

theorem State.memOk.refuseLaunch {s : State} {queue code : Nat} (h : s.memOk) : (Machine.refuseLaunch s queue code).memOk :=
  h.dropDeps.modQueue

theorem State.memOk.depRefused {s : State} {queue : Nat} (h : s.memOk) : (Machine.depRefused s queue).memOk := by
  dsimp only [Machine.depRefused]
  split
  · exact .modQueue (.dropDeps h.keep)
  · exact h.refuseLaunch

theorem State.memOk.depGot {s : State} {queue : Nat} {a : W64} {x : Nat} (h : s.memOk) : (Machine.depGot s queue a x).memOk :=
  h.modQueue

/-- What the reading of a packet leaves has its memories in canonical form. -/
def LaunchRead.memOk : LaunchRead → Prop
  | .refused s _ | .wait s | .taken s _ _ => s.memOk

theorem LaunchRead.memOk.of_eq {r r' : LaunchRead} (h : r.memOk) (e : r = r') : r'.memOk := e ▸ h

theorem State.memOk.depServe {s s₀ : State} {queue : Nat} {c : Ctx} {g : Grid} {l : List Byte} (h : s.memOk) (h₀ : s₀.memOk) :
    (Machine.depServe s queue c g l s₀).memOk := by
  unfold Machine.depServe
  dsimp only
  split
  · exact State.memOk.foldl h₀ fun h => h.heardAll
  · split
    · exact h₀.depAsk
    · split
      · exact h₀.depAsk
      · exact h.keep

theorem State.memOk.servePacket {s : State} {q : Nat} {l : List Byte} {hostRefuses : Bool} (h : s.memOk) :
    (Machine.servePacket s q l hostRefuses).memOk := by
  unfold Machine.servePacket
  dsimp only
  split
  · exact h
  · split
    · exact h
    · split
      · exact h
      · split
        · exact h
        · split
          · exact h
          · exact (h.holdCtx ctxOf_memOk).depServe h

theorem State.memOk.execLaunchPacketRead {p : PacketRead} {s : State} (h : s.memOk) : nextOk (Machine.execLaunchPacketRead p s) := by
  unfold Machine.execLaunchPacketRead
  dsimp only
  split
  · exact h
  · split
    · exact h.overrun
    · split <;> rename_i e
      · exact State.memOk.refuseLaunch (h.servePacket.of_eq e)
      · exact h.servePacket.of_eq e
      · exact State.memOk.modQueue (h.servePacket.of_eq e)

theorem State.memOk.depAgain {s : State} {queue : Nat} {c : Ctx} {deps : List (W64 × W64)} (h : s.memOk) :
    (Machine.depAgain s queue c deps).memOk :=
  .depAsk (h.foldl fun h => h.heardAll)

theorem State.memOk.execLaunchPending {queue : Nat} {s : State} (h : s.memOk) : nextOk (Machine.execLaunchPending queue s) := by
  dsimp only [Machine.execLaunchPending]
  split
  · exact h
  · split
    · exact h.dropHeld
    · split
      · exact .keep h.dropHeld
      · exact h.depAgain

theorem State.memOk.noteLatency {s : State} {part since : Nat} (h : s.memOk) : (Machine.noteLatency s part since).memOk :=
  h

theorem State.memOk.placeService {s : State} {ctx : Nat} (h : s.memOk) : (Machine.placeService s ctx).memOk := by
  dsimp only [Machine.placeService]
  split
  · exact h
  · split
    · exact h.askAll
    · split
      · exact h.heardAll
      · split
        · exact h
        · exact h.placeTeam.onCtx fun hc => hc

theorem State.memOk.placeServices {s : State} (h : s.memOk) : (Machine.placeServices s).memOk :=
  h.foldl fun h => h.placeService

theorem State.memOk.gridRoot {s : State} {g : Grid} (h : s.memOk) : onSome (fun x => x.1.memOk) (Machine.gridRoot s g) := by
  dsimp only [Machine.gridRoot]
  split
  · exact onSome_map fun _ => h
  · exact onSome_map fun _ => .keep h.openScope

theorem State.memOk.placeGrid {s : State} {g : Grid} {core : Nat} (h : s.memOk) : (Machine.placeGrid s g core).memOk := by
  dsimp only [Machine.placeGrid]
  split
  · exact h
  · rename_i e
    have h₁ := h.gridRoot.of_eq e
    exact .placeService (ite_keeps (.keep h₁.placeTeam) (.noteLatency (.keep h₁.placeTeam)))

theorem State.memOk.placeTask {s : State} {t : Task} {core : Nat} (h : s.memOk) : (Machine.placeTask s t core).memOk :=
  .noteLatency (.placeTeam h.keep)

theorem State.memOk.placeNext {s : State} (h : s.memOk) : (Machine.placeNext s).memOk := by
  dsimp only [Machine.placeNext]
  split
  · exact h.placeTask
  · exact h.placeGrid
  · exact h.bringBack
  · exact h

theorem State.memOk.execTeamPlacement {s : State} (h : s.memOk) : nextOk (Machine.execTeamPlacement s) := by
  dsimp only [Machine.execTeamPlacement]
  split
  · exact h
  · exact h.placeServices.placeNext

theorem State.memOk.execGridEnd {grid : Nat} {s : State} (h : s.memOk) : nextOk (Machine.execGridEnd grid s) := by
  dsimp only [Machine.execGridEnd]
  split
  · exact h
  · split
    · exact .freeAll (.keep (ite_keeps h h.bumpFor))
    · exact h

theorem State.memOk.execContextEndInterrupt {ctx : Nat} {s : State} (h : s.memOk) : nextOk (Machine.execContextEndInterrupt ctx s) := by
  dsimp only [Machine.execContextEndInterrupt]
  split
  · exact h.setStatus.raiseVec
  · exact h

theorem State.memOk.execCtxEnd {value : W64} {s : State} (h : s.memOk) : nextOk (Machine.execCtxEnd value s) := by
  dsimp only [Machine.execCtxEnd]
  split
  · exact h
  · split
    · exact .haltCheck (.haltCtx h.keep)
    · split
      · exact .killWave h.keep
      · exact h

/-! ### Events of the fabric (Machine/EvFabric.lean) -/

theorem State.memOk.putSpaceIn {s : State} {x : SeqIn} (h : s.memOk) : (Machine.putSpaceIn s x).memOk :=
  h

theorem State.memOk.sendReply {s : State} {r : OutReply} (h : s.memOk) : (Machine.sendReply s r).memOk :=
  h

theorem State.memOk.countStale {s : State} (h : s.memOk) : (Machine.countStale s).memOk :=
  h

theorem State.memOk.serve {s : State} {q : Req} {act : State → OutReply → Option Served} (h : s.memOk)
    (hact : ∀ {r}, onSome (fun a : Served => a.1.memOk) (act s r)) : (Machine.serve s q act).memOk := by
  unfold Machine.serve
  dsimp only
  split
  · exact h
  · split
    · exact h.countStale
    · split
      · exact h
      · exact h.sendReply
      · split
        · exact h.sendReply
        · exact h
      · split
        · rename_i s₁ _ _ e
          have h₁ : s₁.memOk := (ite_keeps (P := onSome fun a : Served => a.1.memOk) (by exact h) hact).of_eq e
          exact State.memOk.sendReply (ite_keeps h₁.putSpaceIn h₁)
        · exact h

theorem State.memOk.servePacketOf {kind : Nat} {pkt : Packet} {s : State} {act : Req → State → OutReply → Option Served} (h : s.memOk)
    (hact : ∀ {q r}, onSome (fun a : Served => a.1.memOk) (act q s r)) : (Machine.servePacketOf kind pkt s act).memOk :=
  ite_keeps (h.serve hact) h

theorem State.memOk.serveRefused {s : State} {q : Req} {k : AccKind} {as_ : List W64} {r : OutReply} (h : s.memOk) :
    (Machine.serveRefused s q k as_ r).1.memOk := by
  dsimp only [Machine.serveRefused]
  split
  · exact h.foldl fun h => h.heardAll.askAll
  · exact h

theorem State.memOk.writeIn {s : State} {c : Ctx} {bs : List (Nat × Byte)} {ps : List (Space × Nat)} (h : s.memOk) :
    (Machine.writeIn s c bs ps).memOk := by
  dsimp only [Machine.writeIn]
  split
  · exact .dirtyAt (h.foldl fun h => h.writeBytes _ _ _)
  · exact h.foldl fun h => h.writeBytes _ _ _

theorem State.memOk.serveWrite {q : Req} {s : State} {r : OutReply} (h : s.memOk) :
    onSome (fun x => x.1.memOk) (Machine.serveWrite q s r) := by
  dsimp only [Machine.serveWrite]
  split
  · split
    · exact h.serveRefused
    · exact h
  · split
    · exact .keep (.foldl (h.writeIn.foldl fun h => h.clearPoison _ _) fun h => h.addPoison _ _)
    · exact .keep h.writeIn

theorem State.memOk.execFabricWritePacket {pkt : Packet} {s : State} (h : s.memOk) : nextOk (Machine.execFabricWritePacket pkt s) :=
  (h.servePacketOf h.serveWrite).retryDues

theorem State.memOk.serveRead {q : Req} {s : State} {r : OutReply} (h : s.memOk) :
    onSome (fun x => x.1.memOk) (Machine.serveRead q s r) := by
  dsimp only [Machine.serveRead]
  split
  · exact h
  · split
    · exact h.serveRefused
    · split
      · exact trivial
      · exact h

theorem State.memOk.execFabricReadPacket {pkt : Packet} {s : State} (h : s.memOk) : nextOk (Machine.execFabricReadPacket pkt s) :=
  h.servePacketOf h.serveRead

theorem State.memOk.atomRec {q : Req} {c : Ctx} {x : State × List W64} {z : PacketRec × Space × Nat} (hf : x.1.memOk) :
    (Machine.atomRec q c x z).1.memOk := by
  dsimp only [Machine.atomRec]
  split
  · exact hf
  · dsimp only
    exact (hf.writeBytes _ _ _).dirtyAt

theorem State.memOk.serveAtomic {q : Req} {s : State} {r : OutReply} (h : s.memOk) :
    onSome (fun x => x.1.memOk) (Machine.serveAtomic q s r) := by
  dsimp only [Machine.serveAtomic]
  split
  · exact h
  · split
    · exact h.serveRefused
    · split
      · exact trivial
      · exact h.foldlFst fun h => h.atomRec

theorem State.memOk.execFabricAtomicPacket {pkt : Packet} {s : State} (h : s.memOk) : nextOk (Machine.execFabricAtomicPacket pkt s) :=
  h.servePacketOf h.serveAtomic

theorem State.memOk.dropOut {s : State} {id : Nat} (h : s.memOk) : (Machine.dropOut s id).memOk :=
  h

theorem State.memOk.trywGot {s : State} {id : Nat} {x : W64} {pois : Bool} (h : s.memOk) : (Machine.trywGot s id x pois).memOk := by
  dsimp only [Machine.trywGot]
  split
  · exact h
  · rename_i e
    split
    · split
      · exact h.killWave
      · split
        · exact h.trywReturn (h.findWave.of_eq e)
        · exact Out.memOk.finish (h.trywSeen (h.findWave.of_eq e))
    · exact h

theorem State.memOk.readerGot {s : State} {id : Nat} {p : OutPkt} {got : Option (List W64)} {fail : Option Nat} (h : s.memOk) :
    (Machine.readerGot s id p got fail).memOk := by
  dsimp only [Machine.readerGot]
  refine h.onWave fun hw => ?_
  split
  · split <;> exact hw
  · exact hw

theorem State.memOk.engResend {s : State} {op : EngOp} {p : OutPkt} (h : s.memOk) : (Machine.engResend s op p).memOk := by
  dsimp only [Machine.engResend]
  split
  · exact h
  · exact .sendFetches h.keep

theorem State.memOk.engResume {s : State} {op : Nat} {failed : Bool} (h : s.memOk) : (Machine.engResume s op failed).memOk := by
  dsimp only [Machine.engResume]
  split
  · exact h
  · split
    · exact h
    · split
      · split
        · exact h.foldl fun h => h
        · exact .modOp (h.foldl fun h => h)
      · split
        · exact h.foldl fun h => h.engResend
        · exact .modOp (h.foldl fun h => h.engResend)

theorem State.memOk.packetDone {s : State} {p : OutPkt} {rs : List W64} {pois : List Nat} (h : s.memOk) :
    (Machine.packetDone s p rs pois).memOk := by
  dsimp only [Machine.packetDone]
  split
  · exact .settleAll (.modSlip (ite_keeps h.dropOut.dirtyFar h.dropOut))
  · exact h.dropOut.trywGot
  · split
    · exact h.dropOut.modOp.engResume
    · split
      · exact h.dropOut.modOp
      · exact h.dropOut
  · split
    · exact h.dropOut.lostIncrement
    · exact h.dropOut
  · exact h.dropOut.foldl fun h => h.dirtyPeer
  · split
    · exact h.dropOut.depRefused
    · exact h.dropOut.depGot
  · split
    · exact h.dropOut.readerGot
    · exact h.dropOut.readerGot.onWave fun hw => hw
  · exact h.dropOut

theorem State.memOk.packetFails {s : State} {cause : Nat} {p : OutPkt} (h : s.memOk) : (Machine.packetFails s cause p).memOk := by
  dsimp only [Machine.packetFails]
  split
  · exact h.dropOut.modSlip.settleAll
  · split
    · rename_i e
      exact h.dropOut.trywReturn (h.dropOut.findWave.of_eq e)
    · exact h.dropOut
  · split
    · exact h.dropOut.modOp.engResume
    · exact h.dropOut.modOp
  · exact h.dropOut.lostIncrement
  · exact h.dropOut.depRefused
  · exact h.dropOut.readerGot
  · exact h.dropOut
  · exact h.dropOut

theorem State.memOk.failFrom {s : State} {cause : Nat} {p : OutPkt} (h : s.memOk) : (Machine.failFrom s cause p).memOk := by
  dsimp only [Machine.failFrom]
  split
  · exact .putSpaceOut (h.foldl fun h => h.packetFails)
  · exact h.packetFails

theorem State.memOk.execPstsResync {r : Resync} {s : State} (h : s.memOk) : nextOk (Machine.execPstsResync r s) := by
  dsimp only [Machine.execPstsResync]
  split
  · split
    · exact h.putSpaceIn
    · exact h
  · split
    · exact h.putSpaceOut
    · exact h

theorem State.memOk.hears {s : State} {ans : Answer} {kinds : List Nat} {f : Ans → State} (h : s.memOk) (hf : ∀ {x : Ans}, (f x).memOk) :
    (Machine.hears s ans kinds f).memOk := by
  dsimp only [Machine.hears]
  split
  · exact h
  · split
    · exact h.countStale
    · split
      · exact hf.retryDues
      · exact h

theorem State.memOk.execFabricAck {ans : Answer} {s : State} (h : s.memOk) : nextOk (Machine.execFabricAck ans s) :=
  h.hears (h.foldl fun h => ite_keeps h.packetDone h)

theorem State.memOk.requeue {s : State} {ids : List Nat} (h : s.memOk) : (Machine.requeue s ids).memOk := by
  dsimp only [Machine.requeue]
  refine .foldl h.keep fun h => ?_
  split
  · split
    · split
      · exact h.engResend
      · exact h
    · exact h
  · exact h

theorem State.memOk.retransmit {s : State} {p : OutPkt} (h : s.memOk) : (Machine.retransmit s p).memOk := by
  dsimp only [Machine.retransmit]
  split <;> exact h.requeue

theorem State.memOk.naked {s : State} {a : Ans} (h : s.memOk) : (Machine.naked s a).memOk := by
  dsimp only [Machine.naked]
  split
  · split
    · exact h.failFrom
    · exact h
  · split
    · exact h.requeue
    · split
      · exact h.retransmit
      · exact h

theorem State.memOk.execFabricNak {ans : Answer} {s : State} (h : s.memOk) : nextOk (Machine.execFabricNak ans s) :=
  h.hears h.naked

theorem State.memOk.execFabricResponse {ans : Answer} {s : State} (h : s.memOk) : nextOk (Machine.execFabricResponse ans s) :=
  h.hears fun {a} => by
    split
    · exact ite_keeps h (ite_keeps h.packetDone h.naked)
    · exact h

theorem State.memOk.execFabricRtoExpiry {pkt : Nat} {s : State} (h : s.memOk) : nextOk (Machine.execFabricRtoExpiry pkt s) := by
  dsimp only [Machine.execFabricRtoExpiry]
  split
  · split
    · exact h.retransmit
    · exact h
  · exact h

theorem State.memOk.execFabricTmoExpiry {pkt : Nat} {s : State} (h : s.memOk) : nextOk (Machine.execFabricTmoExpiry pkt s) := by
  dsimp only [Machine.execFabricTmoExpiry]
  split
  · split
    · split
      · exact h.failFrom.retryDues
      · exact h
    · exact h
  · exact h

theorem State.memOk.execFabCtlEn {s : State} (h : s.memOk) : nextOk (Machine.execFabCtlEn s) := by
  dsimp only [Machine.execFabCtlEn]
  split <;> exact h

theorem State.memOk.failAll {s : State} (h : s.memOk) : (Machine.failAll s).memOk :=
  .keep (h.foldl fun h => h.packetFails)

theorem State.memOk.execFabricJoin {id : BitVec 9} {inc : BitVec 16} {s : State} (h : s.memOk) :
    nextOk (Machine.execFabricJoin id inc s) := by
  dsimp only [Machine.execFabricJoin]
  split
  · exact .keep (ite_keeps h.failAll h)
  · exact h

theorem State.memOk.failPeer {s : State} {peer cause : Nat} {old : BitVec 16} (h : s.memOk) : (Machine.failPeer s peer cause old).memOk :=
  .keep (h.foldl fun h => h.packetFails)

theorem State.memOk.resetSpaces {s : State} {peer : Nat} (h : s.memOk) : (Machine.resetSpaces s peer).memOk :=
  h

theorem State.memOk.resyncPeer {s : State} {peer : Nat} {sps : List SeqSpace} (h : s.memOk) : (Machine.resyncPeer s peer sps).memOk :=
  h.foldl fun h => ite_keeps h.putSpaceOut h

theorem State.memOk.execFabricPeerUpdate {peer : BitVec 9} {st : BitVec 2} {inc : BitVec 16} {s : State} (h : s.memOk) :
    nextOk (Machine.execFabricPeerUpdate peer st inc s) := by
  dsimp only [Machine.execFabricPeerUpdate]
  split
  · exact .resetSpaces (.failPeer h.keep)
  · split
    · exact .resyncPeer (.failPeer h.keep)
    · exact h

theorem State.memOk.portSent {s : State} {plane cls : Nat} {x : Outgoing} (h : s.memOk) : (Machine.portSent s plane cls x).memOk :=
  h

theorem State.memOk.leaveOn {s₀ : State} {plane : Nat} {x : Outgoing} (h : s₀.memOk) : (Machine.leaveOn s₀ plane x).memOk := by
  dsimp only [Machine.leaveOn]
  split <;> exact .keep h.portSent

theorem State.memOk.execFabricPacketSend {plane : Nat} {s : State} (h : s.memOk) : nextOk (Machine.execFabricPacketSend plane s) := by
  dsimp only [Machine.execFabricPacketSend]
  split
  · split
    · exact h.leaveOn
    · exact h
  · exact h

theorem State.memOk.execFabricPlaneUp {plane : Nat} {s : State} (h : s.memOk) : nextOk (Machine.execFabricPlaneUp plane s) := by
  dsimp only [Machine.execFabricPlaneUp]
  split <;> exact h

theorem State.memOk.planeGone {s : State} {plane : Nat} (h : s.memOk) : (Machine.planeGone s plane).memOk :=
  h

theorem State.memOk.execPlaneDown {plane : Nat} {s : State} (h : s.memOk) : nextOk (Machine.execPlaneDown plane s) :=
  h.planeGone

theorem State.memOk.execFlitLinkRetry {f : FlitNak} {s : State} (h : s.memOk) : nextOk (Machine.execFlitLinkRetry f s) := by
  dsimp only [Machine.execFlitLinkRetry]
  split
  · exact h
  · split
    · exact h.planeGone
    · exact h

/-! ### Reliability, security and power (Machine/EvRel.lean) -/

theorem State.memOk.modRel {s : State} {f : Rel → Rel} (h : s.memOk) : (Machine.modRel s f).memOk :=
  h

theorem State.memOk.arrayRecord {s : State} {e : ArrayError} {cls : Nat} (h : s.memOk) : (Machine.arrayRecord s e cls).memOk :=
  h.rowRecord

theorem State.memOk.spoilLine {s : State} {core asid : Nat} {a : W64} {n : Nat} (h : s.memOk) :
    (Machine.spoilLine s core asid a n).memOk :=
  h

theorem State.memOk.spoilRegs {s : State} {id r : Nat} {m : Mask} (h : s.memOk) : (Machine.spoilRegs s id r m).memOk := by
  dsimp only [Machine.spoilRegs]
  split
  · exact h
  · rename_i e
    exact .putBack h.keep (.poisonReg (.putVRegs (h.findWave.of_eq e)))

theorem State.memOk.dropEntry {s : State} {x : ArraySite} (h : s.memOk) : (Machine.dropEntry s x).memOk := by
  dsimp only [Machine.dropEntry]
  split
  · exact h
  · exact h.dropAts
  · exact h
  · exact h

theorem State.memOk.lockDamaged {s : State} {die index : Nat} {ownerReadable : Bool} (h : s.memOk) :
    (Machine.lockDamaged s die index ownerReadable).memOk := by
  dsimp only [Machine.lockDamaged]
  split <;> exact h

theorem State.memOk.execArrayUncorrectableError {err : ArrayError} {s : State} (h : s.memOk) :
    nextOk (Machine.execArrayUncorrectableError err s) := by
  dsimp only [Machine.execArrayUncorrectableError]
  split
  · exact (h.addPoison _ _).arrayRecord
  · exact h.spoilRegs.arrayRecord
  · exact h.spoilLine
  · exact h.dropEntry.arrayRecord
  · exact h.dropEntry.arrayRecord
  · exact h.dropEntry.arrayRecord
  · exact h.lockDamaged.arrayRecord

theorem State.memOk.execArrayCorrectedError {err : ArrayError} {s : State} (h : s.memOk) :
    nextOk (Machine.execArrayCorrectedError err s) := by
  dsimp only [Machine.execArrayCorrectedError]
  split
  · exact h.spoilLine
  · exact h.dropEntry.arrayRecord

theorem State.memOk.markBank {s : State} {b : Nat} {f : Bank → Bank} (h : s.memOk) : (Machine.markBank s b f).memOk := by
  dsimp only [Machine.markBank]
  split
  · exact h.putBank
  · exact h

theorem State.memOk.retireUnit {s : State} {u : FailUnit} (h : s.memOk) : (Machine.retireUnit s u).memOk := by
  dsimp only [Machine.retireUnit]
  split <;> exact h.modRel

theorem State.memOk.evacuateCores {s : State} {p : Nat → Bool} (h : s.memOk) : (Machine.evacuateCores s p).memOk :=
  h.foldl fun h => h.evacuate

theorem State.memOk.testDone {s : State} {u : FailUnit} {array : Nat} {o : TestOutcome} (h : s.memOk) :
    (Machine.testDone s u array o).memOk := by
  dsimp only [Machine.testDone]
  split
  · exact h.markBank
  · exact h.modRel.markBank
  · exact h.markBank.retireUnit.raiseVec

theorem State.memOk.holdCore {s : State} {c : Nat} (h : s.memOk) : (Machine.holdCore s c).memOk :=
  h.modRel

theorem State.memOk.testOver {s : State} {u : FailUnit} {row : Nat} {core : Option Nat} (h : s.memOk) :
    (Machine.testOver s u row core).memOk :=
  h.modRel

theorem State.memOk.execSelfTestComplete {unit : FailUnit} {found : TestReport} {s : State} (h : s.memOk) :
    nextOk (Machine.execSelfTestComplete unit found s) := by
  dsimp only [Machine.execSelfTestComplete]
  split
  · exact h
  · split
    · exact h.testDone.testOver
    · split
      · exact h.holdCore.evacuateCores
      · exact h.holdCore.evacuateCores.testDone.testOver

theorem State.memOk.execRangeLockEntryError {die index : Nat} {ownerReadable : Bool} {s : State} (h : s.memOk) :
    nextOk (Machine.execRangeLockEntryError die index ownerReadable s) := by
  dsimp only [Machine.execRangeLockEntryError]
  split
  · exact h
  · exact h.lockDamaged.rowRecord

theorem State.memOk.execErrStatusClear {bank : Nat} {s : State} (h : s.memOk) : nextOk (Machine.execErrStatusClear bank s) :=
  h.modRel

theorem State.memOk.execInfieldTestDue {cluster : Nat} {s : State} (h : s.memOk) : nextOk (Machine.execInfieldTestDue cluster s) := by
  dsimp only [Machine.execInfieldTestDue]
  split
  · exact h
  · exact .evacuateCores (ite_keeps h h.modRel)

theorem State.memOk.execInfieldTestEnd {cluster : Nat} {failing : List (FailUnit × Nat × TestOutcome)} {s : State} (h : s.memOk) :
    nextOk (Machine.execInfieldTestEnd cluster failing s) := by
  dsimp only [Machine.execInfieldTestEnd]
  split
  · exact h
  · exact h.modRel.foldl fun h => h.testDone

theorem State.memOk.fireAt {n : Nat} {st : W64} {ph : W32} {s : State} {w : Wave} (h : s.memOk) (hw : w.memOk) :
    (Machine.fireAt n st ph s w).memOk := by
  unfold Machine.fireAt
  dsimp only
  split
  · exact h.putBack hw.setSt.keep
  · split
    · exact (Out.memOk.finish (o := .done s) h).onWave Wave.memOk.keep
    · exact h.putBack hw.setSt.keep
  · exact h

theorem State.memOk.firePhase {s : State} {team bar : Nat} (h : s.memOk) : (Machine.firePhase s team bar).memOk := by
  unfold Machine.firePhase
  split
  · exact h
  · split
    · exact List.foldlRecOn _ _ (h.onTeam Team.memOk.keep) fun _ ha w hw => State.memOk.fireAt ha (h.waves w (List.mem_filter.1 hw).1)
    · exact h

theorem State.memOk.execWatchdogFire {team bar : Nat} {s : State} (h : s.memOk) : nextOk (Machine.execWatchdogFire team bar s) :=
  h.firePhase

theorem State.memOk.fireDue {s : State} (h : s.memOk) : (Machine.fireDue s).memOk :=
  h.foldl fun h => h.foldl fun h => h.firePhase

theorem State.memOk.swapMatrix {s : State} (h : s.memOk) : (Machine.swapMatrix s).memOk :=
  h.modRel

theorem State.memOk.rollBack {s : State} (h : s.memOk) : (Machine.rollBack s).memOk :=
  h.modRel

theorem State.memOk.execXbarCommitPrepare {value : W64} {s : State} (h : s.memOk) : nextOk (Machine.execXbarCommitPrepare value s) :=
  h.modRel

theorem State.memOk.execXbarSwap {s : State} (h : s.memOk) : nextOk (Machine.execXbarSwap s) := by
  dsimp only [Machine.execXbarSwap]
  split
  · exact h.swapMatrix
  · exact h.modRel

theorem State.memOk.execMpWatchdogReset {s : State} (h : s.memOk) : nextOk (Machine.execMpWatchdogReset s) := by
  dsimp only [Machine.execMpWatchdogReset]
  split
  · split
    · exact h.swapMatrix
    · exact h.rollBack.modRel
  · exact h.rollBack

theorem State.memOk.latOne {s : State} {p : Nat} (h : s.memOk) : (Machine.latOne s p).memOk :=
  h.modRel.foldl fun h => ite_keeps h.raiseVec h

theorem State.memOk.closeWindow {s : State} {win : Nat} (h : s.memOk) : (Machine.closeWindow s win).memOk :=
  .keep (.modRel (h.foldl fun h => h.latOne))

theorem State.memOk.closeWindows {s : State} (h : s.memOk) : (Machine.closeWindows s).memOk := by
  dsimp only [Machine.closeWindows]
  split
  · exact h
  · split
    · exact h.closeWindow
    · exact h.closeWindow.closeWindow

theorem State.memOk.execLatencyWindowEnd {s : State} (h : s.memOk) : nextOk (Machine.execLatencyWindowEnd s) :=
  h.closeWindows

theorem State.memOk.eraseKeys {s : State} (h : s.memOk) : (Machine.eraseKeys s).memOk :=
  h.modRel.foldl fun h => h.haltCtx.haltCheck

theorem State.memOk.alarm {s : State} {which : Nat} (h : s.memOk) : (Machine.alarm s which).memOk := by
  dsimp only [Machine.alarm]
  split
  · exact .eraseKeys (.raiseVec (.errRecord (.keep h.modRel)))
  · exact .raiseVec (.errRecord (.keep h.modRel))

theorem State.memOk.execSecurityAlarm {which : BitVec 2} {s : State} (h : s.memOk) : nextOk (Machine.execSecurityAlarm which s) :=
  h.alarm

theorem State.memOk.execFirmwareImageVerify {image : FirmwareImage} {s : State} (h : s.memOk) :
    nextOk (Machine.execFirmwareImageVerify image s) := by
  dsimp only [Machine.execFirmwareImageVerify]
  split
  · exact h
  · split
    · exact h.modRel
    · exact h.alarm

theorem State.memOk.execPwrMode {value : W64} {s : State} (h : s.memOk) : nextOk (Machine.execPwrMode value s) :=
  h.modRel

theorem State.memOk.execPwrModeChangeComplete {s : State} (h : s.memOk) : nextOk (Machine.execPwrModeChangeComplete s) :=
  h.modRel

theorem State.memOk.execGovernorWindow {s : State} (h : s.memOk) : nextOk (Machine.execGovernorWindow s) := by
  dsimp only [Machine.execGovernorWindow]
  split <;> exact h

theorem State.memOk.execCoreHotMark {core temp : Nat} {s : State} (h : s.memOk) : nextOk (Machine.execCoreHotMark core temp s) := by
  dsimp only [Machine.execCoreHotMark]
  split
  · exact h
  · split <;> exact h

theorem State.memOk.execCoreDroop {core : Nat} {s : State} (h : s.memOk) : nextOk (Machine.execCoreDroop core s) :=
  h

/-! ### The device's edges (Machine/EvBoard.lean) -/

theorem State.memOk.execPowerOn {image : FirmwareImage} {rows : List W64} {s : State} (h : s.memOk) :
    nextOk (Machine.execPowerOn image rows s) := by
  dsimp only [Machine.execPowerOn]
  split
  · exact h
  · split
    · exact h.alarm
    · exact .modRel (.keep h.modRel)

/-- What a loss of power keeps is host memory and the CXL tier; all else is as at reset. -/
theorem State.memOk.execMainPowerLoss {s : State} (h : s.memOk) : nextOk (Machine.execMainPowerLoss s) := by
  obtain ⟨hhbm, _, _, hteams, hwaves, hctxs⟩ := reset_canonical
  exact ⟨hhbm, h.cxl, h.host, hteams, hwaves, hctxs⟩

theorem State.memOk.writeQueue {s : State} {q k : Nat} {x : W64} (h : s.memOk) : nextOk (Machine.writeQueue s q k x) := by
  dsimp only [Machine.writeQueue]
  split
  · exact h.modQueue
  · exact h.modQueue
  · exact h.execLqDoorbell
  · exact h.modQueue

theorem State.memOk.hostLow {s : State} {o : Nat} {x : W64} (h : s.memOk) : nextOk (Machine.hostLow s o x) := by
  dsimp only [Machine.hostLow]
  split
  · exact h.writeQueue
  · split
    · exact h.execBdyDoorbell
    · split
      · exact h.execCtxEnd
      · split
        · exact h
        · split <;> exact h

theorem State.memOk.hostHigh {s : State} {o : Nat} {x : W64} (h : s.memOk) : nextOk (Machine.hostHigh s o x) := by
  unfold Machine.hostHigh
  dsimp only
  refine ite_keeps (P := nextOk) h.keep ?_
  refine ite_keeps (P := nextOk) h.keep ?_
  refine ite_keeps (P := nextOk) h.keep ?_
  refine @ite_keeps _ nextOk _ _ _ _ ?_ ?_
  · refine @ite_keeps _ nextOk _ _ _ _ ?_ ?_
    · exact h.execErrStatusClear
    · exact h
  refine ite_keeps (P := nextOk) h.modRel ?_
  refine @ite_keeps _ nextOk _ _ _ _ ?_ ?_
  · refine @ite_keeps _ nextOk _ _ _ _ ?_ ?_
    · exact h.modRel
    · exact h.modRel
  refine ite_keeps (P := nextOk) h.modRel.fireDue ?_
  exact ite_keeps (P := nextOk) h.modRel h

theorem State.memOk.writeFabCtl {s : State} {v : Nat} (h : s.memOk) : nextOk (Machine.writeFabCtl s v) := by
  dsimp only [Machine.writeFabCtl]
  split
  · exact State.memOk.execFabCtlEn h.keep
  · exact h

theorem State.memOk.mpWrite {s : State} {o : Nat} {x : W64} (h : s.memOk) : nextOk (Machine.mpWrite s o x) := by
  unfold Machine.mpWrite
  dsimp only
  refine ite_keeps (P := nextOk) h.keep ?_
  refine ite_keeps (P := nextOk) h.keep ?_
  refine ite_keeps (P := nextOk) h.execPwrMode ?_
  refine ite_keeps (P := nextOk) h.writeFabCtl ?_
  refine ite_keeps (P := nextOk) h.keep ?_
  refine ite_keeps (P := nextOk) h.keep ?_
  refine ite_keeps (P := nextOk) h.modRel ?_
  refine ite_keeps (P := nextOk) h.modRel ?_
  refine ite_keeps (P := nextOk) h.modRel ?_
  refine ite_keeps (P := nextOk) h.execXbarCommitPrepare ?_
  refine ite_keeps (P := nextOk) (ite_keeps (P := nextOk) h.execXbarSwap h) ?_
  refine ite_keeps (P := nextOk) h.modRel ?_
  exact ite_keeps (P := nextOk) h.modRel h

theorem State.memOk.execRegisterWrite {agent : Writer} {offset : Nat} {value : W64} {s : State} (h : s.memOk) :
    nextOk (Machine.execRegisterWrite agent offset value s) := by
  dsimp only [Machine.execRegisterWrite]
  split
  · exact h
  · split
    · split
      · split
        · exact h.hostLow
        · exact h.hostHigh
      · exact h
    · split
      · exact h.mpWrite
      · exact h
    · exact h

theorem State.memOk.execHostBarAccess {addr len : Nat} {store : Option (List Byte)} {s : State} (h : s.memOk) :
    nextOk (Machine.execHostBarAccess addr len store s) := by
  dsimp only [Machine.execHostBarAccess]
  split
  · exact trivial
  · split
    · exact h
    · split
      · exact h.writeRange _ _ _
      · exact h

/-! ### The host link (Machine/EvLink.lean) -/

theorem State.memOk.modLink {s : State} {f : HostLink → HostLink} (h : s.memOk) : (Machine.modLink s f).memOk :=
  h

theorem State.memOk.execAtsTranslationResponse {pasid : Nat} {page : W64} {answer : Option AtsEntry} {s : State} (h : s.memOk) :
    nextOk (Machine.execAtsTranslationResponse pasid page answer s) := by
  dsimp only [Machine.execAtsTranslationResponse]
  split
  · exact h
  · exact h.dropAts.modLink.retryDues

theorem State.memOk.execAtsInvalidateRequest {pasid : Nat} {va : W64} {len : Nat} {s : State} (h : s.memOk) :
    nextOk (Machine.execAtsInvalidateRequest pasid va len s) := by
  dsimp only [Machine.execAtsInvalidateRequest]
  split
  · exact h
  · exact h.modLink

theorem State.memOk.pageRecord {prist : Nat} {s : State} {w : Wave} (h : s.memOk) : (Machine.pageRecord prist s w).memOk :=
  .onCtx (h.onWave fun hw => hw) fun hc => hc

theorem State.memOk.pageWaves {s : State} {asid : Nat} {page : W64} (h : s.memOk) : ∀ w ∈ Machine.pageWaves s asid page, w.memOk :=
  fun w hw => h.waves w (List.mem_filter.1 hw).1

theorem State.memOk.execPriPageRequest {asid : Nat} {page : W64} {s : State} (h : s.memOk) :
    nextOk (Machine.execPriPageRequest asid page s) := by
  unfold Machine.execPriPageRequest
  dsimp only
  split
  · exact h
  · split
    · exact State.memOk.foldl h State.memOk.pageRecord
    · split
      · exact h
      · split
        · exact h
        · exact h.modLink

theorem State.memOk.execPriResponse {group : Nat} {code : BitVec 4} {s : State} (h : s.memOk) :
    nextOk (Machine.execPriResponse group code s) := by
  unfold Machine.execPriResponse
  extract_lets rs gone ws s₁ s₂ s₃
  have hws : ∀ w ∈ ws, w.memOk := List.forall_mem_flatMap.2 fun _ _ => h.pageWaves
  have h₁ : s₁.memOk := h.modLink
  have h₂ : s₂.memOk := h₁.dropAts.modLink
  have h₃ : s₃.memOk := h₁.foldl State.memOk.pageRecord
  split
  · exact h
  · split
    · exact List.foldlRecOn _ _ h₂ fun _ ha w hw => State.memOk.replayWave ha (hws w hw)
    · exact ite_keeps (P := State.memOk) h₃.modLink h₃

theorem State.memOk.execPriCapabilityWrite {allowance : Nat} {reenable : Option Nat} {s : State} (h : s.memOk) :
    nextOk (Machine.execPriCapabilityWrite allowance reenable s) :=
  h.modLink

/-! ### Matrix instructions (Machine/Matrix.lean) -/

theorem State.memOk.takeUnit {s : State} {pair : Nat} (h : s.memOk) : (Machine.takeUnit s pair).memOk := by
  dsimp only [Machine.takeUnit]
  split <;> exact h

theorem State.memOk.mmaBody {w : GenW} {s : State} {v : Wave} (h : s.memOk) : (Machine.mmaBody w s v).memOk := by
  unfold Machine.mmaBody
  split
  · exact h
  · extract_lets pr
    split
    · exact h
    · split
      extract_lets pm op s₁ z s₂
      have h₁ : s₁.memOk := State.memOk.takeUnit h.keep
      have h₂ : s₂.memOk := (h₁.onWave Wave.memOk.keep).markDead
      exact ite_keeps (P := Out.memOk) h₂ h₂

theorem State.memOk.execMmaLeavesArray {op : Nat} {s : State} (h : s.memOk) : nextOk (Machine.execMmaLeavesArray op s) := by
  dsimp only [Machine.execMmaLeavesArray]
  split
  · exact h
  · split
    · exact h
    · exact .keep h.markDead

theorem State.memOk.mmaPut {s : State} {id : Nat} {snap : Snap} {ws : List (Nat × List (Nat × W32))} {skip : Mask} (h : s.memOk) :
    (Machine.mmaPut s id snap ws skip).memOk := by
  dsimp only [Machine.mmaPut]
  split
  · exact h
  · rename_i e₁
    split
    · rename_i e₂
      exact h.putBack ((Wave.memOk.snapWrite (h.findWave.of_eq e₁)).of_eq e₂)
    · exact h

theorem State.memOk.releaseTwin {s : State} {id : Nat} (h : s.memOk) : (Machine.releaseTwin s id).memOk := by
  dsimp only [Machine.releaseTwin]
  split
  · exact h
  · rename_i e
    have h₁ {st wt} := h.putBack ((h.findWave.of_eq e).setSt (st := st) (wt := wt))
    split
    · exact h
    · split
      · exact h.killWave
      · split
        · exact h₁.logStopped.haltCheck
        · exact h₁

theorem State.memOk.mmaChecked {s : State} {m : MmaOp} {bad : Mask} (h : s.memOk) : (Machine.mmaChecked s m bad).memOk := by
  dsimp only [Machine.mmaChecked]
  split
  · exact h
  · split
    · exact h
    · split
      · exact h.complete
      · exact h.precisely

theorem State.memOk.execMmaRetire {op : Nat} {s : State} (h : s.memOk) : nextOk (Machine.execMmaRetire op s) := by
  dsimp only [Machine.execMmaRetire]
  split
  · exact h
  · split
    · split
      · exact h
      · exact .releaseTwin (.mmaChecked (ite_keeps (.mmaPut (.mmaPut h.keep))
            (ite_keeps (.onWave (.mmaPut (.mmaPut h.keep)) fun hw => hw.noteFault) h)))
    · exact h

theorem State.memOk.execMsca {w : GenW} {s : State} (h : s.memOk) : nextOk (Machine.execMsca w s) := by
  dsimp only [Machine.execMsca]
  refine h.issueR fun h hw => ?_
  split
  · exact h
  · exact h.writeOut hw

theorem State.memOk.execMtrn {w : GenW} {s : State} (h : s.memOk) : nextOk (Machine.execMtrn w s) := by
  dsimp only [Machine.execMtrn]
  refine h.issueR fun h hw => ?_
  split
  · exact h
  · exact h.writeOut hw

theorem State.memOk.fragDies {s : State} {v : Wave} {kind : AccKind} {p : Nat × Nat} (h : s.memOk) (hw : v.memOk) :
    (Machine.fragDies s v kind p).1.memOk ∧ (Machine.fragDies s v kind p).2.memOk := by
  unfold Machine.fragDies
  dsimp only
  generalize (if kind = .store then fragPoison v [p] else 0) = m
  refine ite_keeps (P := fun q : State × Wave => q.1.memOk ∧ q.2.memOk) ⟨h, hw⟩ ⟨h.markDead, ?_⟩
  exact getD_keeps h.markDead.findWave hw

theorem State.memOk.fragBody {i : Instr} {w : MemW} {r : Nat} {kind : AccKind} {s : State} {v : Wave} (h : s.memOk) (hw : v.memOk) :
    (Machine.fragBody i w r kind s v).memOk := by
  dsimp only [Machine.fragBody]
  split
  · exact h
  · exact h.withBase (ite_keeps h ((h.fragDies hw).1.issueAccess (h.fragDies hw).2))

/-! ### Accesses to a named peer (Machine/Remote.lean) -/

theorem State.memOk.peerBody {i : Instr} {m : PeerOp} {s : State} {v : Wave} (h : s.memOk) (hw : v.memOk) :
    (Machine.peerBody i m s v).memOk := by
  dsimp only [Machine.peerBody]
  split
  · split
    · exact h
    · exact h.commitAccess
  · split
    · split
      · exact h.putBack hw.noteFault
      · exact (h.putBack hw.noteFault).commitAccess
    · exact h

theorem State.memOk.execNop {w : GenW} {s : State} (h : s.memOk) : nextOk (Machine.execNop w s) := by
  dsimp only [Machine.execNop]
  split
  · split
    · exact h.sliceNext
    · exact h.sliceIllegal
  · exact h.issue fun h _ => h

end Sys2Proof.Machine
end

section
/-! PROOFS. Every step keeps every memory in canonical form: an instruction or event, a turn, a step. -/

namespace Sys2Proof.Machine

/-! ### The dispatch (Machine/Dispatch.lean) -/

/-- Every instruction and every event keeps the memories in canonical form. -/
theorem State.memOk.exec {i : Instr} {s : State} (h : s.memOk) : nextOk (Machine.exec i s) := by
  cases i with
  | nop _ => exact h.execNop
  | bra _ => exact h.issue fun h _ => h.branchTo
  | bkz _ => exact h.execBkz
  | bknz _ => exact h.execBknz
  | bhz _ => exact h.execBhz
  | call _ => exact h.execCall
  | ret _ => exact h.issue fun h _ => h.branchTo
  | jmpi _ => exact h.issue fun h _ => h.branchTo
  | loop _ => exact h.execLoop
  | endp _ => exact h.issue fun h hw => h.endpBody hw
  | trap _ => exact h.execTrap
  | rft _ => exact h.issue fun h hw => h.rftBody hw
  | yield _ => exact h.execYield
  | yieldExpiry _ => exact h.execYieldExpiry
  | srd _ => exact h.execSrd
  | swr _ => exact h.execSwr
  | haltctx _ => exact h.execHaltctx
  | drain _ => exact h.execDrain
  | tlbinv _ => exact h.issue fun h _ => h.tlbinvBody
  | replay _ => exact h.execReplay
  | nopre _ => exact h.execNopre
  | pre _ => exact h.execPre
  | mark _ => exact h.issue fun h hw => h.markBody hw
  | smov _ => exact h.execSmov
  | sli _ => exact h.issueEff
  | sadd _ => exact h.issueEff
  | ssub _ => exact h.issueEff
  | smul _ => exact h.execSmul
  | smulh _ => exact h.execSmulh
  | smad _ => exact h.issueEff
  | sdiv _ => exact h.execSdiv
  | srem _ => exact h.execSrem
  | sand _ => exact h.execSand
  | sor _ => exact h.execSor
  | sxor _ => exact h.execSxor
  | sshl _ => exact h.execSshl
  | sshr _ => exact h.execSshr
  | smin _ => exact h.execSmin
  | smax _ => exact h.execSmax
  | scmp _ => exact h.issueEff
  | stst _ => exact h.issueEff
  | ssel _ => exact h.issueEff
  | sclz _ => exact h.issueEff
  | spopc _ => exact h.issueEff
  | sbfe _ => exact h.execSbfe
  | sbfi _ => exact h.issueEff
  | kand _ => exact h.issueEff
  | kor _ => exact h.issueEff
  | kxor _ => exact h.issueEff
  | kandn _ => exact h.issueEff
  | kmov _ => exact h.issueEff
  | kset _ => exact h.issueEff
  | kget _ => exact h.issueEff
  | kpopc _ => exact h.issueEff
  | kfirst _ => exact h.issueEff
  | vmov _ => exact h.execVmov
  | vadd _ => exact h.execVadd
  | vsub _ => exact h.execVsub
  | vmul _ => exact h.execVmul
  | vmulh _ => exact h.execVmulh
  | vmad _ => exact h.execVmad
  | vand _ => exact h.execVand
  | vor _ => exact h.execVor
  | vxor _ => exact h.execVxor
  | vshl _ => exact h.execVshl
  | vshr _ => exact h.execVshr
  | vmin _ => exact h.execVmin
  | vmax _ => exact h.execVmax
  | vabs _ => exact h.execVabs
  | vcmp _ => exact h.issueEff
  | vsel _ => exact h.execVsel
  | vclz _ => exact h.execVclz
  | vpopc _ => exact h.execVpopc
  | vbfe _ => exact h.execVbfe
  | vbfi _ => exact h.execVbfi
  | vdp4 _ => exact h.issueEff
  | vfadd _ => exact h.execVfadd
  | vfsub _ => exact h.execVfsub
  | vfmul _ => exact h.execVfmul
  | vfma _ => exact h.execVfma
  | vfmin _ => exact h.execVfmin
  | vfmax _ => exact h.execVfmax
  | vfcmp _ => exact h.issueEff
  | vfclass _ => exact h.execVfclass
  | vrcp _ => exact h.execVrcp
  | vrsq _ => exact h.execVrsq
  | vsqrt _ => exact h.execVsqrt
  | vdiv _ => exact h.execVdiv
  | vexp2 _ => exact h.execVexp2
  | vlog2 _ => exact h.execVlog2
  | vcvt _ => exact h.issueEff
  | vfrnd _ => exact h.execVfrnd
  | vpack _ => exact h.issueEff
  | vunpk _ => exact h.issueEff
  | vshuf _ => exact h.execVshuf
  | vxsh _ => exact h.execVxsh
  | vbcast _ => exact h.execVbcast
  | vred _ => exact h.issueEff
  | vscan _ => exact h.issueEff
  | vcomp _ => exact h.issueEff
  | vexpd _ => exact h.execVexpd
  | vapnd _ => exact h.execVapnd
  | vvote _ => exact h.issueEff
  | vrand _ => exact h.execVrand
  | vrseed _ => exact h.execVrseed
  | vsca _ => exact h.issueEff
  | bset _ => exact h.execBset
  | bmap _ => exact h.execBmap
  | mma _ => exact h.issue fun h _ => h.mmaBody
  | mmaRetire _ => exact h.execMmaRetire
  | msca _ => exact h.execMsca
  | mtrn _ => exact h.execMtrn
  | mldf _ => exact h.issue fun h hw => h.fragBody hw
  | mstf _ => exact h.issue fun h hw => h.fragBody hw
  | ld _ => exact h.issue fun h hw => h.memBody hw
  | st _ => exact h.issue fun h hw => h.memBody hw
  | ldb _ => exact h.issue fun h hw => h.memBody hw
  | stb _ => exact h.issue fun h hw => h.memBody hw
  | atom _ => exact h.issue fun h hw => h.memBody hw
  | atomr _ => exact h.issue fun h hw => h.memBody hw
  | cas _ => exact h.issue fun h hw => h.memBody hw
  | fence _ => exact h.issue fun h hw => h.fenceBody hw
  | prf _ => exact h.issue fun h _ => h
  | ldh _ => exact h.issue fun h hw => h.memBody hw
  | sth _ => exact h.issue fun h hw => h.memBody hw
  | hmov _ => exact h.execHmov
  | pin _ => exact h.execPin
  | unpin _ => exact h.execUnpin
  | pld _ => exact h.issue fun h hw => h.peerBody hw
  | pst _ => exact h.issue fun h hw => h.peerBody hw
  | psts _ => exact h.issue fun h hw => h.peerBody hw
  | patom _ => exact h.issue fun h hw => h.peerBody hw
  | patomr _ => exact h.issue fun h hw => h.peerBody hw
  | nput _ => exact h.issue fun h _ => h.netBody
  | nget _ => exact h.issue fun h _ => h.netBody
  | natom _ => exact h.issue fun h _ => h.netBody
  | nflush _ => exact h.execNflush
  | wrev _ => exact h.execWrev
  | copy _ => exact h.issue fun h _ => h.copyBody
  | copym _ => exact h.issue fun h _ => h.copymBody
  | chain _ => exact h.issue fun h _ => h.chainBody
  | close _ => exact h.execClose
  | waitb _ => exact h.execWaitb
  | cadd _ => exact h.issue fun h hw => h.issueAccess hw
  | tryw _ => exact h.issue fun h hw => h.trywBody hw
  | trywPeriodicRead _ => exact h.execTrywPeriodicRead
  | trywLimitExpiry _ => exact h.execTrywLimitExpiry
  | spawn _ => exact h.execSpawn
  | taskAccept _ => exact h.execTaskAccept
  | cscope _ => exact h.execCscope
  | cancel _ => exact h.execCancel
  | kpoll _ => exact h.issueEff
  | bars _ => exact h.issue fun h _ => h.barBody
  | bara _ => exact h.issue fun h _ => h.barBody
  | barw _ => exact h.issue fun h _ => h.barwBody
  | give _ => exact h.issue fun h _ => h.giveBody
  | giveRelease _ => exact h.execGiveRelease
  | claim _ => exact h.issue fun h _ => h.claimBody
  | hwait _ => exact h.issue fun h _ => h.hwaitBody
  | waitt _ => exact h.issue fun h _ => h.waittBody
  | elect _ => exact h.issueEff
  | aloop _ => exact h.execAloop
  | aend _ => exact h.execAend
  | ald _ => exact h.execAld
  | apf _ => exact h.execApf
  | aadv _ => exact h.execAadv
  | ahalt _ => exact h.execAhalt
  | waveKill _ => exact h.execWaveKill
  | waveRetire _ => exact h.execWaveRetire
  | waveStateMachineCheck _ => exact h.execWaveStateMachineCheck
  | scopeQuiesceAck _ _ => exact h.execScopeQuiesceAck
  | slipResolve _ _ _ => exact h.execSlipResolve
  | trapDelivery _ => exact h.execTrapDelivery
  | faultRecordWrite _ => exact h.execFaultRecordWrite
  | nopreOverrun _ => exact h.execNopreOverrun
  | preemption _ => exact h.execPreemption
  | teamRestore _ _ => exact h.execTeamRestore
  | binderyBatchStart _ => exact h.execBinderyBatchStart
  | binderyDrainDone _ => exact h.execBinderyDrainDone
  | binderyBatchDone _ => exact h.execBinderyBatchDone
  | bdyDoorbell _ _ => exact h.execBdyDoorbell
  | pstsResync _ => exact h.execPstsResync
  | engineOpStart _ => exact h.execEngineOpStart
  | engineChunk _ => exact h.execEngineChunk
  | engineOpComplete _ => exact h.execEngineOpComplete
  | engineOpAbort _ => exact h.execEngineOpAbort
  | lqDoorbell _ _ => exact h.execLqDoorbell
  | launchPacketRead _ => exact h.execLaunchPacketRead
  | launchPending _ => exact h.execLaunchPending
  | teamPlacement => exact h.execTeamPlacement
  | gridEnd _ => exact h.execGridEnd
  | contextEndInterrupt _ => exact h.execContextEndInterrupt
  | ctxEnd _ => exact h.execCtxEnd
  | governorWindow => exact h.execGovernorWindow
  | coreHotMark _ _ => exact h.execCoreHotMark
  | coreDroop _ => exact h.execCoreDroop
  | priPageRequest _ _ => exact h.execPriPageRequest
  | priResponse _ _ => exact h.execPriResponse
  | atsInvalidateRequest _ _ _ => exact h.execAtsInvalidateRequest
  | fabCtlEn => exact h.execFabCtlEn
  | fabricJoin _ _ => exact h.execFabricJoin
  | fabricPeerUpdate _ _ _ => exact h.execFabricPeerUpdate
  | planeDown _ => exact h.execPlaneDown
  | flitLinkRetry _ => exact h.execFlitLinkRetry
  | fabricWritePacket _ => exact h.execFabricWritePacket
  | fabricReadPacket _ => exact h.execFabricReadPacket
  | fabricAtomicPacket _ => exact h.execFabricAtomicPacket
  | fabricAck _ => exact h.execFabricAck
  | fabricNak _ => exact h.execFabricNak
  | fabricResponse _ => exact h.execFabricResponse
  | fabricRtoExpiry _ => exact h.execFabricRtoExpiry
  | fabricTmoExpiry _ => exact h.execFabricTmoExpiry
  | netPacketArrival _ => exact h.execNetPacketArrival
  | netContextFetchDone _ => exact h.execNetContextFetchDone
  | netAck _ => exact h.execNetAck
  | netNak _ => exact h.execNetNak
  | netParkResend _ => exact h.execNetParkResend
  | netRetransmitTimeout _ => exact h.execNetRetransmitTimeout
  | arrayUncorrectableError _ => exact h.execArrayUncorrectableError
  | arrayCorrectedError _ => exact h.execArrayCorrectedError
  | selfTestComplete _ _ => exact h.execSelfTestComplete
  | rangeLockEntryError _ _ _ => exact h.execRangeLockEntryError
  | infieldTestDue _ => exact h.execInfieldTestDue
  | infieldTestEnd _ _ => exact h.execInfieldTestEnd
  | watchdogFire _ _ => exact h.execWatchdogFire
  | xbarCommitPrepare _ => exact h.execXbarCommitPrepare
  | xbarSwap => exact h.execXbarSwap
  | mpWatchdogReset => exact h.execMpWatchdogReset
  | latencyWindowEnd => exact h.execLatencyWindowEnd
  | securityAlarm _ => exact h.execSecurityAlarm
  | firmwareImageVerify _ => exact h.execFirmwareImageVerify
  | pwrMode _ => exact h.execPwrMode
  | errStatusClear _ => exact h.execErrStatusClear
  | powerOn _ _ => exact h.execPowerOn
  | registerWrite _ _ _ => exact h.execRegisterWrite
  | hostBarAccess _ _ _ => exact h.execHostBarAccess
  | fabricPlaneUp _ => exact h.execFabricPlaneUp
  | fabricPacketSend _ => exact h.execFabricPacketSend
  | mmaLeavesArray _ => exact h.execMmaLeavesArray
  | atsTranslationResponse _ _ _ => exact h.execAtsTranslationResponse
  | priCapabilityWrite _ _ => exact h.execPriCapabilityWrite
  | pwrModeChangeComplete => exact h.execPwrModeChangeComplete
  | mainPowerLoss => exact h.execMainPowerLoss

/-! ### Turns (Machine/Turn.lean) -/

theorem State.memOk.fetchStop {s : State} {w : Wave} {x : FetchStop} (h : s.memOk) : (Machine.fetchStop s w x).memOk := by
  unfold Machine.fetchStop
  split
  · exact h.takeTrap
  · generalize e : Machine.mkPark s w _ _ _ _ _ _ _ _ _ _ = q
    have hq : q.1.memOk := e ▸ h.mkPark
    exact hq.parkWave

theorem State.memOk.illegalWord {s : State} {w : Wave} {word : W96} (h : s.memOk) : (Machine.illegalWord s w word).memOk :=
  h.takeTrap

theorem Wave.memOk.enterLine {w : Wave} {l : List Byte} (hw : w.memOk) : (Machine.enterLine w l).memOk := by
  dsimp only [Machine.enterLine]
  split <;> exact hw

theorem State.memOk.fetchRun {s : State} {w : Wave} (h : s.memOk) (hw : w.memOk) : nextOk (Machine.fetchRun s w) := by
  unfold Machine.fetchRun
  extract_lets s₁
  have h₁ : s₁.memOk := h.refetchAt
  split
  · exact h₁.fetchStop
  · extract_lets s₂ w₁ _ w₂
    have h₂ : s₂.memOk := h₁.cacheLine
    have hw₂ : w₂.memOk := Wave.memOk.keep (w := w₁) hw.enterLine
    split
    · exact h₂.fetchStop
    · split
      · exact h₂.fetchStop
      · split
        · exact (h₂.putBack hw₂).illegalWord
        · exact State.memOk.exec (h₂.putBack hw₂).keep

theorem State.memOk.unparked {s : State} {w : Wave} (h : s.memOk) : (Machine.unparked s w).memOk :=
  .onWave (h.onCtx fun hc => hc) fun hw => hw

theorem State.memOk.parkedTurn {s : State} {w : Wave} {p : Park} (h : s.memOk) : (Machine.parkedTurn s w p).memOk := by
  dsimp only [Machine.parkedTurn]
  split
  · split
    · split
      · exact h.unparked.onWave fun hw => hw
      · exact h.unparked.precisely
    · exact h.unparked.fetchStop
  · exact h

theorem State.memOk.leaveIdem {s : State} {w : Wave} (h : s.memOk) (hw : w.memOk) : (Machine.leaveIdem s w).memOk := by
  unfold Machine.leaveIdem
  split
  · extract_lets out _ s₁ left
    have h₁ : s₁.memOk := ite_keeps (h.putBack hw.keep) h
    split
    · exact h₁.mapWaves fun hx => ite_keeps (P := Wave.memOk) hx.keep hx
    · exact h₁
  · exact h

theorem State.memOk.afterTurn {s : State} {id : Nat} (h : s.memOk) : (Machine.afterTurn s id).memOk := by
  dsimp only [Machine.afterTurn]
  split
  · exact h
  · rename_i e
    exact .keep (ite_keeps (.haltCheck (.logStopped (.settleAll (h.leaveIdem (h.findWave.of_eq e)))))
        (.settleAll (h.leaveIdem (h.findWave.of_eq e))))

theorem nextOk.mapNext {o : Host.Outcome State Fault Refusal} {f : State → State} (ho : nextOk o)
    (hf : ∀ {s}, State.memOk s → (f s).memOk) : 
    nextOk (Machine.mapNext o f) := by
  cases o with
  | next s => exact hf ho
  | fault _ => trivial
  | refused _ => trivial

theorem State.memOk.waveTurn {s : State} {id : Nat} (h : s.memOk) : nextOk (Machine.waveTurn s id) := by
  dsimp only [Machine.waveTurn]
  split
  · exact h
  · rename_i e
    split
    · exact h
    · exact h
    · exact h
    · split
      · exact h.killWave
      · split
        · exact h.parkedTurn.afterTurn
        · exact h
    · split
      · exact h.killWave.afterTurn
      · split
        · exact h.takeTrap.afterTurn
        · split
          · exact h
          · exact .mapNext (h.fetchRun (h.findWave.of_eq e)) fun h => h.afterTurn

theorem State.memOk.sliceTurn {s : State} {id : Nat} (h : s.memOk) : nextOk (Machine.sliceTurn s id) := by
  dsimp only [Machine.sliceTurn]
  split
  · exact h
  · rename_i e
    split
    · exact h
    · split
      · exact h.sliceIllegal
      · split
        · exact h.refetchAt
        · exact h.refetchAt.sliceEnd
        · split
          · exact h.refetchAt.cacheLine.skipLoop (h.findWave.of_eq e)
          · split
            · split
              · exact .mapNext (State.memOk.exec (.keep h.refetchAt.cacheLine)) fun h => h
              · exact h.refetchAt.sliceIllegal
            · exact h.refetchAt.sliceIllegal

theorem State.memOk.lazyTurn {s : State} {id slot : Nat} {newV : List (Nat × Mask)} {newS : List Nat} (h : s.memOk) :
    (Machine.lazyTurn s id slot newV newS).memOk := by
  dsimp only [Machine.lazyTurn]
  split
  · exact h
  · rename_i e
    split
    · exact h
    · split
      · exact .keep (h.putBack (.keep (h.findWave.of_eq e)))
      · exact h.lazyStoreDone (h.findWave.of_eq e)

theorem Team.memOk.watchTime {s : State} {ns : Nat} {t : Team} (ht : t.memOk) : (Machine.watchTime s ns t).memOk :=
  ite_keeps (P := Team.memOk) ht ht.keep

theorem State.memOk.advanceTime {s : State} {clk ns : Nat} (h : s.memOk) : (Machine.advanceTime s clk ns).memOk := by
  refine ⟨h.hbm, h.cxl, h.host, List.forall_mem_map.2 fun t ht => ?_, List.forall_mem_map.2 fun w hw => ?_, h.ctxs⟩
  · exact (h.teams t ht).watchTime
  · exact ite_keeps (P := Wave.memOk) (h.waves w hw).keep (h.waves w hw)

theorem State.memOk.passTime {s : State} {clk ns : Nat} (h : s.memOk) : (Machine.passTime s clk ns).memOk :=
  h.trywAll.advanceTime.fireDue.closeWindows

theorem State.memOk.outsideWrite {s : State} {sp : Space} {a : Nat} {l : List Byte} (h : s.memOk) :
    (Machine.outsideWrite s sp a l).memOk := by
  dsimp only [Machine.outsideWrite]
  split
  · exact h.writeRange _ _ _
  · exact h.writeRange _ _ _
  · exact h

theorem State.memOk.loadRegion {s : State} {e start stop : W64} (h : s.memOk) : (Machine.loadRegion s e start stop).memOk := by
  dsimp only [Machine.loadRegion]
  split <;> exact h

theorem State.memOk.noteReady {old new : State} (h : new.memOk) : (Machine.noteReady old new).memOk := by
  unfold Machine.noteReady
  extract_lets fresh
  split
  · exact h.mapWaves fun hw => ite_keeps (P := Wave.memOk) hw.keep hw
  · exact h

theorem State.memOk.resendTurn {s : State} {pkt : Nat} {parts : List (Nat × Mask)} (h : s.memOk) :
    (Machine.resendTurn s pkt parts).memOk :=
  h

theorem State.memOk.turnBody {s : State} {t : Turn} (h : s.memOk) : nextOk (Machine.turnBody s t) := by
  dsimp only [Machine.turnBody]
  split
  · exact h.waveTurn
  · exact h.sliceTurn
  · exact State.memOk.exec h.keep
  · exact h.lazyTurn
  · exact h.passTime
  · exact h.outsideWrite
  · exact h
  · exact h
  · exact h
  · exact h.loadRegion
  · exact h
  · exact h.resendTurn
  · exact h

/-- Every turn of the agenda keeps the memories in canonical form. -/
theorem State.memOk.takeTurn {s : State} {t : Turn} (h : s.memOk) : nextOk (Machine.takeTurn s t) :=
  h.turnBody.mapNext State.memOk.noteReady

/-- The search for a move tries turns from the same state, so that only the last one counts. -/
theorem State.memOk.firstMove {s : State} {l : List Turn} (h : s.memOk) : nextOk (Machine.firstMove s l) := by
  induction l with
  | nil => exact h.passTime
  | cons t r ih =>
    unfold Machine.firstMove
    split
    · rename_i e
      split
      · exact ih
      · exact (e ▸ h.takeTurn : nextOk (.next _))
    · exact h.takeTurn

/-! ### The step (Machine/Step.lean) -/

theorem State.memOk.step {s : State} (h : s.memOk) : nextOk (Machine.step s) := by
  unfold Machine.step
  split
  · exact State.memOk.takeTurn h.keep
  · exact h.firstMove

/-- Settles O8: the form is kept by every turn of the agenda, through one lemma for each function of the model that changes the state; memories
change by stores, which keep the form, and otherwise start empty or are carried over. That the form is this one is the model's own choice (log 1). -/
theorem stepKeepsMemories : Obligations.StepKeepsMemories := by
  intro s t h e
  have hstep := h.step
  rw [e] at hstep
  exact hstep

end Sys2Proof.Machine
end
